-- ==== Sys2Proof/Word.lean ====
section
/-! DEFINITION. The word types of the model: bytes, FP32 bit patterns, and byte strings. -/

namespace Sys2Proof

/-- One byte of memory, of a message or of an image. -/
abbrev Byte := BitVec 8

/-- A 32-bit pattern: an FP32 value (R38), a selection key (R167), an INT32 lane. -/
abbrev W32 := BitVec 32

/-- A 64-bit pattern: item ids, source words, handles (R83). -/
abbrev W64 := BitVec 64

/-- A string of bytes, lowest address first (R9). -/
abbrev Bytes := List (BitVec 8)

end Sys2Proof
end

