-- ==== Sys2Proof/Syntax.lean ====
section
/-! DEFINITION. The commands of the block: one constructor per row of spec/opcode_table.json, with the
operands each event carries. Messages arrive as the payloads of their datagrams; pins, links, sensors and
buses hand in what they read; the device's own steps name the unit (tile, pool, request, entry) they concern. -/

namespace Sys2Proof

/-- An IP address (16 bytes IPv6, 4 bytes IPv4) and UDP port of a partner (R387). -/
structure Endpoint where
  addr : Bytes
  port : Nat
  deriving DecidableEq, Repr

/-- One complete MWP message of an open session (R355): its session id, its `MSG_ID`, and the payload of each of
its datagrams in `FRAG_INDEX` order. -/
structure Msg where
  session : Nat
  msgId : Nat
  frags : List Bytes
  deriving DecidableEq, Repr

/-- One UDP payload on the MWP port (R348), with the sub-port, the sender, the sender's MAC and its CE mark. -/
structure Datagram where
  sub : Nat
  src : Endpoint
  mac : Nat
  ce : Bool
  bytes : Bytes
  deriving DecidableEq, Repr

/-- One Ethernet frame from destination address to FCS (R324), with what FEC and the FCS check found. -/
structure Frame where
  sub : Nat
  bytes : Bytes
  fcsOk : Bool
  fecCorrected : Nat
  fecUncorrectable : Nat
  deriving DecidableEq, Repr

/-- A Neighbor Discovery or ARP packet (R327). -/
structure Neighbor where
  sub : Nat
  v6 : Bool
  request : Bool
  target : Bytes
  sender : Bytes
  senderMac : Nat
  deriving DecidableEq, Repr

/-- What start-up meets outside the device's own logic (R398, R461): the straps at the filtered rising edge, the flash
as the board left it, and the outcomes of the physical steps. -/
structure StartReport where
  mgmtAddr : Nat
  strapTest : Bool
  flashA : Option Bytes
  flashB : Option Bytes
  fusesOk : Bool
  romOk : Bool
  entropyOk : Bool
  hbmTrained : Bool
  failedTile : Option Nat
  deriving DecidableEq, Repr

/-- One sample of the sensors and of the regulators (R477): 64 temperatures in units of 0.0625 °C, and READ_VOUT (mV)
and READ_IOUT (mA) of the eight sense pairs. -/
structure Sample where
  temps : List Int
  vout : List Nat
  iout : List Nat
  deriving DecidableEq, Repr

/-- What the re-read of a detected uncorrectable line, or a scrub read, found (R300, R454). -/
inductive EccOutcome where
  | clean
  | corrected
  | failed
  deriving DecidableEq, Repr

/-- Who waits for a re-read line (R300, R447): the work item running on a tile, the Hopper on behalf of a request, or a
background task. -/
inductive EccReader where
  | tile (t : Nat)
  | request (req : Nat)
  | background
  deriving DecidableEq, Repr

/-- The four message types that carry chunked images (R363). -/
inductive LoadKind where
  | model
  | plan
  | adapter
  | grammar
  deriving DecidableEq, Repr

/-- A partner whose silence is timed (R336, R351): a peer table entry, or a session without one. -/
inductive Partner where
  | entry (i : Nat)
  | session (sid : Nat)
  deriving DecidableEq, Repr

/-- The clock domains whose PLLs can lose lock (R434). -/
inductive Pll where
  | arith
  | mesh
  | hbm (stack : Nat)
  | port
  | ctrl
  deriving DecidableEq, Repr

/-- The commands: every row of spec/opcode_table.json, in its order. -/
inductive Instr where
  -- reset, supply, link
  | resetNAssert
  | resetNRelease (r : StartReport)
  | supplyRemoval
  | linkUp (sub : Nat)
  | portLinkDown (sub : Nat)
  | ethFrameRx (f : Frame)
  | pfcFrameRx (sub : Nat) (enable : Nat) (quanta : Nat)
  | lldpFrameRx (sub : Nat) (chassis portId : Bytes)
  | neighborResolutionRx (n : Neighbor)
  | echoRequestRx (sub : Nat) (src : Endpoint) (v6 : Bool) (data : Bytes)
  | lldpTimer (sub : Nat)
  | helloTimer (sub : Nat)
  -- MWP transport and sessions
  | mwpDatagramRx (d : Datagram)
  | retransmitTimeout (sid seq : Nat)
  | windowUpdate (sid : Nat)
  | ack (m : Msg)
  | sessionInit (sub : Nat) (src : Endpoint) (payload : Bytes)
  | sessionAccept (sub : Nat) (src : Endpoint) (payload : Bytes)
  | sessionConfirm (sub : Nat) (src : Endpoint) (payload : Bytes)
  | sessionClose (src : Endpoint) (sid : Nat) (payload : Bytes)
  | handshakeResend (h : Nat)
  | handshakeTimeout (h : Nat)
  | closeAckTimeout (sid : Nat)
  -- host messages
  | submit (m : Msg)
  | cancel (m : Msg)
  | tableWrite (m : Msg)
  | tableSwitch (m : Msg)
  | tableRelease (m : Msg)
  | hotSet (m : Msg)
  | hotSetInstall (table : Nat)
  | corpusAppend (m : Msg)
  | corpusSwitchMerge (m : Msg)
  | corpusSwitchChunk (m : Msg)
  | corpusSwitchInstall (m : Msg)
  | loadModel (m : Msg)
  | loadPlan (m : Msg)
  | loadAdapter (m : Msg)
  | loadGrammar (m : Msg)
  | loadRemove (kind : LoadKind) (m : Msg)
  | loadAbandonTimeout (kind : LoadKind) (id : Nat)
  | handleRetain (m : Msg)
  | handleRelease (m : Msg)
  | inspectRead (m : Msg)
  | inspectWrite (m : Msg)
  | scrubHoursWrite (m : Msg)
  | counterClear (m : Msg)
  | power (m : Msg)
  | powerTransitionDone (failedTile : Option Nat)
  | plevelVoltageReached
  | poolGateDrainTimeout (pool : Nat)
  | poolUngateReady (pool : Nat) (failedTile : Option Nat)
  | stopDrain (m : Msg)
  | stopAbort (m : Msg)
  | stopDrainTimeout
  | configSection (m : Msg)
  | configLive (m : Msg)
  | restart (m : Msg)
  | imageWrite (m : Msg)
  -- partners
  | peerHello (sub : Nat) (src : Endpoint) (mac : Nat) (payload : Bytes)
  | peerBye (m : Msg)
  | heartbeat (m : Msg)
  | heartbeatSendTimer (entry sub : Nat)
  | peerLivenessExpiry (p : Partner)
  | joiningTimeout (entry : Nat)
  | hostEntryExpiry (entry : Nat)
  | announceDeviceFailed (m : Msg)
  | announceTwinLost (m : Msg)
  | announceTwinState (m : Msg)
  | rowRequest (m : Msg)
  | rowReply (m : Msg)
  | passageRequest (m : Msg)
  | passageReply (m : Msg)
  | mergeStart (m : Msg)
  | mergeList (m : Msg)
  | selBins (m : Msg)
  | selDecision (m : Msg)
  | selGather (m : Msg)
  | tokenRequest (m : Msg)
  | tokenGrant (m : Msg)
  | mirror (m : Msg)
  | applied (m : Msg)
  | syncChunk (m : Msg)
  | syncDone (m : Msg)
  | twinPartnerLost
  | bgTwinSync
  -- the Hopper
  | deadlineExpiry (req : Nat)
  | workCompletionRecord (i : Nat)
  | kvWritebackDone (req : Nat)
  | hopperHandoff (i : Nat)
  | tileRefillRequest (t : Nat)
  | stealTake (thief victim : Nat)
  | idleTileTimeout (t : Nat)
  | hopperWake (t : Nat)
  | workItemStart (t : Nat)
  -- work items, by opcode
  | nop (t : Nat)
  | barrier (t : Nat)
  | barrierCombine (pool slot : Nat)
  | barrierReleaseArrival (t : Nat)
  | signal (t : Nat)
  | yieldItem (t : Nat)
  | gemm (t : Nat)
  | conv (t : Nat)
  | dist (t : Nat)
  | ewUnary (t : Nat)
  | ewBinary (t : Nat)
  | ewFma (t : Nat)
  | reduce (t : Nat)
  | norm (t : Nat)
  | softmax (t : Nat)
  | pool2d (t : Nat)
  | dwconv (t : Nat)
  | convert (t : Nat)
  | topk (t : Nat)
  | selectRoundCombine (pool slot : Nat)
  | selectDecisionArrival (t : Nat)
  | kth (t : Nat)
  | argmax (t : Nat)
  | sort (t : Nat)
  | hist (t : Nat)
  | merge (t : Nat)
  | sample (t : Nat)
  | copy (t : Nat)
  | gather (t : Nat)
  | scatter (t : Nat)
  | transpose (t : Nat)
  | decompress (t : Nat)
  | leatSend (t : Nat)
  | coalesce (t : Nat)
  | poolSum (t : Nat)
  | poolMean (t : Nat)
  | poolWsum (t : Nat)
  | normalise (t : Nat)
  | trieWalk (t : Nat)
  | latticeStep (t : Nat)
  | detok (t : Nat)
  | stopMatch (t : Nat)
  | maskApply (t : Nat)
  | pack (t : Nat)
  -- Sluice, rings, Leat, mesh, HBM
  | sluiceHandleArrival (i : Nat)
  | ringFillLanded (t ring : Nat)
  | ringSlotRelease (t ring : Nat)
  | ringCreditArrival (i : Nat)
  | leatPayloadLand (i t : Nat)
  | remoteRead (i : Nat)
  | meshFlitCrcFail (t dir : Nat) (again : Bool)
  | hbmEccRetry (line : Nat) (reader : EccReader) (outcome : EccOutcome)
  -- the Wheel
  | riderPrepare (pool slot : Nat)
  | wheelSliceDone (t : Nat)
  | wheelBoundaryCombine (pool : Nat)
  | wheelWake (pool : Nat)
  | wheelReleaseArrival (t : Nat)
  | evictionArrival (t : Nat)
  | riderFinalMerge (pool slot : Nat)
  | riderDrop (pool slot : Nat)
  | wheelWatchdog (pool : Nat)
  -- background tasks
  | bgCorpusMerge (corpus : Nat)
  | bgSlabCopy (table version slab : Nat)
  | bgHbmScrub (line : Nat) (outcome : EccOutcome)
  | bgTmScrub (t word : Nat) (outcome : EccOutcome)
  | bgZeroise
  | bgTelemetry (x : Sample)
  | bgSensorCal (sensor : Nat)
  | bgDeferralExpiry (task slots : Nat)
  -- protection, errors, debug, management
  | thermalCheck (temps : List Int)
  | powerCheck (x : Sample) (inputMw : Nat)
  | pmbusPoll (vout iout : List Nat)
  | pmbusNoAnswer (k : Nat)
  | pmbAlert
  | thermalComparator (sensor : Nat)
  | pllLockLoss (p : Pll)
  | fwWatchdog
  | entropyFail
  | functionRecoveryDone (f : Nat)
  | dbgAuth (record : Bytes)
  | tapReset
  | tapIdcode
  | tapBypass
  | tapSamplePreload (pins : Nat) (load : Option Nat)
  | tapExtest
  | smbusBlockRead (addr cmd : Nat)
  | i3cPrivateRead (addr : Nat)
  | mgmtWriteNack (addr : Nat)
  | hbmStackTrainingLoss (stack : Nat)
  | pfcPauseExpiry (sub : Nat)
  | sluiceCreditArrival (i : Nat)
  | prefixPageCopyDone (req : Nat)
  deriving DecidableEq, Repr

end Sys2Proof
end

