-- ==== Sys2Proof/Machine/PortTypes.lean ====
section
/-! DEFINITION. The parts of the state that belong to the package, the flash, the port, sessions, partners, the twin,
power and the error log (chapters 13 to 20 of the manual). -/

namespace Sys2Proof.Machine

/-- The two ordering numbers (R1). -/
inductive Part where
  | a
  | b
  deriving DecidableEq, Repr

/-- What the fuses hold (R388): the ordering number, the used owner slots in order (the counter is their number, at
most 8) and the least security versions. -/
structure Fuses where
  part : Part := .a
  owners : List Bytes := []
  minFwSvn : Nat := 0
  minImageSvn : Nat := 0
  deriving DecidableEq, Repr

/-- The two slots of the flash (R399) as bytes from each slot's start, and the image write in progress in each: the next
offset, the total, and the header, which is programmed last (R419, R461). -/
structure Flash where
  slotA : Bytes := []
  slotB : Bytes := []
  writeA : Option (Nat × Nat × Bytes) := none
  writeB : Option (Nat × Nat × Bytes) := none
  deriving DecidableEq, Repr

/-- The balls the device drives or releases (R397, R463 to R466) and the TAP. -/
structure Pins where
  resetLow : Bool := true
  faultN : Bool := false
  thermtrip : Bool := false
  thermLatched : Bool := false
  xspiReleased : Bool := true
  mgmtAddr : Nat := 0x58
  tapReset : Bool := true
  tapInstr : Nat := 0
  boundary : Nat := 0
  extestDrive : Option Nat := none
  deriving DecidableEq, Repr

/-- What start-up leaves (R398 to R402, R378, R395): the service state (0 start-up, 1 service, 2 recovery, 3 failed), the
slot booted, measurements, the owner's key as read from the flash, and the debug state. `deviceFailed` says a DEVICE event, not start-up, led to state 3. -/
structure Boot where
  service : Nat := 0
  halted : Bool := false
  deviceFailed : Bool := false
  millpond : Bool := true
  slot : Nat := 0
  fellBack : Bool := false
  imageSeq : Nat := 0
  fwSvn : Nat := 0
  m0 : Bytes := []
  m1 : Bytes := []
  m2 : Bytes := []
  m3 : Bytes := []
  debugStatus : Bool := false
  debugFull : Bool := false
  debugPending : Bool := false
  challenge : Bytes := []
  authFailures : Nat := 0
  ownerKey : Option Bytes := none
  offPrep : Bool := false
  deriving DecidableEq, Repr

/-- Static addresses of a sub-port (R327, R405); all zeros means none. -/
structure AddrCfg where
  v6 : Bytes := []
  plen : Nat := 0
  gw6 : Bytes := []
  v4 : Bytes := []
  mask4 : Bytes := []
  gw4 : Bytes := []
  deriving DecidableEq, Repr

/-- The PORT section (R322 to R329). -/
structure PortCfg where
  mode : Nat := 0
  pmd : Nat := 0
  vlan : Nat := 0
  pcp : Nat := 0
  pfc : Nat := 0
  dscp : Nat := 0
  mwpPort : Nat := 7742
  maxPayload : Nat := 8960
  lldpS : Nat := 30
  groupV6 : Bytes := [0xFF, 2, 0, 0, 0, 0, 0, 0, 0, 0, 0, 0, 0, 0, 0x4D, 0x57]
  groupV4 : Bytes := [239, 255, 77, 87]
  addrs : List (Nat × AddrCfg) := []
  deriving DecidableEq, Repr

/-- One pool record of POOLS (R406); pools stand in a list in pool order. -/
structure PoolCfg where
  firstCol : Nat
  cols : Nat
  kinds : Nat
  weight : Nat
  cacheKib : Nat
  hotKib : Nat
  kvKib : Nat
  classes : Nat
  corpus : Nat
  deriving DecidableEq, Repr

/-- The MODE section (R407): the mode record and the share classes' weight and limit. -/
structure ModeCfg where
  mode : Nat := 0
  admitLimit : Nat := 1
  pLevel : Nat := 0
  capW : Nat := 0
  etaMin : W32 := 0
  beta : W32 := 0
  riderCap : Nat := 0
  boardSlice : Nat := 0
  classes : List (Nat × (Nat × Nat)) := []
  deriving DecidableEq, Repr

/-- The POWER section (R439). -/
structure PowerCfg where
  initState : Nat := 0
  initGate : Nat := 0
  arithSpread : Nat := 2
  meshSpread : Nat := 2
  deriving DecidableEq, Repr

/-- The SECURITY section (R388, R405). -/
structure SecurityCfg where
  ownerKey : Bytes := []
  imageSvn : Nat := 0
  minEpoch : Nat := 0
  deriving DecidableEq, Repr

/-- A device listed in PEERS (R331): its index, its role (0 PEER, 1 TWIN) and its identity digest. -/
structure PeerCfg where
  index : Nat
  role : Nat
  digest : Bytes
  deriving DecidableEq, Repr

/-- The PEERS section (R331). -/
structure PeersCfg where
  selfIndex : Nat := 0
  helloMs : Nat := 1000
  hbUs : Nat := 100
  hbMiss : Nat := 5
  netDelayNs : Nat := 2000
  devices : List PeerCfg := []
  deriving DecidableEq, Repr

/-- The TWIN section (R340). -/
structure TwinCfg where
  role : Nat := 0
  partner : Nat := 0
  hbUs : Nat := 20
  miss : Nat := 5
  syncPct : Nat := 25
  deriving DecidableEq, Repr

/-- The LIMITS section (R408). -/
structure LimitsCfg where
  kvBytes : Nat := 0
  rxBytes : Nat := 1073741824
  drainMs : Nat := 1000
  deriving DecidableEq, Repr

/-- A datagram of an open session as its sender builds it (R348), before sealing. -/
structure TxDatagram where
  seq : Nat
  ack : Nat
  msgId : Nat
  idx : Nat
  count : Nat
  type : Nat
  ctx : Nat
  noAck : Bool
  ecnEcho : Bool
  phase : Nat
  payload : Bytes
  sentAt : Nat
  deriving DecidableEq, Repr

/-- A message of which not every datagram has arrived (R355). -/
structure Incomplete where
  msgId : Nat
  count : Nat
  type : Nat
  ctx : Nat
  frags : List (Nat × Bytes)
  deriving DecidableEq, Repr

/-- An open session (R348 to R358, R384). `rxLow` is the lowest MSG_ID not yet complete, `rxDone` the complete ones above
it; `wire` is the id on the wire, `id` a number no other session here has: equal to `wire` unless two partners chose equal
ids (R387); `alpha` is the a of R354; `ackedBytes` to `windowAt`
are the window interval's counts and the tick it began. -/
structure Session where
  id : Nat
  wire : Nat
  peer : Endpoint
  sub : Nat
  weInitiated : Bool
  host : Bool
  perms : Nat
  dev : Nat
  role : Nat
  prk : Bytes := []
  th2 : Bytes := []
  txSeq : Nat := 1
  txPhase : Nat := 0
  rxPhase : Nat := 0
  rxLargest : Nat := 0
  rxRanges : List (Nat × Nat) := []
  ackDue : Bool := false
  ceBytes : Nat := 0
  txMsg : Nat := 1
  rxLow : Nat := 1
  rxDone : List Nat := []
  incomplete : List Incomplete := []
  unacked : List TxDatagram := []
  queue : List TxDatagram := []
  window : Nat := 16777216
  alpha : Rat := 0
  tMin : Option Nat := none
  backoff : Nat := 0
  ackedBytes : Nat := 0
  ceAcked : Nat := 0
  lostAny : Bool := false
  windowAt : Nat := 0
  lastHeard : Nat := 0
  heardTicks : Nat := 0
  heardAt : Nat := 0
  closing : Option (Nat × Nat) := none
  opened : Bool := true
  deriving DecidableEq, Repr

/-- A handshake in progress (R383 to R386): as initiator or responder, what was sent, and the derived secrets. -/
structure Handshake where
  id : Nat
  initiator : Bool
  sub : Nat
  peer : Endpoint
  dev : Nat
  session : Nat := 0
  randomI : Bytes
  randomR : Bytes := []
  initPayload : Bytes
  acceptPayload : Bytes := []
  confirmPayload : Bytes := []
  kemSecret : Bytes := []
  ecSecret : Bytes := []
  prk : Bytes := []
  started : Nat
  lastSent : Nat
  interval : Nat
  partnerA : Bool := false
  deriving DecidableEq, Repr

/-- A complete message that MWP_DATAGRAM_RX delivered and no command has taken yet: its session (0 outside one), sender,
type, context and datagram payloads. `leat` says that a SUBMIT of at most 256 bytes rides the Leat (R91). -/
structure Delivered where
  session : Nat
  src : Endpoint
  sub : Nat
  mac : Nat
  msgId : Nat
  type : Nat
  ctx : Nat
  frags : List Bytes
  leat : Bool
  deriving DecidableEq, Repr

/-- How a packet leaves a sub-port (R324, R325, R327, R328): its 802.1Q tag (VLAN and priority, none on an untagged frame), the MAC of
its next hop, the destination address, the time to live where the specification gives one, DSCP and ECN codepoint. -/
structure Envelope where
  sub : Nat
  tag : Option (Nat × Nat)
  mac : Nat
  dst : Bytes
  ttl : Option Nat
  dscp : Nat
  ecn : Nat
  deriving DecidableEq, Repr

/-- What leaves the device, in the order it leaves. -/
inductive Out where
  /-- a packet as it leaves a sub-port, in its envelope (R324, R325, R327, R328) -/
  | sent (e : Envelope) (o : Out)
  /-- a sealed datagram of a session, as built before sealing (R348, R350) -/
  | datagram (session : Nat) (d : TxDatagram)
  /-- a message of session 0 to a partner (R349) -/
  | plain (sub : Nat) (dst : Endpoint) (type : Nat) (payload : Bytes)
  /-- a hello to the IPv6 or the IPv4 discovery group, or an LLDP frame of a sub-port (R332, R333) -/
  | hello (sub : Nat) (v6 : Bool) (payload : Bytes)
  | lldp (sub : Nat) (chassis port : Bytes) (system : Nat)
  /-- an ND or ARP packet (R327), an echo answer (R328), PFC XOFF or XON (R326) -/
  | neighbor (sub : Nat) (v6 : Bool) (answer : Bool) (target : Bytes) (mac : Nat)
  | echo (sub : Nat) (dst : Endpoint) (v6 : Bool) (data : Bytes)
  | pfc (sub : Nat) (xoff : Bool)
  /-- the management bus: bytes read, or a NACK (R464, R477) -/
  | mgmt (data : Bytes)
  | mgmtNack
  /-- TDO and the boundary-scan outputs (R466) -/
  | tdo (bits value : Nat)
  | boundary (value : Nat)
  | extest (value : Nat)
  /-- a new set point of VDD_CORE by AVSBus for a P-level (R429) -/
  | avs (level : Nat)
  deriving DecidableEq, Repr

/-- One sub-port (R322 to R333): link, receive buffer, PFC pause with the datagrams it holds back, LLDP partner, resolved
neighbours, the packets that wait for a neighbour (next hop, destination, packet), and the ticks of its last hello and LLDP frame. -/
structure SubPort where
  up : Bool := false
  rxBytes : Nat := 0
  xoffSent : Bool := false
  pauseQuanta : Nat := 0
  held : List Out := []
  helloAt : Nat := 0
  lldpAt : Nat := 0
  lldpChassis : Bytes := []
  lldpPort : Bytes := []
  neighbors : List (Bytes × Nat) := []
  awaiting : List (Bytes × Bytes × Out) := []
  deriving DecidableEq, Repr

/-- A peer table entry (R334, R335). `sentAt` is the tick of the last datagram sent to the partner on each sub-port,
`heardOn` the tick it was last heard on each of its own sub-ports, `macBase` the MAC of its sub-port 0 (R325) as its last
hello shows it, `since` the tick the state was entered, `host` the address its last hello came from, `otherPart` that the
certificate of its current session shows the other ordering number (R340). -/
structure PeerEntry where
  state : Nat := 0
  role : Nat := 0
  devIndex : Nat := 0
  session : Nat := 0
  mac : Nat := 0
  lastHeard : Nat := 0
  lostCount : Nat := 0
  rtt : Nat := 0
  since : Nat := 0
  host : Option Endpoint := none
  sentAt : List (Nat × Nat) := []
  heardOn : List (Nat × Nat) := []
  macBase : Option Nat := none
  otherPart : Bool := false
  twinState : Nat := 7
  deriving DecidableEq, Repr

/-- The outcome of a durable write or of a control message, as its reply carries it (R358). -/
structure Outcome where
  status : Nat := 0
  reason : Nat := 0
  detail : Nat := 0
  data : Bytes := []
  deriving DecidableEq, Repr

/-- A durable write on its way: the session and message it arrived in, its TYPE, WRITE_ID, object, payload (R343). -/
structure Write where
  session : Nat
  msgId : Nat
  type : Nat
  writeId : Nat
  kind : Nat
  obj : Nat
  payload : Bytes
  deriving DecidableEq, Repr

/-- A copy of one object version on its way between the twins (R342): its kind and id, the bytes in all, the bytes sent or
received so far, and the bytes: all of them at the sender, those received at the receiver. -/
structure Copying where
  kind : Nat
  obj : Nat
  total : Nat
  offset : Nat := 0
  bytes : Bytes
  deriving DecidableEq, Repr

/-- The state of the redundant pair (R340 to R347). `moved` lists the objects whose token was moved from its default
holder; `mirrored` are writes sent to the partner that wait for APPLIED, with this twin's outcome (session 0: nobody waits
for it); `waiting` wait for a token, `repeats` bear the
WRITE_ID of a write that has begun and not ended, `forwarded` for the partner that applies them first; `granting` are tokens asked of this
twin; `appliedOf` is the last mirror sequence applied of each object; `outcomes` are the remembered WRITE_IDs, newest first;
`syncTodo` the object versions still to copy, `syncSent` those copied, `copy` the one on its way, `doneSeq` the sequence of
the SYNC_DONE sent. -/
structure Twin where
  state : Nat := 7
  moved : List (Nat × Nat) := []
  mirrorOut : Nat := 1
  mirrorIn : Nat := 0
  mirrored : List (Nat × Write × Outcome) := []
  waiting : List Write := []
  forwarded : List Write := []
  repeats : List Write := []
  granting : List (Nat × Nat) := []
  appliedOf : List ((Nat × Nat) × Nat) := []
  outcomes : List (Nat × Outcome) := []
  syncTodo : List (Nat × Nat × Nat) := []
  syncSent : Nat := 0
  syncing : Bool := false
  copy : Option Copying := none
  doneSeq : Option Nat := none
  partnerDurable : Bool := false
  deriving DecidableEq, Repr

/-- A control message being handled or waiting its turn in the single order of R413 and R425. `type` is its message
type; `functions` the functions a STOP stopped; `at` the tick it arrived. -/
structure CtlOp where
  session : Nat
  msgId : Nat
  type : Nat
  payload : Bytes
  functions : Nat := 0
  arrived : Nat
  deriving DecidableEq, Repr

/-- The functions (R410): running and recovering masks, the message in progress and those waiting, and the masks that
each recovery in progress stopped (R450). -/
structure Functions where
  running : Nat := 0
  recovering : Nat := 0
  current : Option CtlOp := none
  waiting : List CtlOp := []
  recoveries : List Nat := []
  deriving DecidableEq, Repr

/-- The power manager (R423 to R433). `target` and `newLevel` are changes under way; `draining` are pools being gated,
with the tick their POWER arrived; `ungating` pools being powered; `inputMw` the averaged input power last checked, `rails`
READ_VOUT and READ_IOUT as last polled, `silent` the controllers that did not answer. -/
structure Power where
  state : Nat := 0
  pLevel : Nat := 4
  gate : Nat := 0
  cap : Nat := 0
  arraysClocked : Bool := false
  target : Option Nat := none
  newLevel : Option Nat := none
  draining : List (Nat × Nat) := []
  ungating : List Nat := []
  thermalHold : Bool := false
  hottest : Int := 0
  spreadArith : Nat := 0
  spreadMesh : Nat := 0
  inputMw : Nat := 0
  rails : List (Nat × Nat) := []
  silent : List Nat := []
  deriving DecidableEq, Repr

/-- An error log entry (R445), field by field. -/
structure LogEntry where
  ticks : Nat
  addr : Nat
  count : Nat
  seq : Nat
  req : Option Nat
  functions : Nat
  unitIndex : Nat
  cause : Nat
  unit : Nat
  escalated : Bool
  deferred : Bool
  cls : Nat
  detail : Nat
  deriving DecidableEq, Repr

/-- The error log (R446), newest first, at most 1,024 entries; the bad-line table by 64-byte line number (R447), lines of
freed blocks never allocated again, the tile-memory words found uncorrectable since reset and those still so (R449), and the
retries of flits that failed again, by tile and direction (R443). -/
structure ErrorState where
  entries : List LogEntry := []
  head : Nat := 0
  frozen : Bool := false
  badLines : List Nat := []
  tileWords : List (Nat × Nat) := []
  badWords : List (Nat × Nat) := []
  flitFails : List (Nat × Nat × Nat) := []
  deriving DecidableEq, Repr

/-- Telemetry (R477): the 64 words of the block as last refreshed, the trip counts by cause code and the error counts by
class; the scrub period, the line the scrub reads next, and the sensor taken out for calibration. -/
structure Telemetry where
  block : List Nat := []
  trips : List Nat := [0, 0, 0]
  errs : List Nat := [0, 0, 0, 0]
  scrubHours : Nat := 24
  scrubNext : Nat := 0
  sensorOut : Option Nat := none
  deriving DecidableEq, Repr

end Sys2Proof.Machine
end

