-- ==== Sys2Proof/Machine/CfgTypes.lean ====
section
/-! DEFINITION. The running copy of the configuration image (R404 to R409): every section's records. -/

namespace Sys2Proof.Machine

/-- A tokeniser of the TEXT section with its three images (R221, R405). -/
structure TokCfg where
  id : Nat
  vocab : Nat
  maxPiece : Nat
  invalid : Nat
  lMax : Nat
  truncate : Nat
  unkId : Nat
  unkScore : W32
  byteBase : Nat
  byteScore : W32
  bos : Nat
  eos : Nat
  walkTiles : Nat
  charMap : Bytes
  trie : Bytes
  pieces : Bytes
  deriving DecidableEq, Repr

/-- A corpus of the CATALOGUE section (R131). -/
structure CorpusCfg where
  id : Nat
  distance : Nat
  code : Nat
  dims : Nat
  slackPct : Nat
  sideCap : Nat
  mergeAt : Nat
  rescore : Nat
  layoutCols : Nat
  deriving DecidableEq, Repr

/-- An embedding table of the CATALOGUE section (R192). -/
structure TableCfg where
  id : Nat
  format : Nat
  width : Nat
  rows : Nat
  hotCap : Nat
  hotTileRows : Nat
  hotRefreshMs : Nat
  deriving DecidableEq, Repr

/-- A passage store of the CATALOGUE section (R247). -/
structure StoreCfg where
  id : Nat
  tokeniser : Nat
  maxPassages : Nat
  maxTokens : Nat
  pairLen : Nat
  queryMax : Nat
  pairCls : Nat
  pairSep : Nat
  pairEnd : Nat
  pairPad : Nat
  deriving DecidableEq, Repr

/-- The running copy (R404). -/
structure RunCfg where
  port : PortCfg := {}
  pools : List PoolCfg := []
  mode : ModeCfg := {}
  power : PowerCfg := {}
  security : SecurityCfg := {}
  peers : PeersCfg := {}
  twin : TwinCfg := {}
  toks : List TokCfg := []
  corpora : List CorpusCfg := []
  tables : List TableCfg := []
  stores : List StoreCfg := []
  limits : LimitsCfg := {}
  firmware : Bytes := []
  deriving DecidableEq, Repr

end Sys2Proof.Machine
end

