-- ==== Sys2Proof/Config.lean ====
section
/-! DEFINITION. What an implementation fixes and the manual leaves open: the cryptographic primitives of the published
standards it names, the device's own identity, encodings the manual does not give, and the free values. None has a body,
so every statement holds whatever they are. -/

namespace Sys2Proof.Config

-- The published cryptographic primitives (R350, R374 to R392)

/-- SHA-384 of a byte string, 48 bytes (R376, R378, R379). -/
opaque sha384 : Bytes → Bytes
/-- HKDF-Extract over SHA-384: salt, input keying material (R384, RFC 5869). -/
opaque hkdfExtract : Bytes → Bytes → Bytes
/-- HKDF-Expand over SHA-384: key, information, length (R384). -/
opaque hkdfExpand : Bytes → Bytes → Nat → Bytes
/-- AES-256-GCM sealing: key, 96-bit nonce, additional data, plaintext; ciphertext then the 16-byte tag (R350). -/
opaque gcmSeal : Bytes → Bytes → Bytes → Bytes → Bytes
/-- AES-256-GCM opening: key, nonce, additional data, ciphertext with its tag; none when the tag does not verify (R350). -/
opaque gcmOpen : Bytes → Bytes → Bytes → Bytes → Option Bytes
/-- The ML-KEM-1024 encapsulation key of an ephemeral secret (R383). -/
opaque kemPublic : Bytes → Bytes
/-- ML-KEM-1024 encapsulation: key, randomness; ciphertext and shared secret. -/
opaque kemEncaps : Bytes → Bytes → Bytes × Bytes
/-- ML-KEM-1024 decapsulation: secret, ciphertext. -/
opaque kemDecaps : Bytes → Bytes → Bytes
/-- The P-384 point of a secret (R383). -/
opaque ecPublic : Bytes → Bytes
/-- P-384 ECDH: secret, the other side's point; the x-coordinate (R384). -/
opaque ecdh : Bytes → Bytes → Bytes
/-- A hybrid signature verifies under a hybrid key over a digest (R376). -/
opaque hybridVerify : Bytes → Bytes → Bytes → Bool
/-- A hybrid signature by a private key (named by its public encoding) over a digest. -/
opaque hybridSign : Bytes → Bytes → Bytes
/-- Both X.509 chains of a device validate to the Rosath roots (R377): its DeviceID public key, whether its ordering
number is MN-C16A, and its Alias public key. -/
opaque chainVerify : Bytes → Option (Bytes × Bool × Bytes)
/-- A hybrid signature verifies under the DeviceID key that has a given identity digest, over a digest (R332, R368: the
hello carries the digest and not the key). -/
opaque digestVerify : Bytes → Bytes → Bytes → Bool
/-- The DeviceID certificate of a DeviceID public key carries the ordering number MN-C16A (R377, R340). -/
opaque keyIsA : Bytes → Bool
/-- The Rosath signature of a firmware section verifies: its FW_SVN (R388, R389). -/
opaque firmwareSvn : Bytes → Option Nat
/-- A draw of the entropy source and its CTR_DRBG: draw number, bytes (R374). -/
opaque entropy : Nat → Nat → Bytes

-- The device's own identity (R375 to R378), held in the package

/-- The DeviceID public key encoding, 2,689 bytes (R376). -/
opaque deviceKey : Bytes
/-- The Alias public key encoding of a boot, from the measurements M1 and M2 (R375). -/
opaque aliasKey : Bytes → Bytes → Bytes
/-- The device's two DER chains with the Alias certificate of a boot (R377, R383). -/
opaque ownChains : Bytes → Bytes → Bytes
/-- Digest of the boot ROM (M0, R378). -/
opaque romDigest : Bytes
/-- The private halves of the wrap key: from the enrolled owner hash, the firmware SVN and whether DEBUG_FULL is set (R375). -/
opaque wrapSecret : Bytes → Nat → Bool → Bytes × Bytes
/-- The base MAC address that manufacture put into the fuses (R325). -/
opaque macBase : Nat
/-- The LLDP chassis identity of the device (R333: its form is not given). -/
opaque lldpChassis : Bytes

-- Draws whose form the manual leaves open

/-- The pseudo-random placement of a corpus's rows (R133): from the corpus's draw and an index, where that index is inserted
among the smaller ones; every permutation of the positions is one such placement. -/
opaque permPick : Nat → Nat → Nat

-- Encodings that the manual leaves to the toolchain

/-- The destination that LEAT_SEND's IMM0 names (R88, R103; its encoding is not given): pool-relative tiles, none for the Hopper's
intake, and the byte offset in each. -/
opaque leatDest : Nat → List Nat × Nat
/-- The Sluice queue that LEAT_SEND's IMM1 names, if any. -/
opaque leatQueue : Nat → Option Nat
/-- The TYPE of the durable write that a MIRROR carries, from its object kind and body (R370 gives no field for it). -/
opaque mirrorType : Nat → Bytes → Nat

/-- The corpus that a MERGE_START of an origin device and collective number is about (R369 gives no field for it). -/
opaque mergeCorpus : Nat → Nat → Nat
/-- The k of a cross-device merge, for a collective number and the K of its query record: R184 gives its range and not its source (log 146). -/
opaque mergeK : Nat → Nat → Nat

/-- Whether the device cannot place some passage ids in a directory (R248 says that a FINAL write may meet that, and not when). -/
opaque noDirectory : List Nat → Bool

/-- The function that an EW_UNARY's IMM0 names among those of R54, as `VectorFn.unary` numbers them (R103 gives no codes). -/
opaque unaryFn : Nat → Nat
/-- The function that an EW_BINARY's IMM0 names among those of R54, as `VectorFn.binary` numbers them. -/
opaque binaryFn : Nat → Nat
/-- The reduction that a REDUCE's IMM0 names: 0 sum, 1 mean, 2 norm (R54; R103 gives no codes). -/
opaque reduceFn : Nat → Nat
/-- Whether a NORM's IMM0 names the layer norm (else RMS). -/
opaque normLayer : Nat → Bool
/-- What a POOL2D's IMM0 says: average (else maximum), window height and width, strides along y and x. -/
opaque poolForm : Nat → Bool × Nat × Nat × Nat × Nat

-- Free values (R5, R44 and every result the manual leaves open): the free value of draw `n`

/-- A free 32-bit pattern. -/
opaque freeW32 : Nat → W32
/-- A free number below a bound, by draw number: 0 when the bound is 0. -/
opaque freeNat : Nat → Nat
/-- A free byte. -/
opaque freeByte : Nat → Byte

/-- A free choice among `k` possibilities (k > 0). -/
def freeBelow (draw k : Nat) : Nat := freeNat draw % k

end Sys2Proof.Config
end

