-- ==== Sys2Proof/Machine/Bits.lean ====
section
/-! DEFINITION. Bit fields, little-endian byte strings and 64-bit saturating counts: the shapes in which every
structure of the manual is laid out (R8, R9, R11). -/

namespace Sys2Proof.Machine

/-- Field `[hi:lo]` of a structure read as one number (R8). -/
def fld (n hi lo : Nat) : Nat := n / 2 ^ lo % 2 ^ (hi + 1 - lo)

/-- Bit `[i]` of a structure read as one number (R8). -/
def bitAt (n i : Nat) : Bool := n / 2 ^ i % 2 == 1

/-- A byte string read as one little-endian number (R9). -/
def leNat : Bytes → Nat
  | [] => 0
  | b :: r => b.toNat + 256 * leNat r

/-- The `k` little-endian bytes of a number (R9). -/
def leBytes : Nat → Nat → Bytes
  | 0, _ => []
  | k + 1, n => BitVec.ofNat 8 n :: leBytes k (n / 256)

/-- Bytes `off` to `off + n - 1` of a string (fewer when it ends before). -/
def slice (bs : Bytes) (off n : Nat) : Bytes := (bs.drop off).take n

/-- The little-endian number held in `n` bytes at `off`. -/
def uAt (bs : Bytes) (off n : Nat) : Nat := leNat (slice bs off n)

/-- A structure put together from (lowest bit, value) pairs; the pairs' values fit their fields. -/
def packed (fs : List (Nat × Nat)) : Nat := fs.foldr (fun f n => f.2 * 2 ^ f.1 + n) 0

/-- A structure of `k` bytes from its (lowest bit, value) pairs (R8, R9). -/
def record (k : Nat) (fs : List (Nat × Nat)) : Bytes := leBytes k (packed fs)

/-- The value of a `w`-bit two's complement field. -/
def signedOf (w n : Nat) : Int := if n % 2 ^ w < 2 ^ (w - 1) then ((n % 2 ^ w : Nat) : Int) else ((n % 2 ^ w : Nat) : Int) - (2 ^ w : Nat)

/-- The `w`-bit two's complement field of a value. -/
def unsignedOf (w : Nat) (i : Int) : Nat := (i % (2 ^ w : Nat)).toNat

/-- `⌈a ÷ b⌉`. -/
def ceilDiv (a b : Nat) : Nat := (a + b - 1) / b

/-- The next multiple of `k` at or above `n`. -/
def alignUp (n k : Nat) : Nat := ceilDiv n k * k

/-- The largest value of a 64-bit counter. -/
def count64 : Nat := 2 ^ 64 - 1

/-- A 64-bit saturating counter after `k` more events (R11). -/
def bump (n k : Nat) : Nat := min (n + k) count64

/-- A `w`-bit saturating field. -/
def satTo (w n : Nat) : Nat := min n (2 ^ w - 1)

/-- 0 or 1 for a one-bit field. -/
def b01 (b : Bool) : Nat := if b then 1 else 0

/-- All bytes are zero: a reserved field or padding holds what R10 asks. -/
def allZero (bs : Bytes) : Bool := bs.all (· == 0)

/-- `n` zero bytes. -/
def zeros (n : Nat) : Bytes := List.replicate n 0

/-- A string brought to exactly `n` bytes, truncated or padded with zeros. -/
def fit (n : Nat) (bs : Bytes) : Bytes := slice (bs ++ zeros n) 0 n

/-- Padding to a multiple of `k` bytes. -/
def padTo (k : Nat) (bs : Bytes) : Bytes := bs ++ zeros (alignUp bs.length k - bs.length)

/-- The 32-bit words of a string, lowest address first. -/
def words32 (bs : Bytes) : List Nat := (List.range (bs.length / 4)).map fun i => uAt bs (4 * i) 4

/-- The 64-bit words of a string, lowest address first. -/
def words64 (bs : Bytes) : List Nat := (List.range (bs.length / 8)).map fun i => uAt bs (8 * i) 8

/-- A string cut into pieces of `k` bytes; the last may be shorter. -/
def chunks (k : Nat) (bs : Bytes) : List Bytes := (List.range (ceilDiv bs.length k)).map fun i => slice bs (k * i) k

/-- The index of the most significant set bit; 0 for 0. -/
def msb (n : Nat) : Nat := Nat.log2 n

/-- `⌈log₂ d⌉`, the levels of the tree of R184. -/
def clog2 (d : Nat) : Nat := if d ≤ 1 then 0 else Nat.log2 (d - 1) + 1

/-- An association list read at a key. -/
def lookupD {α : Type} (k : Nat) (l : List (Nat × α)) (d : α) : α := ((l.find? fun p => p.1 == k).map Prod.snd).getD d

/-- An association list with the value at a key put in place, new keys at the end. -/
def insertKey {α : Type} (k : Nat) (v : α) : List (Nat × α) → List (Nat × α)
  | [] => [(k, v)]
  | p :: r => if p.1 == k then (k, v) :: r else p :: insertKey k v r

/-- A list with element `i` replaced by what `f` makes of it. -/
def modifyAt {α : Type} (i : Nat) (f : α → α) (l : List α) : List α := l.modify i f

/-- A list with the first element that satisfies `p` replaced by what `f` makes of it. -/
def modifyFirst {α : Type} (p : α → Bool) (f : α → α) : List α → List α
  | [] => []
  | x :: r => if p x then f x :: r else x :: modifyFirst p f r

/-- Element insertion into a list ordered by `le`, after its equals. -/
def insertBy {α : Type} (le : α → α → Bool) (x : α) : List α → List α
  | [] => [x]
  | y :: r => if le y x then y :: insertBy le x r else x :: y :: r

/-- A stable sort by `le` (by insertion: structural recursion). -/
def sortBy {α : Type} (le : α → α → Bool) (l : List α) : List α := l.foldl (fun acc x => insertBy le x acc) []

/-- The list without its `i`-th element. -/
def dropAt {α : Type} (i : Nat) (l : List α) : List α := l.eraseIdx i

/-- A list has no element twice. -/
def distinct {α : Type} [DecidableEq α] : List α → Bool
  | [] => true
  | x :: r => !(r.contains x) && distinct r

/-- CRC-32C of a byte string (R307): reflected polynomial 0x82F6_3B78, start and final value all ones. -/
def crc32c (bs : Bytes) : Nat :=
  let step := fun (c : Nat) (b : Byte) =>
    (List.range 8).foldl (fun c _ => if c % 2 == 1 then (c / 2) ^^^ 0x82F63B78 else c / 2) (c ^^^ b.toNat)
  (bs.foldl step 0xFFFFFFFF) ^^^ 0xFFFFFFFF

end Sys2Proof.Machine
end

