-- ==== Sys2Proof/Machine/Float.lean ====
section
/-! DEFINITION. Number formats and exact arithmetic (R38, R41 to R50): every format's value as an exact dyadic
number, rounding once to nearest with ties to even, and the special values. -/

namespace Sys2Proof.Machine

/-- A floating value: NaN, an infinity, or the exact number `m × 2^e`; `neg0` keeps the sign of a zero. -/
inductive FVal where
  | nan
  | inf (neg : Bool)
  | fin (neg0 : Bool) (m : Int) (e : Int)
  deriving DecidableEq, Repr

/-- A floating format (R38): width, precision with the hidden bit, exponent of the subnormal unit, largest finite
magnitude code, and whether the next code up is an infinity. `nanCode` is the NaN the device writes (R45, R47). -/
structure FFmt where
  width : Nat
  prec : Nat
  eminq : Int
  maxCode : Nat
  hasInf : Bool
  nanCode : Option Nat
  deriving DecidableEq, Repr

def fp32 : FFmt := ⟨32, 24, -149, 0x7F7FFFFF, true, some 0x7FC00000⟩
def bf16 : FFmt := ⟨16, 8, -133, 0x7F7F, true, some 0x7FC0⟩
def fp16 : FFmt := ⟨16, 11, -24, 0x7BFF, true, some 0x7E00⟩
def e4m3 : FFmt := ⟨8, 4, -9, 0x7E, false, some 0x7F⟩
def e5m2 : FFmt := ⟨8, 3, -16, 0x7B, true, some 0x7E⟩
def e2m1 : FFmt := ⟨4, 2, -1, 0x7, false, none⟩
def e2m3 : FFmt := ⟨6, 4, -3, 0x1F, false, none⟩
def e3m2 : FFmt := ⟨6, 3, -4, 0x1F, false, none⟩

/-- The value of a code of a format. -/
def fdecode (f : FFmt) (code : Nat) : FVal :=
  let c := code % 2 ^ f.width
  let neg := bitAt c (f.width - 1)
  let mag := c % 2 ^ (f.width - 1)
  if mag > f.maxCode then
    if f.hasInf && mag == f.maxCode + 1 then .inf neg else .nan
  else
    let ex := mag / 2 ^ (f.prec - 1)
    let fr := mag % 2 ^ (f.prec - 1)
    let m : Nat := if ex == 0 then fr else fr + 2 ^ (f.prec - 1)
    let e : Int := if ex == 0 then f.eminq else f.eminq + (ex : Int) - 1
    .fin neg (if neg then -(m : Int) else m) e

/-- The magnitude `n ÷ d × 2^e` rounded once to nearest, ties to even, to precision `p` with unit exponent at least
`eminq`: its code in a format of unbounded exponent range. -/
def roundCode (p : Nat) (eminq : Int) (n d : Nat) (e : Int) : Nat :=
  if n == 0 then 0 else
    -- the exponent k with 2^k ≤ n ÷ d < 2^(k+1)
    let k0 : Int := (Nat.log2 n : Int) - (Nat.log2 d : Int)
    let ge := fun (k : Int) => if k ≥ 0 then decide (n ≥ d * 2 ^ k.toNat) else decide (n * 2 ^ (-k).toNat ≥ d)
    let k := if ge k0 then k0 else k0 - 1
    let q : Int := max (k + e - (p - 1 : Nat)) eminq
    -- n ÷ d × 2^(e - q)
    let s := e - q
    let num := if s ≥ 0 then n * 2 ^ s.toNat else n
    let den := if s ≥ 0 then d else d * 2 ^ (-s).toNat
    let m := num / den
    let r := num % den
    let m' := if 2 * r > den || (2 * r == den && m % 2 == 1) then m + 1 else m
    (q - eminq).toNat * 2 ^ (p - 1) + m'

/-- The code of a format with a sign, for a rounded magnitude code within its range, or beyond it as `ovf` says. -/
def fsigned (f : FFmt) (neg : Bool) (code ovf : Nat) : Nat :=
  (if code > f.maxCode then ovf else code) + (if neg then 2 ^ (f.width - 1) else 0)

/-- `n ÷ d × 2^e` (negative when `neg`) as FP32, rounded once; overflow gives infinity (R48) and a result that
rounds to zero is +0 (R50). -/
def toF32 (neg : Bool) (n d : Nat) (e : Int) : W32 :=
  let c := roundCode fp32.prec fp32.eminq n d e
  if c == 0 then 0 else BitVec.ofNat 32 (fsigned fp32 neg c 0x7F800000)

/-- A dyadic number as FP32, rounded once. -/
def f32OfDyadic (m : Int) (e : Int) : W32 := toF32 (m < 0) m.natAbs 1 e

/-- The NaN that every unit writes in FP32 (R47). -/
def f32NaN : W32 := 0x7FC00000#32
def f32Inf (neg : Bool) : W32 := if neg then 0xFF800000#32 else 0x7F800000#32

def f32Val (x : W32) : FVal := fdecode fp32 x.toNat
def f32IsNaN (x : W32) : Bool := f32Val x == .nan
def f32IsInf (x : W32) : Bool := x == 0x7F800000#32 || x == 0xFF800000#32
def f32Finite (x : W32) : Bool := !(f32IsNaN x) && !(f32IsInf x)
def f32IsZero (x : W32) : Bool := x &&& 0x7FFFFFFF#32 == 0
def f32Neg (x : W32) : W32 := x ^^^ 0x80000000#32
def f32Abs (x : W32) : W32 := x &&& 0x7FFFFFFF#32

/-- An integer as FP32, rounded once (R43). -/
def f32OfInt (i : Int) : W32 := f32OfDyadic i 0

/-- The exact sum of two values under the rules of R47 to R49; a zero sum is +0. -/
def vadd : FVal → FVal → FVal
  | .nan, _ => .nan
  | _, .nan => .nan
  | .inf a, .inf b => if a == b then .inf a else .nan
  | .inf a, _ => .inf a
  | _, .inf b => .inf b
  | .fin _ m1 e1, .fin _ m2 e2 =>
    let e := min e1 e2
    .fin false (m1 * 2 ^ (e1 - e).toNat + m2 * 2 ^ (e2 - e).toNat) e

/-- Negation of a value. -/
def vneg : FVal → FVal
  | .nan => .nan
  | .inf a => .inf (!a)
  | .fin z m e => .fin (!z) (-m) e

def FVal.isNeg : FVal → Bool
  | .nan => false
  | .inf a => a
  | .fin z m _ => if m == 0 then z else decide (m < 0)

/-- The exact product of two values; zero times infinity is NaN (R47). -/
def vmul (a b : FVal) : FVal :=
  let neg := a.isNeg != b.isNeg
  match a, b with
  | .nan, _ => .nan
  | _, .nan => .nan
  | .inf _, .fin _ m _ => if m == 0 then .nan else .inf neg
  | .fin _ m _, .inf _ => if m == 0 then .nan else .inf neg
  | .inf _, .inf _ => .inf neg
  | .fin _ m1 e1, .fin _ m2 e2 => .fin neg (m1 * m2) (e1 + e2)

/-- A value rounded once to FP32. `z` says whether an exact zero keeps its sign (a product) or is +0 (a sum, R49). -/
def vround (z : Bool) : FVal → W32
  | .nan => f32NaN
  | .inf a => f32Inf a
  | .fin s m e => if m == 0 then (if z && s then 0x80000000#32 else 0) else f32OfDyadic m e

def f32Add (a b : W32) : W32 := vround false (vadd (f32Val a) (f32Val b))
def f32Sub (a b : W32) : W32 := vround false (vadd (f32Val a) (vneg (f32Val b)))
def f32Mul (a b : W32) : W32 := vround true (vmul (f32Val a) (f32Val b))

/-- Fused multiply-add, rounded once (R53). -/
def f32Fma (a b c : W32) : W32 := vround false (vadd (vmul (f32Val a) (f32Val b)) (f32Val c))

/-- The order of two finite or infinite values; NaN compares with nothing. -/
def vlt : FVal → FVal → Bool
  | .nan, _ => false
  | _, .nan => false
  | .inf a, .inf b => a && !b
  | .inf a, _ => a
  | _, .inf b => !b
  | .fin _ m1 e1, .fin _ m2 e2 =>
    let e := min e1 e2
    decide (m1 * 2 ^ (e1 - e).toNat < m2 * 2 ^ (e2 - e).toNat)

def f32Lt (a b : W32) : Bool := vlt (f32Val a) (f32Val b)
def f32Le (a b : W32) : Bool := !(f32IsNaN a) && !(f32IsNaN b) && !(f32Lt b a)

/-- Minimum and maximum: exact, NaN if either operand is NaN (R54). -/
def f32Min (a b : W32) : W32 := if f32IsNaN a || f32IsNaN b then f32NaN else if f32Lt b a then b else a
def f32Max (a b : W32) : W32 := if f32IsNaN a || f32IsNaN b then f32NaN else if f32Lt a b then b else a

/-- The correctly rounded quotient of two FP32 values, and its special values by IEEE 754. -/
def f32DivExact (a b : W32) : W32 :=
  let va := f32Val a
  let vb := f32Val b
  let neg := va.isNeg != vb.isNeg
  match va, vb with
  | .nan, _ => f32NaN
  | _, .nan => f32NaN
  | .inf _, .inf _ => f32NaN
  | .inf _, _ => f32Inf neg
  | .fin _ _ _, .inf _ => if neg then 0x80000000#32 else 0
  | .fin _ m1 e1, .fin _ m2 e2 =>
    if m2 == 0 then (if m1 == 0 then f32NaN else f32Inf neg)
    else if m1 == 0 then (if neg then 0x80000000#32 else 0)
    else toF32 neg m1.natAbs m2.natAbs (e1 - e2)

/-- The correctly rounded square root (R54); a negative operand gives NaN, by IEEE 754. -/
def f32Sqrt (a : W32) : W32 :=
  match f32Val a with
  | .nan => f32NaN
  | .inf n => if n then f32NaN else f32Inf false
  | .fin _ m e =>
    if m == 0 then a else if m < 0 then f32NaN else
      -- scale to an even exponent with 64 spare bits; the last bit is sticky
      let e' := if e % 2 == 0 then e - 64 else e - 65
      let n := m.natAbs * 2 ^ (e - e').toNat
      let r := Nat.sqrt n
      let sticky := if r * r == n then 0 else 1
      toF32 false (2 * r + sticky) 1 (e' / 2 - 1)

/-- Conversion from FP32 to a narrower format (R45): the code, and whether a saturation is reported. -/
def f32To (f : FFmt) (x : W32) : Nat × Bool :=
  match f32Val x with
  | .nan => (f.nanCode.getD 0, false)
  | .inf n =>
    if f.width == 16 then (fsigned f n (f.maxCode + 1) (f.maxCode + 1), false) else (fsigned f n f.maxCode f.maxCode, true)
  | .fin s m e =>
    let neg := if m == 0 then s else decide (m < 0)
    let c := roundCode f.prec f.eminq m.natAbs 1 e
    if f.width == 16 then (fsigned f neg c (f.maxCode + 1), false) else (fsigned f neg c f.maxCode, decide (c > f.maxCode))

/-- A dyadic number rounded to the nearest integer, ties to even. -/
def roundInt (m : Int) (e : Int) : Int :=
  if e ≥ 0 then m * 2 ^ e.toNat else
    let d : Int := 2 ^ (-e).toNat
    let q := m / d
    let r := m % d
    if 2 * r > d || (2 * r == d && q % 2 != 0) then q + 1 else q

/-- The quotient of two integers rounded to the nearest integer, ties to even (`d > 0`). -/
def roundQuot (n : Int) (d : Nat) : Int :=
  let q := n / (d : Int)
  let r := n % (d : Int)
  if 2 * r > d || (2 * r == (d : Int) && q % 2 != 0) then q + 1 else q

/-- Saturation to a `w`-bit two's complement range, and whether it changed the value (R41, R45). -/
def satInt (w : Nat) (i : Int) : Int × Bool :=
  if i > 2 ^ (w - 1) - 1 then (2 ^ (w - 1) - 1, true) else if i < -(2 ^ (w - 1)) then (-(2 ^ (w - 1)), true) else (i, false)

/-- Conversion from FP32 to INT8 or INT4 (R45): NaN becomes 0 and is counted. -/
def f32ToInt (w : Nat) (x : W32) : Int × Bool :=
  match f32Val x with
  | .nan => (0, true)
  | .inf n => (if n then -(2 ^ (w - 1)) else 2 ^ (w - 1) - 1, true)
  | .fin _ m e => satInt w (roundInt m e)

/-- A code of a narrower format as FP32: exact (R45). -/
def toF32From (f : FFmt) (code : Nat) : W32 := vround true (fdecode f code)

/-- An E8M0 scale as its exponent; 0xFF is NaN (R38). -/
def e8m0Exp (code : Nat) : Option Int := if code == 0xFF then none else some ((code : Int) - 127)

/-- BF16 and FP16 widened to FP32 (R45). -/
def bf16ToF32 (c : Nat) : W32 := BitVec.ofNat 32 (c % 2 ^ 16 * 2 ^ 16)

/-- The sum of block products of R42: exact products, aligned at `2^(e-40)` below the largest, cut toward zero, added
exactly, scaled by the two block scales and rounded once to FP32. -/
def blockSum (ps : List FVal) (scale : Option Int) : W32 :=
  match scale with
  | none => f32NaN
  | some sc =>
    if ps.any (· == .nan) then f32NaN
    else
      let infs := ps.filterMap fun | .inf n => some n | _ => none
      match infs with
      | n :: r => if r.all (· == n) then f32Inf n else f32NaN
      | [] =>
        let mags := ps.filterMap fun
          | .fin _ m e => if m == 0 then none else some ((Nat.log2 m.natAbs : Int) + e)
          | _ => none
        match mags with
        | [] => 0
        | x :: r =>
          let top := r.foldl max x
          let lsb := top - 40
          let cut := fun (v : FVal) => match v with
            | .fin _ m e => if e ≥ lsb then m * 2 ^ (e - lsb).toNat else Int.tdiv m (2 ^ (lsb - e).toNat)
            | _ => 0
          f32OfDyadic ((ps.map cut).foldl (· + ·) 0) (lsb + sc)

end Sys2Proof.Machine
end

