-- ==== Sys2Proof/Machine/Image.lean ====
section
/-! DEFINITION. The configuration image: header, directory, records and sections, and every check that its chapters make
on them (R16 to R19, R63, R134, R192, R214, R221, R226 to R228, R235, R247, R278, R329, R331, R340, R389, R403 to R408,
R439 to R441). -/

namespace Sys2Proof.Machine

/-- The field encodings of R405. -/
inductive RecField where
  | u32
  | u64
  | raw (n : Nat)
  | blob
  deriving DecidableEq, Repr

/-- A field's value: a number or bytes. -/
inductive RecVal where
  | num (n : Nat)
  | str (b : Bytes)
  deriving DecidableEq, Repr

def RecVal.n : RecVal → Nat
  | .num n => n
  | .str _ => 0

def RecVal.b : RecVal → Bytes
  | .num _ => []
  | .str b => b

/-- The fields of a record read in order from its bytes; none when the record ends before its last field or its padding
holds a non-zero byte (R405). -/
def readFields : List RecField → Bytes → Option (List RecVal)
  | [], bs => if allZero bs then some [] else none
  | f :: r, bs =>
    match f with
    | .u32 => if bs.length < 4 then none else (readFields r (bs.drop 4)).map (RecVal.num (uAt bs 0 4) :: ·)
    | .u64 => if bs.length < 8 then none else (readFields r (bs.drop 8)).map (RecVal.num (uAt bs 0 8) :: ·)
    | .raw n => if bs.length < n then none else (readFields r (bs.drop n)).map (RecVal.str (bs.take n) :: ·)
    | .blob =>
      let len := uAt bs 0 4
      let tot := alignUp (4 + len) 8
      if bs.length < 4 || bs.length < tot || !(allZero (slice bs (4 + len) (tot - 4 - len))) then none
      else (readFields r (bs.drop tot)).map (RecVal.str (slice bs 4 len) :: ·)

/-- A record: KIND, INDEX and its bytes after the header. -/
structure Rec where
  kind : Nat
  index : Nat
  body : Bytes
  deriving DecidableEq, Repr

/-- The records of a section; none on a layout fault of a record header (R405). -/
def readRecords : Nat → Bytes → Option (List Rec)
  | _, [] => some []
  | 0, _ => none
  | fuel + 1, bs =>
    let len := uAt bs 4 4
    if bs.length < 8 || len < 8 || len % 8 != 0 || bs.length < len then none
    else (readRecords fuel (bs.drop len)).map ({ kind := uAt bs 0 2, index := uAt bs 2 2, body := slice bs 8 (len - 8) } :: ·)

/-- Why a section is rejected (R415): its layout or one field alone, or a relation. -/
inductive Fail where
  | malformed
  | check
  deriving DecidableEq, Repr

/-- The first of two checks that fails; a layout fault stands before a relation (R358). -/
def guard' (ok : Bool) (f : Fail) : Except Fail Unit := if ok then .ok () else .error f

def inRange (lo hi n : Nat) : Bool := decide (lo ≤ n) && decide (n ≤ hi)

/-- "none" of a parameter whose range includes it (R405). -/
def none32 : Nat := 0xFFFFFFFF

/-- All records of a section decoded by the field lists of its kinds; a kind the section does not define is a layout
fault, as is a record that does not decode. -/
def decodeSection (kinds : List (Nat × List RecField)) (bs : Bytes) : Except Fail (List (Nat × Nat × List RecVal)) :=
  match readRecords bs.length bs with
  | none => .error .malformed
  | some rs => rs.mapM fun r =>
    match kinds.find? (·.1 == r.kind) with
    | none => .error .malformed
    | some (_, fs) => match readFields fs r.body with
      | none => .error .malformed
      | some vs => .ok (r.kind, r.index, vs)

def nth (vs : List RecVal) (i : Nat) : Nat := (vs[i]?.map RecVal.n).getD 0
def nthB (vs : List RecVal) (i : Nat) : Bytes := (vs[i]?.map RecVal.b).getD []

/-- The one record of a kind, at index 0. -/
def theRec (k : Nat) (rs : List (Nat × Nat × List RecVal)) : Except Fail (List RecVal) :=
  match rs.filter (·.1 == k) with
  | [(_, 0, vs)] => .ok vs
  | _ => .error .malformed

/-- Records of a kind have distinct indices. -/
def distinctIdx (k : Nat) (rs : List (Nat × Nat × List RecVal)) : Bool :=
  distinct ((rs.filter (·.1 == k)).map (·.2.1))

/-- Columns of the part (R1). -/
def Part.cols : Part → Nat
  | .a => 64
  | .b => 56

/-- The package power limit in watts (R1). -/
def Part.powerLimit : Part → Nat
  | .a => 2400
  | .b => 2150

/-- The PORT section (R329, R405). -/
def parsePort (bs : Bytes) : Except Fail PortCfg := do
  let rs ← decodeSection [(1, List.replicate 9 .u32 ++ [.raw 16, .raw 4]),
    (2, [.raw 16, .u32, .raw 16, .raw 4, .raw 4, .raw 4])] bs
  let v ← theRec 1 rs
  let subs := [1, 2, 4].getD (nth v 0) 0
  let addrs := (rs.filter (·.1 == 2)).map fun r => (r.2.1,
    { v6 := nthB r.2.2 0, plen := nth r.2.2 1, gw6 := nthB r.2.2 2, v4 := nthB r.2.2 3, mask4 := nthB r.2.2 4,
      gw4 := nthB r.2.2 5 : AddrCfg })
  guard' (inRange 0 2 (nth v 0) && inRange 0 1 (nth v 1) && inRange 0 4094 (nth v 2) && inRange 0 7 (nth v 3)
    && inRange 0 1 (nth v 4) && inRange 0 63 (nth v 5) && inRange 1 65535 (nth v 6) && inRange 1024 8960 (nth v 7)
    && inRange 5 3600 (nth v 8)) .malformed
  guard' ((nthB v 9).take 1 == [0xFF] && decide (uAt (nthB v 9) 1 1 % 16 = 2) && decide (uAt (nthB v 10) 0 1 / 16 = 14)) .malformed
  guard' (distinctIdx 2 rs && addrs.all fun a => decide (a.1 < subs) && decide (a.2.plen ≤ 128)) .malformed
  return { mode := nth v 0, pmd := nth v 1, vlan := nth v 2, pcp := nth v 3, pfc := nth v 4, dscp := nth v 5,
           mwpPort := nth v 6, maxPayload := nth v 7, lldpS := nth v 8, groupV6 := nthB v 9, groupV4 := nthB v 10, addrs }

/-- Sub-ports of a port mode (R322). -/
def PortCfg.subs (p : PortCfg) : Nat := [1, 2, 4].getD p.mode 1

/-- A pool's columns overlap another's. -/
def PoolCfg.last (p : PoolCfg) : Nat := p.firstCol + p.cols

/-- The kind bits of R17. -/
def PoolCfg.has (p : PoolCfg) (k : Nat) : Bool := bitAt p.kinds k

/-- Addressable bytes of a tile of the pool (R63) below its hot area and KV staging (R214, R278). -/
def PoolCfg.limit (p : PoolCfg) : Nat := 393216 - p.cacheKib * 1024
def PoolCfg.footLimit (p : PoolCfg) : Nat := p.limit - p.hotKib * 1024 - p.kvKib * 1024
def PoolCfg.tiles (p : PoolCfg) : Nat := 32 * p.cols

/-- The POOLS section by itself (R16 to R19, R406): ranges, contiguity, weights, Wheel pools. -/
def parsePools (part : Part) (bs : Bytes) : Except Fail (List PoolCfg) := do
  let rs ← decodeSection [(1, List.replicate 10 .u32)] bs
  let ps := rs.map fun r => let v := r.2.2;
    { firstCol := nth v 0, cols := nth v 1, kinds := nth v 2, weight := nth v 3, cacheKib := nth v 4, hotKib := nth v 5,
      kvKib := nth v 6, classes := nth v 7 + nth v 8 * 2 ^ 32, corpus := nth v 9 : PoolCfg }
  let c := part.cols
  guard' (distinctIdx 1 rs && rs.all fun r => decide (r.2.1 < rs.length)) .malformed
  let ordered := sortBy (fun a b => decide (a.1 ≤ b.1)) ((rs.map (·.2.1)).zip ps)
  let qs := ordered.map (·.2)
  guard' (decide (ps.length ≤ 8) && qs.all fun p => inRange 0 (c - 1) p.firstCol && inRange 1 c p.cols
    && inRange 0 127 p.kinds && inRange 1 10000 p.weight && [0, 96, 192].contains p.cacheKib
    && [0, 32, 64, 96, 128].contains p.hotKib && [0, 32, 64, 128].contains p.kvKib
    && (inRange 0 15 p.corpus || p.corpus == none32)) .malformed
  guard' (qs.all (fun p => decide (p.last ≤ c))
    && (qs.zip (qs.drop 1)).all (fun pq => decide (pq.1.last ≤ pq.2.firstCol))
    && decide ((qs.map (·.weight)).sum ≤ 10000)
    && qs.all (fun p => if p.has 0 then p.kinds == 1 && p.corpus != none32 && decide (16 ≤ p.cols) && p.cacheKib == 0
        else p.corpus == none32)
    && distinct ((qs.filter (·.has 0)).map (·.corpus)) && decide ((qs.filter (·.has 0)).length ≤ 4)
    && qs.all (fun p => (p.has 2 || p.hotKib == 0) && (p.has 4 || p.has 5 || p.has 6 || p.kvKib == 0))
    && qs.all (fun p => decide (p.hotKib * 1024 + p.kvKib * 1024 ≤ p.limit))) .check
  return qs

/-- The values a mode fixes (R440): P-level (entry, slowest), cap, β in units of 0.01 %, highest ADMIT_LIMIT, rider cap,
boarding slice. -/
structure ModeVals where
  pLevel : Nat
  cap : Nat
  admitMax : Nat
  riderCap : Nat
  boardSlice : Nat
  deriving DecidableEq, Repr

def ModeCfg.vals (m : ModeCfg) (part : Part) : ModeVals :=
  match m.mode with
  | 0 => ⟨0, part.powerLimit, 1024, 384, 512⟩
  | 1 => ⟨0, part.powerLimit, 4096, 512, 64⟩
  | 2 => ⟨4, (match part with | .a => 1800 | .b => 1600), 2048, 512, 64⟩
  | _ => ⟨m.pLevel, m.capW, 4096, m.riderCap, m.boardSlice⟩

/-- β of the mode in force as FP32 (R440). -/
def ModeCfg.betaF (m : ModeCfg) : W32 :=
  match m.mode with
  | 0 => toF32 false 1 100 0
  | 1 => toF32 false 3 100 0
  | 2 => toF32 false 3 100 0
  | _ => m.beta

/-- The MODE section (R407, R440, R441); decimal limits are the FP32 nearest to them (log 155). -/
def parseMode (part : Part) (bs : Bytes) : Except Fail ModeCfg := do
  let rs ← decodeSection [(1, List.replicate 8 .u32), (2, [.u32, .u32])] bs
  let v ← theRec 1 rs
  let cls := (rs.filter (·.1 == 2)).map fun r => (r.2.1, (nth r.2.2 0, nth r.2.2 1))
  let m : ModeCfg := {
    mode := nth v 0, admitLimit := nth v 1, pLevel := nth v 2, capW := nth v 3,
    etaMin := BitVec.ofNat 32 (nth v 4), beta := BitVec.ofNat 32 (nth v 5), riderCap := nth v 6, boardSlice := nth v 7,
    classes := cls }
  guard' (inRange 0 3 m.mode && inRange 1 4096 m.admitLimit && distinctIdx 2 rs
    && cls.all fun c => decide (c.1 < 64) && inRange 1 1024 c.2.1 && decide (c.2.2 ≤ 4096)) .malformed
  let f := fun (n d : Nat) => toF32 false n d 0
  if m.mode == 3 then
    guard' (decide (m.pLevel ≤ 7) && inRange 600 part.powerLimit m.capW && inRange 8 512 m.riderCap
      && inRange 1 512 m.boardSlice && f32Le (f 1 100) m.beta && f32Le m.beta (f 5 100)
      && f32Lt 0 m.etaMin
      && f32Le m.etaMin (f32Sub (if m.riderCap ≤ 384 then f 91 100 else f 83 100) m.beta)) .check
  else
    guard' (m.pLevel == 0 && m.capW == 0 && m.etaMin == 0 && m.beta == 0 && m.riderCap == 0 && m.boardSlice == 0) .check
  guard' (decide (m.admitLimit ≤ (m.vals part).admitMax)) .check
  return m

/-- The POWER section (R439). -/
def parsePower (bs : Bytes) : Except Fail PowerCfg := do
  let rs ← decodeSection [(1, List.replicate 4 .u32)] bs
  let v ← theRec 1 rs
  guard' (inRange 0 2 (nth v 0) && inRange 0 255 (nth v 1) && inRange 0 2 (nth v 2) && inRange 0 2 (nth v 3)) .malformed
  return { initState := nth v 0, initGate := nth v 1, arithSpread := nth v 2, meshSpread := nth v 3 }

/-- A transfer record (R390, R405): new hash, slot index, target digest, signature and the current owner's key. -/
structure Transfer where
  newHash : Bytes
  slot : Nat
  target : Bytes
  sig : Bytes
  key : Bytes
  signedPart : Bytes
  deriving DecidableEq, Repr

/-- The SECURITY section (R388, R405). -/
def parseSecurity (bs : Bytes) : Except Fail (SecurityCfg × Option Transfer) := do
  let rs ← decodeSection [(1, [.blob, .u32, .u32]), (2, [.raw 48, .u32, .raw 48, .blob, .blob])] bs
  let v ← theRec 1 rs
  guard' ((nthB v 0).length == 2689) .malformed
  let trs := rs.filter (·.1 == 2)
  guard' (decide (trs.length ≤ 1) && trs.all (·.2.1 == 0)) .malformed
  let tr := trs.head?.map fun r => let w := r.2.2;
    { newHash := nthB w 0, slot := nth w 1, target := nthB w 2, sig := nthB w 3, key := nthB w 4,
      signedPart := nthB w 0 ++ leBytes 4 (nth w 1) ++ nthB w 2 : Transfer }
  return ({ ownerKey := nthB v 0, imageSvn := nth v 1, minEpoch := nth v 2 }, tr)

/-- The PEERS section (R331). -/
def parsePeers (bs : Bytes) : Except Fail PeersCfg := do
  let rs ← decodeSection [(1, List.replicate 5 .u32), (2, [.u32, .raw 48])] bs
  let v ← theRec 1 rs
  let ds := (rs.filter (·.1 == 2)).map fun r => { index := r.2.1, role := nth r.2.2 0, digest := nthB r.2.2 1 : PeerCfg }
  guard' (inRange 0 255 (nth v 0) && inRange 10 10000 (nth v 1) && inRange 10 100000 (nth v 2) && inRange 3 255 (nth v 3)
    && inRange 100 1000000 (nth v 4) && ds.all fun d => decide (d.index < 256) && decide (d.role ≤ 1)) .malformed
  guard' (distinct (ds.map (·.index)) && ds.any (·.index == nth v 0)) .check
  return { selfIndex := nth v 0, helloMs := nth v 1, hbUs := nth v 2, hbMiss := nth v 3, netDelayNs := nth v 4, devices := ds }

/-- The TWIN section (R340); an absent one is empty. -/
def parseTwin (bs : Bytes) : Except Fail TwinCfg := do
  if bs.isEmpty then return {} else
    let rs ← decodeSection [(1, List.replicate 5 .u32)] bs
    let v ← theRec 1 rs
    guard' (inRange 0 2 (nth v 0) && inRange 0 255 (nth v 1) && inRange 10 10000 (nth v 2) && inRange 3 255 (nth v 3)
      && inRange 1 50 (nth v 4)) .malformed
    return { role := nth v 0, partner := nth v 1, hbUs := nth v 2, miss := nth v 3, syncPct := nth v 4 }

/-- The partner of a TWIN section is listed with role TWIN (R340). -/
def twinOk (t : TwinCfg) (p : PeersCfg) : Bool :=
  t.role == 0 || p.devices.any fun d => d.index == t.partner && d.role == 1 && d.index != p.selfIndex

-- Character maps, tries and piece tables

/-- A well-formed UTF-8 encoding of one code point: its length; 0 when the bytes do not start with one (RFC 3629). -/
def utf8Len (bs : Bytes) : Nat :=
  match bs.map BitVec.toNat with
  | a :: r =>
    let cont := fun (b : Nat) => 0x80 ≤ b && b ≤ 0xBF
    if a < 0x80 then 1
    else match r with
      | b :: r2 =>
        if 0xC2 ≤ a && a ≤ 0xDF then (if cont b then 2 else 0)
        else
          let ok2 := if a == 0xE0 then 0xA0 ≤ b && b ≤ 0xBF else if a == 0xED then 0x80 ≤ b && b ≤ 0x9F
            else if a == 0xF0 then 0x90 ≤ b && b ≤ 0xBF else if a == 0xF4 then 0x80 ≤ b && b ≤ 0x8F else cont b
          match r2 with
          | c :: r3 =>
            if 0xE0 ≤ a && a ≤ 0xEF then (if ok2 && cont c then 3 else 0)
            else if 0xF0 ≤ a && a ≤ 0xF4 then
              match r3 with
              | d :: _ => if ok2 && cont c && cont d then 4 else 0
              | [] => 0
            else 0
          | [] => 0
      | [] => 0
  | [] => 0

/-- The UTF-8 encoding of a code point. -/
def utf8Enc (c : Nat) : Bytes :=
  let b := fun (n : Nat) => (BitVec.ofNat 8 n : Byte)
  if c < 0x80 then [b c]
  else if c < 0x800 then [b (0xC0 + c / 64), b (0x80 + c % 64)]
  else if c < 0x10000 then [b (0xE0 + c / 4096), b (0x80 + c / 64 % 64), b (0x80 + c % 64)]
  else [b (0xF0 + c / 262144), b (0x80 + c / 4096 % 64), b (0x80 + c / 64 % 64), b (0x80 + c % 64)]

/-- The code point that a well-formed encoding of `n` bytes holds. -/
def utf8Dec (bs : Bytes) : Nat :=
  let n := utf8Len bs
  let x := (bs.take n).map BitVec.toNat
  match n, x with
  | 1, [a] => a
  | 2, [a, b] => a % 32 * 64 + b % 64
  | 3, [a, b, c] => a % 16 * 4096 + b % 64 * 64 + c % 64
  | 4, [a, b, c, d] => a % 8 * 262144 + b % 64 * 4096 + c % 64 * 64 + d % 64
  | _, _ => 0

/-- A byte string is well-formed UTF-8. -/
def utf8Ok : Nat → Bytes → Bool
  | _, [] => true
  | 0, _ => false
  | k + 1, bs => let n := utf8Len bs; n != 0 && utf8Ok k (bs.drop n)

/-- The entry of a code point in a character map image (R226): none when its page is absent. -/
def charEntry (cm : Bytes) (c : Nat) : Nat :=
  let pageIdx := uAt cm 4 4
  let page := uAt cm (pageIdx + 4 * (c / 256)) 4
  if page == 0 then 0 else uAt cm (page + 4 * (c % 256)) 4

/-- The replacement bytes of a character map entry (R226): the code point itself, nothing, or bytes of the pool. -/
def charMapped (cm : Bytes) (c : Nat) : Bytes :=
  let e := charEntry cm c
  match fld e 31 30 with
  | 1 => []
  | 2 => slice cm (uAt cm 8 4 + fld e 23 0) (fld e 27 24)
  | _ => utf8Enc c

/-- The offsets of the pages that a character map holds, by page number. -/
def charPages (cm : Bytes) : List (Nat × Nat) :=
  ((List.range 4352).map fun p => (p, uAt cm (uAt cm 4 4 + 4 * p) 4)).filter (·.2 != 0)

/-- The entries of a character map's pages, by code point. -/
def charEntries (cm : Bytes) : List (Nat × Nat) :=
  (charPages cm).flatMap fun p => (List.range 256).map fun i => (256 * p.1 + i, uAt cm (p.2 + 4 * i) 4)

/-- The layout and each field alone of a character map satisfy R226 and R227: its parts lie within it, its reserved fields are 0 and it
holds no reserved code. -/
def charMapFields (cm : Bytes) : Bool :=
  let pool := uAt cm 8 4
  decide (32 ≤ cm.length) && uAt cm 0 4 == 0x50414D43 && allZero (slice cm 12 20) && decide (uAt cm 4 4 + 17408 ≤ cm.length)
  && decide (pool ≤ cm.length) && decide (cm.length - pool ≤ 16777216)
  && (charPages cm).all (fun p => decide (p.2 + 1024 ≤ cm.length))
  && (charEntries cm).all fun e => fld e.2 29 28 == 0 && fld e.2 31 30 != 3 && decide (fld e.2 27 24 ≤ 4)

/-- A character map's replacements satisfy R226 and R227: a LENGTH where there is one, bytes of the pool, well-formed and no longer than
the code point. -/
def charMapRel (cm : Bytes) : Bool :=
  (charEntries cm).all fun e =>
    let rep := slice cm (uAt cm 8 4 + fld e.2 23 0) (fld e.2 27 24)
    if fld e.2 31 30 == 2 then
      decide (1 ≤ fld e.2 27 24) && rep.length == fld e.2 27 24 && utf8Ok 4 rep && decide (rep.length ≤ (utf8Enc e.1).length)
    else fld e.2 27 24 == 0

/-- Fields of a trie node (R228). -/
def trieNode (trie : Bytes) (i : Nat) : Nat := uAt trie (64 * i) 64
def trieHas (n c : Nat) : Bool := bitAt n (256 + c)
def popBelow (m c : Nat) : Nat := ((List.range c).filter fun i => bitAt m i).length
def trieChild (n c : Nat) : Nat := fld n 255 234 + popBelow (n / 2 ^ 256) c

/-- The pieces of a trie. -/
def triePieces (trie : Bytes) : List Nat :=
  ((List.range (trie.length / 64)).filter fun i => bitAt (trieNode trie i) 173).map fun i => fld (trieNode trie i) 191 174

/-- A score lies in −65,536 to 0 (R221, R228). -/
def scoreOk (x : W32) : Bool := f32Le 0xC7800000#32 x && f32Le x 0

/-- The layout and each field alone of a trie satisfy R228: its reserved fields are 0, scores, depths and piece ids are in range. -/
def trieFields (v maxPiece : Nat) (trie : Bytes) : Bool :=
  trie.length % 64 == 0 && inRange 1 4194304 (trie.length / 64)
  && (List.range (trie.length / 64)).all fun i =>
    let n := trieNode trie i
    fld n 233 224 == 0 && fld n 165 0 == 0 && decide (fld n 172 166 ≤ maxPiece)
    && scoreOk (BitVec.ofNat 32 (fld n 223 192)) && (!(bitAt n 173) || decide (fld n 191 174 < v))

/-- A trie's nodes fit one another (R228): every child lies within it, and no two terminal nodes share a piece. -/
def trieRel (trie : Bytes) : Bool :=
  (List.range (trie.length / 64)).all (fun i =>
    let n := trieNode trie i
    let kids := popBelow (n / 2 ^ 256) 256
    kids == 0 || decide (fld n 255 234 + kids ≤ trie.length / 64))
  && distinct (triePieces trie)

/-- The piece table entry of a token (R235) and the bytes it emits. -/
def pieceEntry (pt : Bytes) (t : Nat) : Nat := uAt pt (8 * t) 8
def pieceBytes (v : Nat) (pt : Bytes) (t : Nat) : Bytes :=
  let e := pieceEntry pt t
  if bitAt e 40 then [] else slice pt (8 * v + fld e 31 0) (fld e 39 32)

/-- The parameters of a tokeniser and its images satisfy R221, R226 to R228 and R235, each field alone. -/
def tokFields (t : TokCfg) : Bool :=
  let idOk := fun (n : Nat) => n == none32 || decide (n < t.vocab)
  decide (t.id < 16) && inRange 2 262144 t.vocab && inRange 1 64 t.maxPiece && decide (t.invalid ≤ 1)
  && inRange 3 1048576 t.lMax && decide (t.truncate ≤ 1) && scoreOk t.unkScore && scoreOk t.byteScore
  && decide (t.unkId < t.vocab) && idOk t.bos && idOk t.eos
  && (t.byteBase == none32 || decide (t.byteBase + 256 ≤ t.vocab))
  && inRange (ceilDiv t.maxPiece 32) 16 t.walkTiles
  && charMapFields t.charMap && trieFields t.vocab t.maxPiece t.trie
  && decide (8 * t.vocab ≤ t.pieces.length) && decide (t.pieces.length - 8 * t.vocab ≤ 16777216)
  && (List.range t.vocab).all fun i =>
    let e := pieceEntry t.pieces i
    fld e 63 41 == 0 && decide (fld e 39 32 ≤ 64)

/-- A tokeniser's images satisfy the conditions of R226 to R228 and R235 that relate fields to one another. -/
def tokRel (t : TokCfg) : Bool :=
  charMapRel t.charMap && trieRel t.trie
  && (List.range t.vocab).all (fun i =>
    let e := pieceEntry t.pieces i
    if bitAt e 40 then fld e 39 32 == 0 else decide (fld e 31 0 + fld e 39 32 ≤ t.pieces.length - 8 * t.vocab))
  && [t.bos, t.eos].all (fun i => i == none32 || bitAt (pieceEntry t.pieces i) 40)
  && (t.byteBase == none32 || (List.range 256).all fun x =>
    !(bitAt (pieceEntry t.pieces (t.byteBase + x)) 40)
    && pieceBytes t.vocab t.pieces (t.byteBase + x) == [BitVec.ofNat 8 x])
  && (triePieces t.trie).all (fun p => !(bitAt (pieceEntry t.pieces p) 40))

/-- The TEXT section (R221); an absent one is empty. -/
def parseText (bs : Bytes) : Except Fail (List TokCfg) := do
  let rs ← decodeSection [(1, List.replicate 13 .u32 ++ [.blob, .blob, .blob])] bs
  let ts := rs.map fun r => let v := r.2.2;
    { id := nth v 0, vocab := nth v 1, maxPiece := nth v 2, invalid := nth v 3, lMax := nth v 4, truncate := nth v 5,
      unkId := nth v 6, unkScore := BitVec.ofNat 32 (nth v 7), byteBase := nth v 8, byteScore := BitVec.ofNat 32 (nth v 9),
      bos := nth v 10, eos := nth v 11, walkTiles := nth v 12, charMap := nthB v 13, trie := nthB v 14, pieces := nthB v 15 : TokCfg }
  guard' (distinctIdx 1 rs && (rs.zip ts).all (fun p => p.1.2.1 == p.2.id) && ts.all tokFields) .malformed
  guard' (ts.all tokRel) .check
  return ts

/-- The CATALOGUE section (R131, R192, R247); an absent one is empty. -/
def parseCatalogue (part : Part) (bs : Bytes) : Except Fail (List CorpusCfg × List TableCfg × List StoreCfg) := do
  let rs ← decodeSection [(1, List.replicate 9 .u32), (2, [.u32, .u32, .u32, .u64, .u32, .u32, .u32]),
    (3, List.replicate 10 .u32)] bs
  let cs := (rs.filter (·.1 == 1)).map fun r => let v := r.2.2;
    { id := nth v 0, distance := nth v 1, code := nth v 2, dims := nth v 3, slackPct := nth v 4, sideCap := nth v 5,
      mergeAt := nth v 6, rescore := nth v 7, layoutCols := nth v 8 : CorpusCfg }
  let ts := (rs.filter (·.1 == 2)).map fun r => let v := r.2.2;
    { id := nth v 0, format := nth v 1, width := nth v 2, rows := nth v 3, hotCap := nth v 4, hotTileRows := nth v 5,
      hotRefreshMs := nth v 6 : TableCfg }
  let ps := (rs.filter (·.1 == 3)).map fun r => let v := r.2.2;
    { id := nth v 0, tokeniser := nth v 1, maxPassages := nth v 2, maxTokens := nth v 3, pairLen := nth v 4,
      queryMax := nth v 5, pairCls := nth v 6, pairSep := nth v 7, pairEnd := nth v 8, pairPad := nth v 9 : StoreCfg }
  guard' (rs.all (fun r => nth r.2.2 0 == r.2.1) && distinctIdx 1 rs && distinctIdx 2 rs && distinctIdx 3 rs) .malformed
  guard' (cs.all (fun c => decide (c.id < 16) && decide (c.distance ≤ 2) && decide (c.code ≤ 1)
      && inRange 32 2048 c.dims && c.dims % 32 == 0 && decide (c.slackPct ≤ 50)
      && inRange 65536 16777216 c.sideCap && c.sideCap % 65536 == 0 && inRange 1 100 c.mergeAt && decide (c.rescore ≤ 2)
      && inRange 16 part.cols c.layoutCols)
    && ts.all (fun t => decide (t.id < 512) && decide (t.format ≤ 5) && inRange 8 1024 t.width && t.width % 8 == 0
      && inRange 1 1099511627775 t.rows && decide (t.hotCap ≤ 1048576) && decide (t.hotTileRows ≤ t.hotCap)
      && inRange 1 3600000 t.hotRefreshMs)
    && ps.all (fun p => decide (p.id < 16) && decide (p.tokeniser < 16) && inRange 1 4294967295 p.maxPassages
      && inRange 1 8192 p.maxTokens && inRange 16 512 p.pairLen && inRange 1 (p.pairLen - 4) p.queryMax)) .malformed
  return (cs, ts, ps)

/-- The stride of a stored row (R193). -/
def TableCfg.rowBytes (t : TableCfg) : Nat :=
  match t.format with
  | 0 => 4 * t.width
  | 1 => 2 * t.width
  | 2 => 2 * t.width
  | 3 => t.width
  | 4 => 4 + t.width
  | _ => 4 + t.width / 2
def TableCfg.stride (t : TableCfg) : Nat := alignUp t.rowBytes 32

/-- Passage stores name tokenisers of TEXT, with pair tokens below their vocabulary (R247). -/
def storesOk (toks : List TokCfg) (ps : List StoreCfg) : Bool :=
  ps.all fun p => match toks.find? (·.id == p.tokeniser) with
    | none => false
    | some t => [p.pairCls, p.pairSep, p.pairEnd].all (fun x => x == none32 || decide (x < t.vocab))
        && decide (p.pairPad < t.vocab)

/-- The lowest-numbered LOOKUP pool's half hot area holds every table's tile rows (R214). -/
def hotOk (pools : List PoolCfg) (ts : List TableCfg) : Bool :=
  let need := (ts.map fun t => t.hotTileRows * t.stride).sum
  match pools.find? (·.has 2) with
  | none => need == 0
  | some p => decide (need ≤ p.hotKib * 1024 / 2 * p.tiles)

/-- Every Wheel pool rotates a defined corpus laid out for its columns (R18, R134). -/
def wheelsOk (pools : List PoolCfg) (cs : List CorpusCfg) : Bool :=
  (pools.filter (·.has 0)).all fun p => cs.any fun c => c.id == p.corpus && c.layoutCols == p.cols

/-- The LIMITS section (R408). -/
def parseLimits (bs : Bytes) : Except Fail LimitsCfg := do
  let rs ← decodeSection [(1, [.u64, .u64, .u32])] bs
  let v ← theRec 1 rs
  guard' (decide (nth v 0 ≤ 1099511627776) && nth v 0 % 2097152 == 0 && inRange 16777216 4294967296 (nth v 1)
    && nth v 1 % 1048576 == 0 && inRange 1 600000 (nth v 2)) .malformed
  return { kvBytes := nth v 0, rxBytes := nth v 1, drainMs := nth v 2 }

/-- The relations between sections (R18, R134, R214, R247, R340). -/
def crossOk (c : RunCfg) : Bool :=
  wheelsOk c.pools c.corpora && hotOk c.pools c.tables && storesOk c.toks c.stores && twinOk c.twin c.peers

-- The image as a whole

/-- The image header of a slot (R403), valid by R399. -/
def imageSeq (img : Bytes) : Nat := uAt img 8 8
def imageBytes (img : Bytes) : Nat := uAt img 16 4
def headerOk (img : Bytes) : Bool :=
  uAt img 0 4 == 0x47464E43 && uAt img 4 2 == 1 && decide (64 ≤ imageBytes img) && decide (imageBytes img ≤ 268435456)

/-- The directory entries: section, offset, length. -/
def imageDir (img : Bytes) : List (Nat × Nat × Nat) :=
  (List.range (uAt img 22 2)).map fun i =>
    let e := uAt img (uAt img 24 4 + 16 * i) 16
    (fld e 3 0, fld e 63 32, fld e 95 64)

/-- The bytes of a section; empty when absent. -/
def imageSection (img : Bytes) (code : Nat) : Bytes :=
  match (imageDir img).find? (·.1 == code) with
  | some (_, off, len) => slice img off len
  | none => []

/-- Header and directory satisfy R403 and R404 (their reserved fields included). -/
def layoutOk (img : Bytes) : Bool :=
  let d := imageDir img
  let ib := imageBytes img
  headerOk img && decide (ib ≤ img.length) && uAt img 6 2 == 0 && uAt img 20 2 == 0 && allZero (slice img 32 32)
  && inRange 8 11 (uAt img 22 2) && uAt img 28 4 + 4723 == ib
  && decide (uAt img 24 4 + 16 * uAt img 22 2 ≤ uAt img 28 4)
  && (List.range (uAt img 22 2)).all (fun i =>
    let e := uAt img (uAt img 24 4 + 16 * i) 16
    fld e 127 96 == 0 && fld e 31 4 == 0)
  && [0, 1, 2, 3, 4, 5, 9, 15].all (fun c => (d.filter (·.1 == c)).length == 1)
  && [6, 7, 8].all (fun c => decide ((d.filter (·.1 == c)).length ≤ 1))
  && d.all (fun e => !(inRange 10 14 e.1) && e.2.1 % 128 == 0 && decide (e.2.1 + e.2.2 ≤ uAt img 28 4)
    && d.all (fun f => e.1 == f.1 || decide (e.2.1 + e.2.2 ≤ f.2.1) || decide (f.2.1 + f.2.2 ≤ e.2.1)))

/-- What verification of a slot decides (R389): the new fuses and FW_SVN. -/
structure Verified where
  fuses : Fuses
  fwSvn : Nat
  deriving DecidableEq, Repr

/-- The transfer record carries the enrolled owner over to the hash `h` (R390). -/
def transferOk (f : Fuses) (h : Bytes) (t : Transfer) : Bool :=
  decide (f.owners.length < 8) && Config.sha384 t.key == (f.owners.getLast?.getD []) && t.newHash == h
  && t.slot + 1 == f.owners.length && (allZero t.target || t.target == Config.sha384 Config.deviceKey)
  && Config.hybridVerify t.key (Config.sha384 t.signedPart) t.sig

/-- Steps 1, 2 and 4 of R389. -/
def signaturesOk (f : Fuses) (img : Bytes) : Option (Nat × SecurityCfg × Option Transfer) :=
  if !(layoutOk img) then none else
    match Config.firmwareSvn (imageSection img 15), (parseSecurity (imageSection img 4)).toOption with
    | some fw, some (sec, tr) =>
      let off := uAt img 28 4
      if decide (f.minFwSvn ≤ fw) && Config.hybridVerify sec.ownerKey (Config.sha384 (img.take off)) (slice img off 4723)
        && decide (f.minImageSvn ≤ sec.imageSvn) then some (fw, sec, tr) else none
    | _, _ => none

/-- Bits of a thermometer code in fuses: a higher version burns them all (R388, log 154). -/
def svnBits : Nat := 64

/-- The verification of a slot at start (R389): enrolment or transfer of the owner, and the raised security versions. -/
def verifyImage (f : Fuses) (img : Bytes) : Option Verified :=
  match signaturesOk f img with
  | none => none
  | some (fw, sec, tr) =>
    let h := Config.sha384 sec.ownerKey
    let owners := if f.owners.isEmpty then some [h] else if f.owners.getLast? == some h then some f.owners
      else match tr with
        | some t => if transferOk f h t then some (f.owners ++ [h]) else none
        | none => none
    owners.map fun os =>
      { fuses := { f with
          owners := os, minFwSvn := max f.minFwSvn (min svnBits fw), minImageSvn := max f.minImageSvn (min svnBits sec.imageSvn) }
        fwSvn := fw }

/-- Step 5 of R398: the running copy of an image; none when a section fails a check. -/
def parseImage (part : Part) (img : Bytes) : Except Fail RunCfg := do
  let port ← parsePort (imageSection img 0)
  let pools ← parsePools part (imageSection img 1)
  let mode ← parseMode part (imageSection img 2)
  let power ← parsePower (imageSection img 3)
  let security ← parseSecurity (imageSection img 4)
  let peers ← parsePeers (imageSection img 5)
  let twin ← parseTwin (imageSection img 6)
  let toks ← parseText (imageSection img 7)
  let cat ← parseCatalogue part (imageSection img 8)
  let limits ← parseLimits (imageSection img 9)
  let c : RunCfg := { port, pools, mode, power, security := security.1, peers, twin, toks, corpora := cat.1,
                      tables := cat.2.1, stores := cat.2.2, limits, firmware := imageSection img 15 }
  guard' (crossOk c) .check
  return c

end Sys2Proof.Machine
end

