-- ==== Sys2Proof/Machine/WorkTypes.lean ====
section
/-! DEFINITION. The parts of the state that belong to requests, plans, models, tiles and pools (chapters 3, 4, 10 and 11
of the manual). -/

namespace Sys2Proof.Machine

/-- An object version held: what the object directory and the attestation report say of it (R379, R380, R480). `state`: 0
loading, 1 held, 2 current, 3 retired, 4 released. `key` tells apart images of one id held at once. -/
structure Obj where
  kind : Nat
  id : Nat
  version : Nat := 0
  key : Nat := 0
  base : Nat := 0
  bytes : Nat := 0
  state : Nat := 1
  digest : Bytes := []
  mark : Nat := 0
  damaged : Bool := false
  deriving DecidableEq, Repr

/-- A stage table entry of a plan (R108). -/
structure Stage where
  kind : Nat
  repeats : Bool
  preds : List Nat
  wiFirst : Nat
  wiCount : Nat
  cycles : Nat
  footprint : Nat
  minCols : Nat
  object : Nat
  deriving DecidableEq, Repr

/-- A loaded plan image (R107): stages, work-item and descriptor templates, region marks, all as numbers of R8. -/
structure Plan where
  obj : Obj
  stages : List Stage
  items : List Nat
  descs : List Nat
  regions : List Nat
  offConst : Nat
  scratchBytes : Nat
  scratchDev : Nat
  deriving DecidableEq, Repr

/-- A region of a model or adapter image as held in HBM (R301 to R304): its address, bytes held (coded or raw), decoded
bytes, placement hint, whether it is held Grist-coded, and whether it is sliced over the tiles. -/
structure Region where
  base : Nat
  held : Nat
  decoded : Nat
  hint : Nat
  coded : Bool
  isSliced : Bool
  deriving DecidableEq, Repr

/-- A loaded model image with its serving parameters (R274). -/
structure Model where
  obj : Obj
  tokeniser : Nat
  layers : Nat
  kvTokenBytes : Nat
  ctxMax : Nat
  chunk : Nat
  piggyback : Nat
  batchMax : Nat
  ctxTileBytes : Nat
  regions : List Region
  deriving DecidableEq, Repr

/-- An adapter version (R291). -/
structure Adapter where
  obj : Obj
  model : Nat
  regions : List Region
  deriving DecidableEq, Repr

/-- A loaded grammar (R241 to R243): its image bytes and header counts. -/
structure Grammar where
  obj : Obj
  tokeniser : Nat
  states : Nat
  vocab : Nat
  start : Nat
  offStates : Nat
  offMasks : Nat
  offTrans : Nat
  deriving DecidableEq, Repr

/-- A prefix handle held (R287, R288): the model image, adapter version and tokens it records, its pages (layer-major list
positions as in R276), and the order in which it was last bound. -/
structure Prefix where
  handle : Nat
  model : Nat
  adapter : Option (Nat × Nat)
  tokens : Nat
  pages : List Nat
  partialPages : List Nat
  evictable : Bool
  lastBound : Nat
  deriving DecidableEq, Repr

/-- A load in progress (R363), by message type and id: what its first chunk fixed, the HBM of its image, the spans that
arrived (of a tenant blob when `wrapped`, R391), the tick of its last chunk, and its FINAL chunk with the hint overrides once
that has come. -/
structure Load where
  type : Nat
  id : Nat
  session : Nat
  total : Nat
  version : Nat
  forModel : Nat
  wrapped : Bool
  base : Nat
  got : List (Nat × Nat) := []
  lastChunk : Nat
  final : Option (Write × Bytes) := none
  deriving DecidableEq, Repr

/-- A page of a request's KV (R276): its HBM address, FILL, SEALED and SHARED. -/
structure KvPage where
  base : Nat
  fill : Nat := 0
  isSealed : Bool := false
  shared : Bool := false
  deriving DecidableEq, Repr

/-- An instantiated work item (R100, R102): the 1,024-bit record with REQ, STAGE and the Hopper's immediates filled in, its
template index, the plan image it comes from, and its descriptors after the Hopper's part of relocation, by slot (a used slot
without one could not be relocated), with the stage input handles that slots name.
`reqOrder` tells apart the requests that use one entry in turn; `isShared` marks a work item of a decode step that runs
once for the whole batch (R284). -/
structure Item where
  req : Nat
  reqOrder : Nat
  stage : Nat
  template : Nat
  plan : Nat
  pool : Nat
  wi : Nat
  descs : List (Nat × Nat)
  indexDescs : List (Nat × Nat) := []
  inHandles : List (Nat × Nat) := []
  isShared : Bool := false
  deriving DecidableEq, Repr

/-- The work item a sequencer runs (R120): its number, its streams' final descriptors, the handles it dequeued, the bytes
read over the mesh or from rings by slot, remote reads still to be served, a fault met (0 none), and what it waits for
(0 nothing, 1 a barrier release, 2 a selection decision, 3 row replies, 4 credits for its handles). `round`, `store` and `bytes` are its own. -/
structure Running where
  item : Item
  run : Nat
  slots : List (Nat × Nat) := []
  index : List (Nat × Nat) := []
  handles : List Nat := []
  fetched : List (Nat × Bytes) := []
  toFetch : List Nat := []
  fault : Nat := 0
  waits : Nat := 0
  round : Nat := 0
  store : List Nat := []
  bytes : Bytes := []
  deriving DecidableEq, Repr

/-- A Sluice entry (R83): a handle and the request it belongs to, with its order number. -/
structure QEntry where
  handle : Nat
  req : Nat
  reqOrder : Nat
  deriving DecidableEq, Repr

/-- A cache line (R64), with the request that last wrote it. -/
structure CacheLine where
  addr : Nat
  data : Bytes
  dirty : Bool
  req : Nat := 0
  deriving DecidableEq, Repr

/-- A completion record on its way to the Hopper (R106), with the tile, pool and opcode, the signals it increments, and the
number of the run it ends. `rejected` says NORMALISE stopped in REJECT mode (R225). -/
structure Completion where
  record : Nat
  reqOrder : Nat
  run : Nat
  tile : Nat
  pool : Nat
  opcode : Nat
  signals : List (Nat × Nat) := []
  rejected : Bool := false
  isShared : Bool := false
  released : List Nat := []
  deriving DecidableEq, Repr

/-- A stream that fills a ring (R80, R81): the ring's tile, the descriptor, the gang mode of its work item, the stage whose ring it is,
fills still to send, credits held (for another tile's ring), and the run of its work item. -/
structure Producer where
  tile : Nat
  desc : Nat
  gang : Nat
  key : Nat × Nat
  fills : List Bytes
  credits : Nat
  run : Nat
  deriving DecidableEq, Repr

/-- A ring of a tile (R80 to R82): the stage that uses it, and how often its head and its tail have advanced. -/
structure Ring where
  id : Nat
  owner : Nat × Nat
  head : Nat
  tail : Nat
  deriving DecidableEq, Repr

/-- A work item whose operation is done and whose ring fills, or handles without a credit, are still to go (R81, R85): its result, the slots
written with their bytes, and its record once the handles have been numbered. -/
structure Closing where
  x : Running
  fault : Nat
  flags : Nat
  aux : Nat
  rejected : Bool
  spans : List (Nat × Nat)
  done : Option Completion := none
  deriving DecidableEq, Repr

/-- The buffers of one matrix array (R31, R32): the complete weight blocks by place in the weight buffer, each the codes of the columns
of its cells, and which one is active; the activation row buffer's broadcast words (2 KiB); the operand buffers' elements by cell row (two
values of k each in the 4-bit class); and the accumulator entries by row and column (64 × 32 of 32 bits). -/
structure MacArray where
  blocks : List (Nat × List (List Nat)) := []
  active : Nat := 0
  words : Bytes := []
  operands : List Nat := []
  acc : List (List W32) := []
  deriving DecidableEq, Repr

/-- A tile (R14): its arrays' buffers, local queue and running work item, idle state and place in its stealing round, gang mode of the previous
matrix work item, rings, ring producers, work items that end, Sluice queues with entries and entries reserved by credit, page generations,
cache lines (most recently used first), the model image whose context it holds and where, whether a wake is on its way (R122), and the trie
cache of R229 with its tokeniser. -/
structure Tile where
  arrays : List (Nat × MacArray) := []
  queue : List Item := []
  running : Option Running := none
  idle : Bool := false
  steal : Nat := 0
  gang : Nat := 0
  woken : Bool := false
  rings : List Ring := []
  producers : List Producer := []
  closing : List Closing := []
  sluice : List (Nat × List QEntry) := []
  reserved : List (Nat × Nat) := []
  gens : List (Nat × Nat) := []
  cache : List CacheLine := []
  context : Option Nat := none
  contextAt : Nat := 0
  trieTok : Option Nat := none
  trieNodes : List Nat := []
  deriving DecidableEq, Repr

/-- A barrier slot of a pool (R126, R127): its owner, the barrier's number, N, operation, arrivals' values and tiles. -/
structure BarrierSlot where
  req : Nat
  stage : Nat
  number : Nat
  need : Nat
  op : Nat
  values : List Nat := []
  tiles : List Nat := []
  released : Bool := false
  deriving DecidableEq, Repr

/-- A candidate (R150, R169): item id, key, score bits, and bits [63:0] of its list entry. -/
structure Cand where
  id : Nat
  key : Nat
  score : Nat
  src : Nat := 0
  deriving DecidableEq, Repr

/-- What the root of a selection collective releases (R189): `kind` 0 another round, 1 ALL, 2 ABOVE (keys at or above `key`),
3 the pair (`key`, id threshold `id`); the round that follows, the chosen prefixes, and the ties left out. -/
structure Decision where
  kind : Nat
  round : Nat
  key : Nat := 0
  id : Nat := 0
  tie : Nat := 0
  deriving DecidableEq, Repr

/-- A selection slot of a pool (R187 to R191): its owner, the group, k and collective; the sums of the members that arrived in the
present round (1 to 4 keys, 5 to 12 ids, 13 the gather), their tiles, the entries certainly kept, the last decision with the
tiles it has still to reach, and the gathered entries by member. -/
structure SelectSlot where
  req : Nat
  reqOrder : Nat
  stage : Nat
  group : Nat
  size : Nat
  k : Nat
  collective : Nat
  bins : List Nat := []
  valid : Nat := 0
  nans : Nat := 0
  arrived : List Nat := []
  certain : Nat := 0
  decision : Decision := { kind := 0, round := 1 }
  flying : List Nat := []
  gathered : List (Nat × List Cand) := []
  deriving DecidableEq, Repr

/-- What a pool keeps at run time: its queue of 8,192 entries, work items waiting for a free entry, stages waiting for
barrier or selection slots, the deficits and cursor of R272 with the weights in force, whether changed weights wait and
whether a stage has completed since, slots, open KV pages, staged lines (R278, most recently written first) and the lines of open pages
that a full staging area has written back. -/
structure PoolRun where
  queue : List Item := []
  overflow : List Item := []
  blocked : List (Nat × Nat) := []
  deficits : List (Nat × Int) := []
  cursor : Nat := 0
  weights : List (Nat × Nat) := []
  newWeights : Bool := false
  boundary : Bool := false
  barriers : List BarrierSlot := []
  selects : List SelectSlot := []
  openPages : List Nat := []
  staged : List CacheLine := []
  spilled : List Nat := []
  deriving DecidableEq, Repr

/-- A stage on a request's path: its bound pool, its input handles, the passage list that resolution wrote for it and whether
resolution waits for peers (R251), whether the stage became ready, whether its work items are dispatched, whether
it completed, and the base version of the corpus it reads, current at its dispatch (R109). -/
structure StageRun where
  stage : Nat
  pool : Nat
  inputs : List Nat := []
  list : Option Nat := none
  resolving : Bool := false
  started : Bool := false
  dispatched : Bool := false
  done : Bool := false
  version : Nat := 0
  deriving DecidableEq, Repr

/-- A hand-off collected for a request (R117): producing stage, template, order, handle. -/
structure Hand where
  stage : Nat
  template : Nat
  order : Nat
  handle : Nat
  deriving DecidableEq, Repr

/-- A request (R265, R359): the fields of its table entry and everything it bound at admission. `order` numbers admitted
requests; `planImage` is the key of the bound plan image; `needs` the functions its path needs; `deadline` the MESH count
at which its budget runs out, `frozen` the BUDGET when the status was decided; `tables` the bound versions (kind, id,
version); `devNext`, `devEnd` the rest of the device area (R113); `token` the token sampled in the present decode step, `tokenSeen` that it has reached the Hopper;
`shapes` the bag-map chunks handed to it with their table's format and width (R212); `texts` the text fields normalised by stage, with
the bytes received and the text; `emitted` the bytes that DETOK passed on and STOP_MATCH has not taken; `piece` a prefill piece on the PREFILL pool (0) or joined to a decode step (1), with its tokens. -/
structure Request where
  state : Nat
  order : Nat
  session : Nat
  plan : Nat
  planImage : Nat
  entry : Nat
  final : Nat
  stages : List StageRun := []
  needs : Nat := 0
  shareClass : Nat := 0
  priority : Nat := 0
  deadline : Option Nat := none
  frozen : Nat := 0
  status : Option Nat := none
  endState : Nat := 0
  faultStage : Option Nat := none
  fault : Nat := 0
  flags : Nat := 0
  model : Option (Nat × Nat) := none
  adapter : Option (Nat × Nat) := none
  grammar : Option (Nat × Nat) := none
  grammarState : Nat := 0
  tokeniser : Option Nat := none
  promptLen : Nat := 0
  promptKnown : Bool := false
  maxNew : Nat := 0
  newTokens : Nat := 0
  length : Nat := 0
  temperature : W32 := 0
  topP : W32 := 0x3F800000#32
  topK : Nat := 1
  seed : Nat := 0
  seedDrawn : Bool := false
  stops : List Bytes := []
  textRecord : Option Nat := none
  stopAutomaton : Option Nat := none
  tables : List (Nat × Nat × Nat) := []
  payload : Nat × Nat := (0, 0)
  scratch : Nat := 0
  scratchBytes : Nat := 0
  devNext : Nat := 0
  devEnd : Nat := 0
  stepArea : Option Nat := none
  signals : List Nat := List.replicate 16 0
  hands : List Hand := []
  prefixHandle : Nat := 0
  reuse : Option Nat := none
  retain : Bool := false
  evictable : Bool := false
  retainCancelled : Bool := false
  retained : Bool := false
  kvHead : Nat := 0
  kvBlocks : List Nat := []
  pages : List KvPage := []
  piece : Option (Nat × Nat) := none
  kvPool : Option Nat := none
  writeback : Bool := false
  copying : Bool := false
  token : Option Nat := none
  tokenSeen : Bool := false
  textDone : Bool := false
  finalSent : Option Nat := none
  collective : Option (Nat × Nat × Nat) := none
  origin : Option (Nat × Nat × Nat × Nat) := none
  fetched : List (Nat × Nat × Nat × Nat) := []
  shapes : List (Nat × Nat × Nat) := []
  texts : List (Nat × Nat × Bytes) := []
  emitted : Option Nat := none
  deriving DecidableEq, Repr

/-- A decode step in progress (R283, R284) of a model image and a plan image on a DECODE pool: the request it runs under, its
batch and the pieces with their tokens that joined it, each request with its order number, its record's handle, its REPEAT stages that
have started and completed, and the handles that its shared work items sent to the Hopper. -/
structure DecodeStep where
  pool : Nat
  model : Nat
  plan : Nat
  leader : Nat
  leaderOrder : Nat
  batch : List (Nat × Nat) := []
  pieces : List (Nat × Nat × Nat) := []
  record : Nat := 0
  started : List Nat := []
  finished : List Nat := []
  hands : List Hand := []
  deriving DecidableEq, Repr

/-- A handle on its way to the Hopper's hand-off queue (R117), with the opcode of its producer and its run. -/
structure Handoff where
  req : Nat
  reqOrder : Nat
  run : Nat
  opcode : Nat
  hand : Hand
  deriving DecidableEq, Repr

/-- A handle on its way to a Sluice queue (R85); `credit` says that an entry there is reserved for it, and `sent` when it left
among what the mesh's control class carries (R93). `src` is a tile, or `hopperSrc`. -/
structure SluiceFlight where
  src : Nat
  dst : Nat
  queue : Nat
  entry : QEntry
  run : Nat
  credit : Bool
  sent : Nat := 0
  deriving DecidableEq, Repr

/-- A credit on its way to the producer `src` for an entry of queue `queue` of tile `dst` (R85). -/
structure SluiceCredit where
  src : Nat
  dst : Nat
  queue : Nat
  sent : Nat := 0
  deriving DecidableEq, Repr

/-- What a Leat payload is for: a work item's transfer, a rider's multicast, a keeper's threshold, a drop. -/
inductive LeatUse where
  | plain
  | rider (slot : Nat)
  | theta (slot key : Nat)
  | drop (slot : Nat)
  deriving DecidableEq, Repr

/-- A Leat payload on its way (R88 to R90): its source, the destination tiles still to land, byte offset, bytes, the Sluice
queue named at the destination, and the request it belongs to. -/
structure LeatFlight where
  src : Nat
  dsts : List Nat
  offset : Nat
  bytes : Bytes
  queue : Option Nat
  req : Nat
  reqOrder : Nat
  run : Nat
  sent : Nat := 0
  use : LeatUse
  deriving DecidableEq, Repr

/-- A read on its way to another tile's memory (R95): the reader and the slot of its running work item. -/
structure RemoteRead where
  reader : Nat
  slot : Nat
  deriving DecidableEq, Repr

end Sys2Proof.Machine
end

