-- ==== Sys2Proof/Machine/StoreTypes.lean ====
section
/-! DEFINITION. The parts of the state that hold tables, passage stores, hot-row sets, corpora and the Wheels (chapters 5, 7
and 9), and the collectives that reach peers (chapters 6 and 14). -/

namespace Sys2Proof.Machine

/-- A shard map (R195): its version and its ranges as first global row, first local row, owner. -/
structure ShardMap where
  version : Nat
  ranges : List (Nat × Nat × Nat)
  deriving DecidableEq, Repr

/-- A table version (R194, R196): `state` 0 LOADING, 1 READY, 2 CURRENT, 3 RETIRED; the HBM of its slab table; its slabs as
number, address and bytes; the local rows written as first and count; writes that wait for a slab copy; `opened`, while the write that opened it
waits, is the greatest number held before (R197). -/
structure TableVer where
  opened : Option Nat := none
  table : Nat
  version : Nat
  state : Nat := 0
  released : Bool := false
  map : ShardMap
  base : Nat
  slabs : List (Nat × Nat × Nat) := []
  written : List (Nat × Nat) := []
  waiting : List Write := []
  digest : Bytes := []
  damaged : Bool := false
  deriving DecidableEq, Repr

/-- A passage as placed: its id, the HBM address of its tokens and their number (R248). -/
structure Passage where
  id : Nat
  addr : Nat
  tokens : Nat
  deriving DecidableEq, Repr

/-- A passage-store version (R248, R249); states as of tables. -/
structure StoreVer where
  store : Nat
  version : Nat
  state : Nat := 0
  released : Bool := false
  passages : List Passage := []
  digest : Bytes := []
  damaged : Bool := false
  deriving DecidableEq, Repr

/-- A hot-row set version held (R215, R216): the table version it applies to, its rows in hot-slot order, the half of the hot
areas it uses, and its HBM replica with the hot slots it holds, in order. -/
structure HotVer where
  table : Nat
  version : Nat
  forVersion : Nat
  rows : List Nat
  half : Nat
  replica : Nat
  replicaBytes : Nat
  replicaSlots : List Nat
  current : Bool := true
  digest : Bytes := []
  deriving DecidableEq, Repr

/-- What a table keeps beside its versions: the greatest version and hot-set version ever held, the HOT_SET that waits with the
HOT_REFRESH_MS in force when it reached step 1, the half it uses next, the tick the last install started, the install under way with its replica (address, hot slots) and the
rows still to come from peers. -/
structure TableRun where
  id : Nat
  last : Nat := 0
  lastHot : Nat := 0
  waiting : Option Write := none
  waitMs : Nat := 0
  half : Nat := 0
  started : Option Nat := none
  installing : Option (Write × Nat × List Nat) := none
  missing : Nat := 0
  deriving DecidableEq, Repr

/-- The greatest version ever held of a passage store. -/
structure StoreRun where
  id : Nat
  last : Nat := 0
  deriving DecidableEq, Repr

/-- An exchange with an owner (R209, R252): its number, the owner, the request it serves (none for a hot-set install), the
running tile of a look-up, table or store, kind (0 rows of a look-up, 1 passages, 2 rows of a hot replica), the ids asked
for and where each row goes. -/
structure Exchange where
  xid : Nat
  owner : Nat
  req : Nat
  reqOrder : Nat
  tile : Nat
  kind : Nat
  object : Nat
  ids : List Nat
  places : List Nat
  deriving DecidableEq, Repr

/-- A side entry (R157): its place in HBM, the place of its rescoring vector if it has one, and its header's fields. -/
structure SideEntry where
  seq : Nat
  op : Nat
  id : Nat
  home : Nat
  superseded : Nat := 0xFFFFFFFFFFFF
  norm : W32 := 0
  addr : Nat
  fine : Option Nat
  deriving DecidableEq, Repr

/-- A corpus version (R133): its HBM range, where codes, id table and rescoring copy stand in it, its base segments, its mark
P, and its suppression records as (segment, position in the segment, SEQ) (R158). -/
structure CorpusVer where
  version : Nat
  base : Nat
  bytes : Nat
  segs : Nat
  ids : Nat
  fine : Nat
  mark : Nat
  supp : List (Nat × Nat × Nat) := []
  digest : Bytes := []
  damaged : Bool := false
  deriving DecidableEq, Repr

/-- A version image on its way in chunks (R364, R365). -/
structure CorpusLoad where
  version : Nat
  total : Nat
  wrapped : Bool
  base : Nat
  got : List (Nat × Nat) := []
  deriving DecidableEq, Repr

/-- A merge that runs (R162): the version it builds and the next segment to write. -/
structure MergeRun where
  build : CorpusVer
  last : Nat
  next : Nat := 0
  deriving DecidableEq, Repr

/-- A corpus (R131): the draw of its row permutation, its scale and offset tables and those for rescoring (empty until its first
version), its current version, a complete successor with whether the host installed it, versions kept for their rescoring
copy, its side list (oldest first) and its head, the next SEQ, the cursor of R160, and whether a merge is due. -/
structure Corpus where
  id : Nat
  perm : Nat
  scale : List W32 := []
  offset : List W32 := []
  fineScale : List W32 := []
  fineOffset : List W32 := []
  version : Nat := 0
  current : Option CorpusVer := none
  next : Option (CorpusVer × Bool) := none
  merge : Option MergeRun := none
  old : List CorpusVer := []
  side : List SideEntry := []
  head : Nat := 1
  nextSeq : Nat := 1
  cursor : Nat := 0
  due : Bool := false
  loads : List CorpusLoad := []
  deriving DecidableEq, Repr

/-- What a Wheel streams next (R136): a base segment of a version, a side block, or nothing. -/
inductive Seg where
  | base (version n : Nat)
  | side (block : Nat)
  | pause
  deriving DecidableEq, Repr

/-- A boundary release (R137): the segment that starts, and the release's contents. `leave` and `drop` are the slots that the
root retires and takes out at this boundary (R145, R146). -/
structure Release where
  seg : Seg
  next : Seg
  tail : Nat
  board : List Nat := []
  switch : Nat := 0
  faulted : Bool := false
  leave : List Nat := []
  drop : List Nat := []
  deriving DecidableEq, Repr

/-- A rider (R142 to R155). `phase`: 0 given a slot, 1 prepared, 2 aboard, 3 left with its final merge due, 4 being dropped. -/
structure Rider where
  slot : Nat
  req : Nat
  reqOrder : Nat
  stage : Nat
  phase : Nat := 0
  k : Nat := 0
  rescore : Nat := 0
  listOut : Bool := false
  query : List W32 := []
  codes : List Int := []
  sigma : W32 := 0
  constant : W32 := 0
  square : W32 := 0
  nan : Bool := false
  tail : Nat := 0
  boardAt : Seg := .pause
  boardVersion : Nat := 0
  scored : List Seg := []
  theta : Nat := 0
  keeper : List Cand := []
  ties : Nat := 0
  rows : Nat := 0
  nans : Nat := 0
  leftVersion : Nat := 0
  deriving DecidableEq, Repr

/-- A tile of a Wheel pool (R135, R137, R151, R152): the release it acts on, whether its arrays began its slice and have scored it,
the slice's candidates still to take (slot, candidate) while they pause, the entries evicted from it, the boundary token sent (landed mask, fault
bit), its fault bit, landed bits, payloads landed per slot, riders aboard, thresholds, tile lists and eviction buffer. -/
structure WheelTile where
  release : Option Release := none
  begun : Bool := false
  scored : Bool := false
  todo : List (Nat × Cand) := []
  evicted : Nat := 0
  token : Option (List Nat × Bool) := none
  fault : Bool := false
  landed : List Nat := []
  parts : List (Nat × Nat) := []
  aboard : List Nat := []
  theta : List (Nat × Nat) := []
  lists : List (Nat × List Cand) := []
  evict : List (Nat × Cand) := []
  deriving DecidableEq, Repr

/-- A Wheel (R136 to R139): its pool and corpus, the last release, the tiles it has still to reach, the held segment while it
pauses, the last slot boarded, riders, tiles, and the tick of the last release. -/
structure Wheel where
  pool : Nat
  corpus : Nat
  release : Release
  flying : List Nat := []
  held : Option Seg := none
  lastSlot : Nat := 511
  riders : List Rider := []
  tiles : List (Nat × WheelTile) := []
  at' : Nat := 0
  deriving DecidableEq, Repr

/-- A collective of a request (R184, R185, R187, R191): its number and origin, the participants' device indices in rank order,
this device's rank and request, what it merges (0 lists, 1 a selection), its current list and coverage, and the rounds'
sums (R189): round, children that answered, bins, valid and NaN counts, decision and gathered entries. `upward` is the list that a
participant sent up with its coverage, kept until `limit` (a MESH count) in case its parent is lost with it (R185). -/
structure Collective where
  number : Nat
  origin : Nat
  originReq : Nat
  kind : Nat
  members : List Nat
  rank : Nat
  req : Nat
  reqOrder : Nat
  k : Nat
  stage : Nat := 0
  own : Option Bytes := none
  covered : Nat := 0
  waiting : List (Nat × Nat × Bytes) := []
  sent : Bool := false
  upward : Option (Nat × Bytes) := none
  limit : Option Nat := none
  missing : Bool := false
  pool : Nat := 0
  round : Nat := 0
  arrived : List Nat := []
  bins : List Nat := []
  valid : Nat := 0
  nans : Nat := 0
  deriving DecidableEq, Repr

end Sys2Proof.Machine
end

