-- ==== Sys2Proof/Machine/Layout.lean ====
section
/-! DEFINITION. The layout of corpora in HBM (R131 to R134, R136, R157). -/

namespace Sys2Proof.Machine

/-- Code bytes of a row (R132). -/
def codeBytes (c : CorpusCfg) : Nat := if c.code = 0 then c.dims else c.dims / 2
/-- Tiles of a Wheel pool that rotates the corpus, N_w. -/
def CorpusCfg.nTiles (c : CorpusCfg) : Nat := 32 * c.layoutCols
/-- Bytes of a row in a slice, s_row. -/
def CorpusCfg.rowBytes (c : CorpusCfg) : Nat := codeBytes c + (if c.distance = 2 then 4 else 0)
/-- Rows of a slice, r_s. -/
def CorpusCfg.sliceRows (c : CorpusCfg) : Nat := 262144 / max 1 c.rowBytes
/-- Positions of a segment, n_seg. -/
def CorpusCfg.segRows (c : CorpusCfg) : Nat := c.nTiles * c.sliceRows
def CorpusCfg.segBytes (c : CorpusCfg) : Nat := c.nTiles * 262144
/-- The fill limit. -/
def CorpusCfg.fillLimit (c : CorpusCfg) : Nat := c.segRows * (100 - c.slackPct) / 100
/-- Bytes of a rescoring vector. -/
def CorpusCfg.fineBytes (c : CorpusCfg) : Nat := match c.rescore with
  | 0 => 0
  | 1 => c.dims
  | _ => 2 * c.dims
/-- Bytes of a side entry, e. -/
def CorpusCfg.entryBytes (c : CorpusCfg) : Nat := alignUp (32 + codeBytes c) 32
/-- Entries of a side block's slice, e_t, and of a side block, E. -/
def CorpusCfg.sliceEntries (c : CorpusCfg) : Nat := 262144 / c.entryBytes
def CorpusCfg.blockEntries (c : CorpusCfg) : Nat := c.nTiles * c.sliceEntries
/-- Bytes of the suppression records that a version's memory provides for. -/
def CorpusCfg.suppBytes (c : CorpusCfg) : Nat := 8 * c.sideCap
/-- HBM of a version of `segs` base segments: codes, id table, suppression records, rescoring copy. -/
def CorpusCfg.versionBytes (c : CorpusCfg) (segs : Nat) : Nat :=
  segs * c.segBytes + 8 * (segs * c.segRows) + c.suppBytes + c.fineBytes * (segs * c.segRows)
/-- The id of a position that holds no row. -/
def noId : Nat := 2 ^ 64 - 1
/-- SUPERSEDED_AT of an entry that nothing superseded. -/
def notYet : Nat := 2 ^ 48 - 1

/-- HBM addresses of a position of a segment: its row, its id, its rescoring vector. -/
def rowAt (c : CorpusCfg) (v : CorpusVer) (seg pos : Nat) : Nat :=
  v.base + seg * c.segBytes + pos / c.sliceRows * 262144 + pos % c.sliceRows * c.rowBytes
def idAt (c : CorpusCfg) (v : CorpusVer) (seg pos : Nat) : Nat := v.ids + 8 * (seg * c.segRows + pos)
/-- Where a version keeps its suppression records. -/
def suppAt (c : CorpusCfg) (v : CorpusVer) : Nat := v.ids + 8 * (v.segs * c.segRows)
def fineAt (c : CorpusCfg) (v : CorpusVer) (seg pos : Nat) : Nat := v.fine + c.fineBytes * (seg * c.segRows + pos)

/-- The tail: the last sequence number committed (R158); entries held from the head to it (R161). -/
def Corpus.tail (c : Corpus) : Nat := c.nextSeq - 1
def Corpus.held (c : Corpus) : Nat := c.nextSeq - c.head

/-- The memory that a corpus takes, as address and length. -/
def corpusRanges (c : CorpusCfg) (k : Corpus) : List (Nat × Nat) :=
  let vs := k.current.toList ++ (k.next.map Prod.fst).toList ++ (k.merge.map (·.build)).toList ++ k.old
  vs.map (fun v => (v.base, v.bytes)) ++ k.side.map (fun e => (e.addr, c.entryBytes))
    ++ k.side.flatMap (fun e => e.fine.toList.map fun a => (a, c.fineBytes)) ++ k.loads.map fun l => (l.base, l.total)

end Sys2Proof.Machine
end

