-- ==== Sys2Proof/Machine/Route.lean ====
section
/-! DEFINITION. Addresses of the sub-ports and how a frame leaves one (R324, R325, R327, R328, R332). -/

namespace Sys2Proof.Machine

/-- The MAC of a sub-port (R325). -/
def macOf (sub : Nat) : Nat := Config.macBase + sub

/-- A MAC in transmission order: the most significant byte first. -/
def macBytes (m : Nat) : Bytes := (leBytes 6 m).reverse

/-- A number held most significant byte first, as published headers and addresses hold it (R9). -/
def beNat (bs : Bytes) : Nat := leNat bs.reverse

/-- The link-local IPv6 address of a sub-port: fe80::/64 with the modified EUI-64 of its MAC (R327). -/
def linkLocal (sub : Nat) : Bytes :=
  let m := macBytes (macOf sub)
  [0xFE, 0x80, 0, 0, 0, 0, 0, 0] ++ (m.take 1).map (· ^^^ 2) ++ slice m 1 2 ++ [0xFF, 0xFE] ++ m.drop 3

/-- An IPv6 address has 16 bytes, an IPv4 address 4 (R327). -/
def isV6 (a : Bytes) : Bool := a.length == 16

/-- A group address: ff00::/8, or 224.0.0.0 to 239.255.255.255. -/
def isGroup (a : Bytes) : Bool := if isV6 a then a.take 1 == [0xFF] else decide (uAt a 0 1 / 16 = 14)

/-- The MAC of a group: 33:33 and the last 32 bits of an IPv6 group, 01:00:5e and the last 23 bits of an IPv4 group (PRESUMED, log
entry 149: from the published mapping). -/
def groupMac (a : Bytes) : Nat :=
  if isV6 a then 0x333300000000 + beNat (a.drop 12) else 0x01005E000000 + beNat a % 2 ^ 23

/-- An address of a sub-port's own (R327): its link-local address, or a static one. -/
def PortCfg.owns (c : PortCfg) (sub : Nat) (v6 : Bool) (a : Bytes) : Bool :=
  let own : AddrCfg := lookupD sub c.addrs {}
  if v6 then a == linkLocal sub || (a == own.v6 && !(allZero own.v6)) else a == own.v4 && !(allZero own.v4)

/-- A destination on the link of a sub-port (R327): link-local, or under the prefix of the static address. -/
def PortCfg.onLink (c : PortCfg) (sub : Nat) (a : Bytes) : Bool :=
  let own : AddrCfg := lookupD sub c.addrs {}
  if isV6 a then
    beNat (a.take 2) / 64 == 0x3FA
    || (!(allZero own.v6) && beNat a / 2 ^ (128 - own.plen) == beNat own.v6 / 2 ^ (128 - own.plen))
  else !(allZero own.v4) && beNat a &&& beNat own.mask4 == beNat own.v4 &&& beNat own.mask4

/-- The neighbour that a datagram goes to first (R327): the destination on the link, else the configured gateway; without a gateway the
destination is looked for on the link (DESIGN CHOICE, log entry 149). -/
def PortCfg.nextHop (c : PortCfg) (sub : Nat) (a : Bytes) : Bytes :=
  let own : AddrCfg := lookupD sub c.addrs {}
  let gw := if isV6 a then own.gw6 else own.gw4
  if c.onLink sub a || allZero gw then a else gw

/-- The 802.1Q tag of a sent frame: VLAN and priority, none with VLAN_ID 0 (R325). -/
def PortCfg.tag (c : PortCfg) : Option (Nat × Nat) := if c.vlan = 0 then none else some (c.vlan, c.pcp)

/-- A neighbour is asked for by a solicitation to its solicited-node group, or by a broadcast ARP request (PRESUMED, log entry 149). -/
def askGroup (hop : Bytes) : Bytes :=
  if isV6 hop then [0xFF, 2, 0, 0, 0, 0, 0, 0, 0, 0, 0, 1, 0xFF] ++ hop.drop 13 else [0xFF, 0xFF, 0xFF, 0xFF]
def askMac (hop : Bytes) : Nat := if isV6 hop then groupMac (askGroup hop) else 0xFFFFFFFFFFFF

/-- The discovery group of one IP version (R329, R332). -/
def PortCfg.group (c : PortCfg) (v6 : Bool) : Bytes := if v6 then c.groupV6 else c.groupV4

/-- Time to live of a sent packet where the specification gives it: 1 on the IPv4 copy of a hello (R329). -/
def Out.ttl : Out → Option Nat
  | .hello _ v6 _ => if v6 then none else some 1
  | _ => none

/-- The packet is a UDP datagram (R328: DSCP and ECT(0) go on every datagram). -/
def Out.isDatagram : Out → Bool
  | .datagram _ _ => true
  | .plain _ _ _ _ => true
  | .hello _ _ _ => true
  | _ => false

/-- A packet in its envelope: the tag, the destination's MAC and address, DSCP and ECN codepoint ECT(0) (2) on a datagram. -/
def PortCfg.wrap (c : PortCfg) (sub mac : Nat) (dst : Bytes) (o : Out) : Out :=
  .sent { sub, tag := c.tag, mac, dst, ttl := o.ttl, dscp := if o.isDatagram then c.dscp else 0, ecn := if o.isDatagram then 2 else 0 } o

end Sys2Proof.Machine
end

