-- ==== Sys2Proof/Machine/State.lean ====
section
/-! DEFINITION. The state of the block: everything the manual gives the machine, and the queue of waiting commands. -/

namespace Sys2Proof.Machine

/-- No command of the block stops the machine with a fault: what the manual calls a fault (R99, R444) is a described
change of state. The type has no constructor, so this is checked by its type. Safe. -/
inductive Fault
  deriving DecidableEq, Repr

/-- A command that the model does not give a meaning. -/
inductive Refusal where
  /-- raised by `exec` alone, for a command whose arm has no meaning yet; safe: nothing is claimed of it -/
  | notModelled (mnemonic : String)
  deriving DecidableEq, Repr

/-- The state. -/
structure State where
  /-- the commands that wait, first in, first out -/
  pending : List Instr := []
  /-- what left the device, oldest first (the model's own record of its outputs) -/
  out : List Out := []
  /-- number of free values drawn (the model's own) -/
  free : Nat := 0
  /-- PORT_TICKS (R330) -/
  portTicks : Nat := 0
  /-- the Hopper's count on the MESH clock (R24) -/
  meshCount : Nat := 0
  /-- HBM and tile memory by address (R294); an unlisted byte reads 0 -/
  mem : List Host.Cell := []
  /-- HBM ranges in use, and those awaiting zeroing (R394), as address and length -/
  used : List (Nat × Nat) := []
  zeroing : List (Nat × Nat) := []
  /-- the KV region (R275), and its pages and page-list blocks in use -/
  kvBase : Nat := 0
  kvSize : Nat := 0
  kvUsed : List (Nat × Nat) := []
  fuses : Fuses := {}
  flash : Flash := {}
  pins : Pins := {}
  boot : Boot := {}
  cfg : RunCfg := {}
  fns : Functions := {}
  power : Power := {}
  subs : List (Nat × SubPort) := []
  /-- the MODE and PMD that the sub-ports are trained for (R322, R414) -/
  trained : Nat × Nat := (0, 0)
  peers : List (Nat × PeerEntry) := []
  twin : Twin := {}
  sessions : List Session := []
  handshakes : List Handshake := []
  nextHandshake : Nat := 0
  delivered : List Delivered := []
  /-- payloads of work items in the Hopper's intake (R88, R91) -/
  intakePlain : List Bytes := []
  /-- messages outside a session of which not every datagram has arrived -/
  plainParts : List (Endpoint × Incomplete) := []
  errors : ErrorState := {}
  tele : Telemetry := {}
  /-- counters of the status space that are not 0, by offset (R478, R479) -/
  counters : List (Nat × Nat) := []
  objectGen : Nat := 0
  /-- the request table: entries that are not FREE, by index (R265) -/
  reqs : List (Nat × Request) := []
  /-- order numbers given to admitted requests so far -/
  admitted : Nat := 0
  /-- numbers given to runs of work items so far -/
  runNext : Nat := 0
  /-- keys given to object images so far -/
  keys : Nat := 0
  plans : List Plan := []
  models : List Model := []
  adapters : List Adapter := []
  grammars : List Grammar := []
  prefixes : List Prefix := []
  loads : List Load := []
  /-- removals whose reply waits for the memory to be zeroised (R394), with the ranges still to zero -/
  removals : List (Write × List (Nat × Nat)) := []
  /-- tiles that are not as after power-up, and the pools' run-time state (R20, R120) -/
  tiles : List (Nat × Tile) := []
  pools : List (Nat × PoolRun) := []
  steps : List DecodeStep := []
  completions : List Completion := []
  handoffs : List Handoff := []
  sluiceFlights : List SluiceFlight := []
  ringCredits : List (Nat × Nat × Nat) := []
  sluiceCredits : List SluiceCredit := []
  leats : List LeatFlight := []
  /-- how many handles, credits and payloads have entered the mesh's control class (R93, R94) -/
  meshNext : Nat := 0
  remoteReads : List RemoteRead := []
  /-- table and passage-store versions, hot sets and what tables and stores keep beside them (R196, R215, R248) -/
  tables : List TableVer := []
  stores : List StoreVer := []
  hotSets : List HotVer := []
  tableRuns : List TableRun := []
  storeRuns : List StoreRun := []
  /-- exchanges with owners whose replies are still to come, and the next exchange number (R209) -/
  exchanges : List Exchange := []
  nextXid : Nat := 0
  /-- the corpora and the Wheels (R131, R136) -/
  corpora : List Corpus := []
  wheels : List Wheel := []
  collectives : List Collective := []
  /-- the hot areas do not hold their rows (R412) -/
  hotStale : Bool := false
  /-- HBM copies of the running TEXT section's images by tokeniser: character map, trie, piece table (R109, R221) -/
  textImages : List (Nat × Nat × Nat × Nat) := []
  /-- images of earlier TEXT sections that stages may still read (R109) -/
  textOld : List (Nat × Nat) := []
  deriving DecidableEq, Repr

/-- The machine right after reset: RESET_N is asserted and start-up has not run. -/
def State.reset : State := {}

end Sys2Proof.Machine
end

