-- ==== Sys2Proof/Machine/Ops.lean ====
section
/-! DEFINITION. The named operations over the state: memory, free values, counters, the error log, and sending
(R8 to R11, R294, R330, R348 to R361, R445, R446). -/

namespace Sys2Proof.Machine

-- Memory: HBM and tile memory in one canonical list (R294, R393, R421)

/-- The canonical form: addresses strictly rising and no listed byte equal to 0, which an unlisted address reads. -/
def Memory.wf : List Host.Cell → Bool
  | [] => true
  | [c] => c.2 != 0
  | c :: d :: r => c.2 != 0 && decide (c.1 < d.1) && Memory.wf (d :: r)

/-- The byte at an address. -/
def Memory.read (m : List Host.Cell) (a : Nat) : Byte := lookupD a m 0

/-- One byte written; a zero removes the entry. -/
def Memory.write (m : List Host.Cell) (a : Nat) (b : Byte) : List Host.Cell :=
  match m with
  | [] => if b == 0 then [] else [(a, b)]
  | c :: r =>
    if a < c.1 then (if b == 0 then c :: r else (a, b) :: c :: r)
    else if a = c.1 then (if b == 0 then r else (a, b) :: r)
    else c :: Memory.write r a b

/-- `n` bytes from an address, lowest first (R9). -/
def Memory.readN (m : List Host.Cell) (a n : Nat) : Bytes := (List.range n).map fun i => Memory.read m (a + i)

/-- Bytes written at consecutive addresses. -/
def Memory.writeN (m : List Host.Cell) (a : Nat) : Bytes → List Host.Cell
  | [] => m
  | b :: r => Memory.writeN (Memory.write m a b) (a + 1) r

/-- A range filled with zeros (R393, R394). -/
def Memory.clear (m : List Host.Cell) (a n : Nat) : List Host.Cell :=
  m.filter fun c => decide (c.1 < a) || decide (a + n ≤ c.1)

/-- Bytes of HBM, 1,280 GiB (R294). -/
def hbmBytes : Nat := 0x14000000000
/-- The tile windows (R294). -/
def tileWindow (t : Nat) : Nat := 0x800000000000 + t * 0x100000
/-- An address lies in HBM. -/
def inHbm (a : Nat) : Bool := decide (a < hbmBytes)
/-- The tile whose window an address lies in, and the offset (R59). -/
def tileOf (a : Nat) : Option (Nat × Nat) :=
  if 0x800000000000 ≤ a ∧ a < 0x900000000000 then some ((a - 0x800000000000) / 0x100000, a % 0x100000) else none

/-- The Millpond window: tile t's 384 KiB, all 16 banks, in Millpond mode (R296). -/
def millpondWindow (t : Nat) : Nat := 0x900000000000 + t * 0x60000
/-- The tile memory that an address of the Millpond window names, as the tile windows number it (R296): none beyond the
device's logical tiles. -/
def millpondOf (tiles a : Nat) : Option Nat :=
  if 0x900000000000 ≤ a ∧ a < millpondWindow tiles then
    some (tileWindow ((a - 0x900000000000) / 0x60000) + (a - 0x900000000000) % 0x60000)
  else none

namespace State

def writeMem (s : State) (a : Nat) (bs : Bytes) : State := { s with mem := Memory.writeN s.mem a bs }
def clearMem (s : State) (a n : Nat) : State := { s with mem := Memory.clear s.mem a n }
def readMem (s : State) (a n : Nat) : Bytes := Memory.readN s.mem a n

-- Free values

/-- The next free 32-bit value; the draw advances. -/
def freeW32 (s : State) : W32 × State := (Config.freeW32 s.free, { s with free := s.free + 1 })
/-- The next free number below `k` (0 when `k` is 0). -/
def freeBelow (s : State) (k : Nat) : Nat × State := (Config.freeBelow s.free k, { s with free := s.free + 1 })
/-- The next free number. -/
def freeNat (s : State) : Nat × State := (Config.freeNat s.free, { s with free := s.free + 1 })
/-- `n` fresh bytes of the entropy source (R374). -/
def random (s : State) (n : Nat) : Bytes × State := (fit n (Config.entropy s.free n), { s with free := s.free + 1 })

-- Counters of the status space (R11, R478, R479)

/-- A counter map with `k` more events at an offset; entries rise by offset and are never 0. -/
def addCount (off k : Nat) : List (Nat × Nat) → List (Nat × Nat)
  | [] => if k = 0 then [] else [(off, bump 0 k)]
  | c :: r =>
    if off < c.1 then (if k = 0 then c :: r else (off, bump 0 k) :: c :: r)
    else if off = c.1 then (off, bump c.2 k) :: r
    else c :: addCount off k r

/-- `k` more events of the counter at a status offset. -/
def count (off k : Nat) (s : State) : State := { s with counters := addCount off k s.counters }
/-- The value of a counter. -/
def counter (s : State) (off : Nat) : Nat := lookupD off s.counters 0
/-- A running maximum at a status offset (WHEEL_EVICT_MAX, R319). -/
def countMax (off k : Nat) (s : State) : State := s.count off (k - s.counter off)

/-- Offsets of the counters (R478, R479). -/
def devCtr (i : Nat) : Nat := 0x70000 + 8 * i
def subCtr (sub i : Nat) : Nat := 0x71000 + 0x100 * sub + i
def mwpCtr (i : Nat) : Nat := 0x71000 + i
def poolCtr (p i : Nat) : Nat := 0x80000 + 0x10000 * p + i
def tileCtr (t i : Nat) : Nat := 0x100000 + 0x100 * t + i
def bgLate (i : Nat) : Nat := 0x72000 + 0x10 * i
def bgSlots (i : Nat) : Nat := 0x72000 + 0x10 * i + 8

-- The error log (R444 to R446)

/-- The class of a cause (R446). -/
def causeClass (cause : Nat) : Nat :=
  if [0x01, 0x08, 0x09, 0x10, 0x14, 0x18].contains cause then 0
  else if [0x02, 0x0A, 0x0B, 0x19, 0x20, 0x21, 0x28].contains cause then 1
  else if [0x29, 0x2C, 0x2D, 0x30].contains cause then 2
  else 3

/-- An event before it is logged. -/
structure Event where
  cause : Nat
  unit : Nat
  unitIndex : Nat := 0
  addr : Nat := 0
  req : Option Nat := none
  functions : Nat := 0
  detail : Nat := 0
  deferred : Bool := false
  escalated : Bool := false
  cls : Option Nat := none
  deriving DecidableEq, Repr

/-- The newest entry that a repeated event adds to (R446). -/
def sameEvent (now : Nat) (e : Event) (l : LogEntry) : Bool :=
  l.unit == e.unit && l.unitIndex == e.unitIndex && l.cause == e.cause && decide (now ≤ l.ticks + 156250000)

/-- An event is written to the error log, or added to a recent matching entry, and counted by class (R445, R446, R477).
The newest entry stands first. -/
def logEvent (e : Event) (s : State) : State :=
  let cls := e.cls.getD (causeClass e.cause)
  let tele := { s.tele with errs := s.tele.errs.modify cls (bump · 1) }
  let log := s.errors
  let merge := (cls == 0 || e.cause == 0x20 || e.cause == 0x21) && log.entries.any (sameEvent s.portTicks e)
  if merge then
    let entries := modifyFirst (sameEvent s.portTicks e) (fun l => { l with count := satTo 16 (l.count + 1) }) log.entries
    { s with tele, errors := { log with entries } }
  else if log.frozen && decide (1024 ≤ log.entries.length) then { s with tele }
  else
    let seq := (log.head + 1) % 2 ^ 32
    let entry : LogEntry := {
      ticks := satTo 64 s.portTicks, addr := e.addr, count := 1, seq, req := e.req, functions := e.functions,
      unitIndex := e.unitIndex, cause := e.cause, unit := e.unit, escalated := e.escalated, deferred := e.deferred, cls,
      detail := e.detail }
    let full := decide (1024 ≤ log.entries.length)
    let s' := { s with
      tele
      errors := { log with entries := (entry :: log.entries).take 1024, head := seq, frozen := log.frozen || cls == 3 } }
    if full then s'.count (devCtr 16) 1 else s'

-- Time

/-- PORT_TICKS of a number of microseconds (R330): 156.25 per µs, rounded up. -/
def ticksOfUs (us : Nat) : Nat := ceilDiv (us * 15625) 100
def ticksOfMs (ms : Nat) : Nat := ms * 156250

/-- The port's clock reaches at least a moment. -/
def atLeast (t : Nat) (s : State) : State := { s with portTicks := max s.portTicks t }

-- Sessions and sending (R348 to R356)

/-- The session of an id. -/
def session? (s : State) (sid : Nat) : Option Session := s.sessions.find? (·.id == sid)

def withSession (s : State) (sid : Nat) (f : Session → Session) : State :=
  { s with sessions := modifyFirst (·.id == sid) f s.sessions }

def emit (o : Out) (s : State) : State := { s with out := s.out ++ [o] }

/-- A frame leaves by a sub-port; a PFC pause holds it back (R326). -/
def transmit (sub : Nat) (o : Out) (s : State) : State :=
  if s.subs.any fun p => p.1 == sub && decide (0 < p.2.pauseQuanta) then
    { s with subs := s.subs.map fun p => if p.1 == sub then (p.1, { p.2 with held := p.2.held ++ [o] }) else p }
  else s.emit o

/-- The static addresses of a sub-port (R327). -/
def addrOf (s : State) (sub : Nat) : AddrCfg := lookupD sub s.cfg.port.addrs {}

/-- Where a packet is addressed to (R327, R332). -/
def destOf (s : State) : Out → Bytes
  | .datagram sid _ => ((s.session? sid).map (·.peer.addr)).getD []
  | .plain _ dst _ _ => dst.addr
  | .hello _ v6 _ => s.cfg.port.group v6
  | .echo _ dst _ _ => dst.addr
  | _ => []

/-- A packet leaves by a sub-port (R325, R327, R328): to a group at once, else to the next hop once that neighbour is resolved; while it
is not, the neighbour is asked for and the packet waits. -/
def emitOn (sub : Nat) (o : Out) (s : State) : State :=
  let c := s.cfg.port
  let dst := s.destOf o
  if isGroup dst then s.transmit sub (c.wrap sub (groupMac dst) dst o)
  else
    let hop := c.nextHop sub dst
    match ((lookupD sub s.subs {}).neighbors.find? (·.1 == hop)).map (·.2) with
    | some mac => s.transmit sub (c.wrap sub mac dst o)
    | none =>
      let s : State := { s with
        subs := s.subs.map fun p => if p.1 == sub then (p.1, { p.2 with awaiting := p.2.awaiting ++ [(hop, dst, o)] }) else p }
      s.transmit sub (c.wrap sub (askMac hop) (askGroup hop) (.neighbor sub (isV6 hop) false hop (macOf sub)))

/-- A neighbour of a sub-port is resolved (R327): what waited for it leaves in order. The unspecified address is nobody. -/
def neighborIs (sub : Nat) (a : Bytes) (mac : Nat) (s : State) : State :=
  if allZero a then s else
  let c := s.cfg.port
  let ready := (lookupD sub s.subs {}).awaiting.filter (·.1 == a)
  let s : State := { s with subs := s.subs.map fun p => if p.1 == sub then (p.1, { p.2 with
    neighbors := (p.2.neighbors.filter (·.1 != a)) ++ [(a, mac)], awaiting := p.2.awaiting.filter (·.1 != a) }) else p }
  ready.foldl (fun s w => s.transmit sub (c.wrap sub mac w.2.1 w.2.2)) s

/-- The device may send: RESET_N is high, it has not halted, OFF_PREP has not silenced the port. -/
def portLive (s : State) : Bool := !s.pins.resetLow && !s.boot.halted && !s.boot.offPrep && s.boot.service != 0

/-- A datagram leaves toward a session's partner on a sub-port at this tick (R336). -/
def noteSent (sess : Session) (s : State) : State :=
  { s with peers := s.peers.map fun p =>
      if p.2.session == sess.id && sess.id != 0 then (p.1, { p.2 with sentAt := insertKey sess.sub s.portTicks p.2.sentAt }) else p }

/-- The SEQ after one (R350). -/
def nextSeq (n : Nat) : Nat := if n = 0xFFFFFFFF then 1 else n + 1

/-- A datagram takes the session's next SEQ and leaves (R350, R352): the phase changes at 0x8000_0000 and at 1. -/
def launch (sid : Nat) (d : TxDatagram) (s : State) : State :=
  match s.session? sid with
  | none => s
  | some q =>
    let next := nextSeq q.txSeq
    let d' := { d with
      seq := q.txSeq, ack := q.rxLargest, ecnEcho := decide (0 < q.ceBytes), phase := q.txPhase, sentAt := s.portTicks }
    let s := s.withSession sid fun q => { q with
      txSeq := next, txPhase := if next = 0x80000000 ∨ next = 1 then q.txPhase + 1 else q.txPhase, unacked := if d.noAck then q.unacked else q.unacked ++ [d'] }
    (s.emitOn q.sub (.datagram sid d')).noteSent q

/-- Bytes of a datagram with header and tag (R348). -/
def TxDatagram.size (d : TxDatagram) : Nat := 48 + d.payload.length

/-- Datagram bytes sent and not acknowledged (R354). -/
def Session.inFlight (q : Session) : Nat := (q.unacked.map TxDatagram.size).sum

/-- Waiting datagrams start while they fit into the window (R354). -/
def pump (sid : Nat) : List TxDatagram → State → State
  | [], s => s.withSession sid fun q => { q with queue := [] }
  | d :: r, s =>
    match s.session? sid with
    | none => s
    | some q =>
      if Session.inFlight q + TxDatagram.size d ≤ q.window then pump sid r (s.launch sid d)
      else s.withSession sid fun q => { q with queue := d :: r }

/-- A message of a session: fragments of MAX_PAYLOAD bytes under the next MSG_ID (R329, R355). -/
def sendMessage (sid type ctx : Nat) (noAck : Bool) (payload : Bytes) (s : State) : State :=
  match s.session? sid with
  | none => s
  | some q =>
    if s.portLive then
      let l := s.cfg.port.maxPayload
      let n := max 1 (ceilDiv payload.length l)
      let ds := (List.range n).map fun i =>
        { seq := 0, ack := 0, msgId := q.txMsg, idx := i, count := n, type, ctx, noAck, ecnEcho := false, phase := 0,
          payload := slice payload (l * i) l, sentAt := 0 : TxDatagram }
      let s := s.withSession sid fun q => { q with txMsg := (q.txMsg + 1) % 2 ^ 32 }
      if noAck then ds.foldl (fun s d => s.launch sid d) s
      else s.pump sid (q.queue ++ ds)
    else s

/-- A message outside a session (R349). -/
def sendPlain (sub : Nat) (dst : Endpoint) (type : Nat) (payload : Bytes) (s : State) : State :=
  if s.portLive then s.emitOn sub (.plain sub dst type payload) else s

/-- The reply to a message (R355, R358): CONTEXT with the MSG_ID and status, the 16-byte reply header, then data. A
refusal is counted by its status (R478). -/
def reply (sid msgId : Nat) (o : Outcome) (wid : Nat) (s : State) : State :=
  let hdr := record 16 [(0, o.reason), (16, o.detail % 2 ^ 32), (64, wid)]
  let s := s.sendMessage sid 6 (msgId + o.status * 2 ^ 32) false (hdr ++ o.data)
  if inRange 0x100 0x103 o.status then s.count (devCtr (1 + (o.status - 0x100))) 1 else s

/-- A durable write has ended: it is answered, and with it every write of its WRITE_ID that came meanwhile (R358). -/
def endWrite (w : Write) (o : Outcome) (s : State) : State :=
  let again := s.twin.repeats.filter (·.writeId == w.writeId)
  let s : State := { s with twin := { s.twin with repeats := s.twin.repeats.filter (·.writeId != w.writeId) } }
  (w :: again).foldl (fun (s : State) x => s.reply x.session x.msgId o x.writeId) s

end State

-- Statuses (R371) and reply reasons (R358)

def stDone : Nat := 0
def stDoneStop : Nat := 1
def stDoneGrammar : Nat := 2
def stDoneLength : Nat := 3
def stCapacity : Nat := 0x100
def stShare : Nat := 0x101
def stStopped : Nat := 0x102
def stUnknown : Nat := 0x103
def stTextInvalid : Nat := 0x200
def stGrammarDead : Nat := 0x201
def stDeadline : Nat := 0x202
def stVersionGone : Nat := 0x203
def stPeerLost : Nat := 0x204
def stContained : Nat := 0x205
def stCancelled : Nat := 0x206

def refuse (status reason : Nat) (detail : Nat := 0) : Outcome := { status, reason, detail }
def refMalformed : Outcome := refuse stUnknown 0x100
def refBusy : Outcome := refuse stCapacity 0x101
def refNotHeld : Outcome := refuse stUnknown 0x102
def refOrder : Outcome := refuse stUnknown 0x103
def refWrongState : Outcome := refuse stUnknown 0x104
def refIncomplete : Outcome := refuse stUnknown 0x105
def refNoMemory : Outcome := refuse stCapacity 0x106
def refLimit : Outcome := refuse stCapacity 0x107
def refAuth : Outcome := refuse stUnknown 0x108
def refSuperseded : Outcome := refuse stUnknown 0x109
def refFetchFailed : Outcome := refuse stUnknown 0x10A
def refTwinState : Outcome := refuse stStopped 0x10B
def refNotPermitted : Outcome := refuse stUnknown 0x10C
def refCheck : Outcome := refuse stUnknown 0x10D
def refStopped : Outcome := refuse stStopped 0

/-- The refusal of a section that fails (R415). -/
def Fail.outcome : Fail → Outcome
  | .malformed => refMalformed
  | .check => refCheck

-- Functions (R410)

/-- Function bits of R410. -/
def fnPort : Nat := 1
def fnHopper : Nat := 2
def fnPools : Nat := 4
def fnWheel : Nat := 8
def fnLookup : Nat := 16
def fnText : Nat := 32
def fnServe : Nat := 64
def fnTwin : Nat := 128

/-- Every function that a stopped mask stops with it (R410). -/
def stopClosure (m : Nat) : Nat :=
  let m1 := if bitAt m 0 then m ||| 0xFF else m
  let m2 := if bitAt m1 1 then m1 ||| 0x7E else m1
  if bitAt m2 2 then m2 ||| 0x7C else m2

/-- What a function needs directly (R410). -/
def fnNeeds (f : Nat) : Nat :=
  match f with
  | 1 => 1
  | 2 => 2
  | 3 => 4
  | 4 => 4
  | 5 => 4
  | 6 => 4
  | 7 => 1
  | _ => 0

/-- Bits of `a` that `b` does not have. -/
def maskWithout (a b : Nat) : Nat := a - (a &&& b)

/-- The functions that a draining STOP in progress stops: they refuse messages, and work on for the requests in flight (R411). -/
def State.drainMask (s : State) : Nat :=
  match s.fns.current with
  | some c => if c.type == 0x50 && !(bitAt (uAt c.payload 0 16) 8) then c.functions else 0
  | none => 0

/-- The functions that STOP messages waiting for their turn stop: they refuse messages from the arrival of the STOP (R411, R413). -/
def State.stopsWaiting (s : State) : Nat :=
  (s.fns.waiting.filter fun c => c.type == 0x50 && c.payload.length == 16 && fld (uAt c.payload 0 16) 127 9 == 0).foldl
    (fun m c => m ||| stopClosure (fld (uAt c.payload 0 16) 7 0)) 0

/-- Every function of a mask runs, and takes messages (R410, R411). -/
def State.runs (s : State) (m : Nat) : Bool := maskWithout s.fns.running s.stopsWaiting &&& m == m

/-- Every function of a mask works: it runs, or drains (R411). -/
def State.works (s : State) (m : Nat) : Bool := (s.fns.running ||| s.drainMask) &&& m == m

end Sys2Proof.Machine
end

