-- ==== Sys2Proof/Machine/Objects.lean ====
section
/-! DEFINITION. HBM allocation and release (R68, R295, R394), the KV region (R275), and the held object versions as the
object directory and the attestation report list them (R379, R380, R480). -/

namespace Sys2Proof.Machine

/-- The HBM stack of an address (R297). -/
def stackOf (a : Nat) : Nat :=
  [8, 12, 16, 20, 24, 28, 32, 36].foldl (fun g i => g ^^^ (a / 2 ^ i % 16)) (a / 2 ^ 40 % 2)

/-- The free intervals between taken ranges (address, length) sorted by address, from `lo` up to `hi`. -/
def gapsFrom (hi : Nat) : Nat → List (Nat × Nat) → List (Nat × Nat)
  | lo, [] => [(lo, hi)]
  | lo, r :: rest => (lo, min r.1 hi) :: gapsFrom hi (max lo (r.1 + r.2)) rest

/-- Aligned places for `n` bytes in a free interval. -/
def placesIn (n align : Nat) (g : Nat × Nat) : Nat :=
  let first := alignUp g.1 align
  if first + n ≤ g.2 then (g.2 - n - first) / align + 1 else 0

/-- The `i`-th place over some free intervals. -/
def placeAt (n align : Nat) : Nat → List (Nat × Nat) → Option Nat
  | _, [] => none
  | i, g :: r =>
    let k := placesIn n align g
    if i < k then some (alignUp g.1 align + align * i) else placeAt n align (i - k) r

/-- The aligned 4 KiB blocks of listed lines, never allocated again (R447). -/
def badBlocks (s : State) : List (Nat × Nat) := s.errors.badLines.map fun l => (l * 64 / 4096 * 4096, 4096)

/-- A place for `n` bytes between two addresses, clear of the taken ranges: any that fits (R295: the device places). -/
def pickPlace (lo hi n align : Nat) (taken : List (Nat × Nat)) (s : State) : Option (Nat × State) :=
  let gs := gapsFrom hi lo (sortBy (fun a b => decide (a.1 ≤ b.1)) taken)
  let k := (gs.map (placesIn n align)).sum
  if k = 0 then none
  else
    let f := s.freeBelow k
    (placeAt n align f.1 gs).map fun a => (a, f.2)

namespace State

/-- Where a request table entry holds a payload that rode the Leat (R25): 512 bytes at the end of HBM, which no object takes (log 141). -/
def entryPayload (r : Nat) : Nat := hbmBytes - 0x200000 + 512 * r

/-- `n` bytes of HBM, aligned; none when no free range holds them. -/
def alloc (n align : Nat) (s : State) : Option (Nat × State) :=
  (pickPlace 0 (entryPayload 0) n align (s.used ++ s.zeroing ++ badBlocks s) s).map fun r =>
    (r.1, { r.2 with used := (r.1, n) :: r.2.used })

/-- `n` bytes of the KV region on a 128-byte boundary (R275). -/
def allocKv (n : Nat) (s : State) : Option (Nat × State) :=
  (pickPlace s.kvBase (s.kvBase + s.kvSize) n 128 (s.kvUsed ++ s.zeroing ++ badBlocks s) s).map fun r =>
    (r.1, { r.2 with kvUsed := (r.1, n) :: r.2.kvUsed })

/-- `k` KV ranges of one size. -/
def allocKvN (n : Nat) : Nat → State → Option (List Nat × State)
  | 0, s => some ([], s)
  | k + 1, s =>
    match s.allocKv n with
    | none => none
    | some (a, s) => (allocKvN n k s).map fun r => (a :: r.1, r.2)

/-- Two ranges meet. -/
def meets (a n b m : Nat) : Bool := decide (a < b + m) && decide (b < a + n)

/-- Bytes written to HBM: a listed line that they cover in part does not change, one they cover whole
leaves the table (R447). -/
def portWrite (a : Nat) (bs : Bytes) (s : State) : State :=
  let hit := s.errors.badLines.filter fun l => meets a bs.length (l * 64) 64
  if hit.isEmpty then s.writeMem a bs
  else
    let part := hit.filter fun l => decide (l * 64 < a) || decide (a + bs.length < l * 64 + 64)
    let bs := bs.zipIdx.map fun (b, i) => if part.contains ((a + i) / 64) then Memory.read s.mem (a + i) else b
    { s.writeMem a bs with errors := { s.errors with badLines := s.errors.badLines.filter fun l => !(hit.contains l) || part.contains l } }

/-- A range of HBM holds a listed line. -/
def hasBadLine (s : State) (a n : Nat) : Bool := s.errors.badLines.any fun l => meets a n (l * 64) 64

/-- Every tile drops its cached lines of a range, without writing them back (R68). -/
def dropLines (a n : Nat) (s : State) : State :=
  { s with tiles := s.tiles.map fun t => (t.1, { t.2 with cache := t.2.cache.filter fun l => !(meets a n l.addr 128) }) }

/-- A range is given back: it awaits zeroing and counts as in use until then (R394). -/
def release (a n : Nat) (s : State) : State :=
  if n = 0 then s else
    let s := s.dropLines a n
    { s with used := s.used.erase (a, n), kvUsed := s.kvUsed.erase (a, n), zeroing := s.zeroing ++ [(a, n)] }

def releaseAll (rs : List (Nat × Nat)) (s : State) : State := rs.foldl (fun s r => s.release r.1 r.2) s

-- Object versions as listed (R380, R480)

def TableVer.obj (v : TableVer) : Obj :=
  { kind := 5, id := v.table, version := v.version, base := v.base, bytes := (v.slabs.map fun x => x.2.2).sum
    state := if v.released then 4 else v.state, digest := v.digest, damaged := v.damaged }
def StoreVer.obj (v : StoreVer) : Obj :=
  { kind := 6, id := v.store, version := v.version, base := (v.passages.map (·.addr)).foldl min ((v.passages.head?.map (·.addr)).getD 0)
    bytes := (v.passages.map fun p => 4 * p.tokens).sum, state := if v.released then 4 else v.state, digest := v.digest, damaged := v.damaged }
def CorpusVer.obj (c state : Nat) (v : CorpusVer) : Obj :=
  { kind := 7, id := c, version := v.version, base := v.base, bytes := v.bytes, state, digest := v.digest, mark := v.mark, damaged := v.damaged }
def HotVer.obj (v : HotVer) : Obj :=
  { kind := 8, id := v.table, version := v.version, base := v.replica, bytes := v.replicaBytes
    state := if v.current then 2 else 3, digest := v.digest }
def Corpus.objs (c : Corpus) : List Obj :=
  (c.current.map (CorpusVer.obj c.id 2)).toList ++ (c.next.map fun n => CorpusVer.obj c.id 1 n.1).toList
    ++ (c.merge.map fun m => CorpusVer.obj c.id 0 m.build).toList ++ c.old.map (CorpusVer.obj c.id 4)
    ++ c.loads.map fun l => { kind := 7, id := c.id, version := l.version, base := l.base, bytes := l.total, state := 0 }

/-- The list order of R380: kind, id, version. -/
def objLe (a b : Obj) : Bool :=
  decide (a.kind < b.kind) || (a.kind == b.kind && (decide (a.id < b.id) || (a.id == b.id && decide (a.version ≤ b.version))))

/-- Every object version held, in ascending kind, id and version (R380, R480). -/
def objects (s : State) : List Obj :=
  sortBy objLe (s.plans.map (·.obj) ++ s.models.map (·.obj) ++ s.adapters.map (·.obj) ++ s.grammars.map (·.obj)
    ++ s.tables.map TableVer.obj ++ s.stores.map StoreVer.obj ++ s.corpora.flatMap Corpus.objs ++ s.hotSets.map HotVer.obj)

/-- The image that a request admitted now binds under an id (R28, R115). -/
def plan? (s : State) (id : Nat) : Option Plan := s.plans.find? fun p => p.obj.id == id && p.obj.state == 2
def planKey? (s : State) (key : Nat) : Option Plan := s.plans.find? (·.obj.key == key)
def model? (s : State) (id : Nat) : Option Model := s.models.find? fun p => p.obj.id == id && p.obj.state == 2
def modelKey? (s : State) (key : Nat) : Option Model := s.models.find? (·.obj.key == key)
def adapter? (s : State) (id : Nat) : Option Adapter := s.adapters.find? fun p => p.obj.id == id && p.obj.state == 2
def adapterVer? (s : State) (id v : Nat) : Option Adapter := s.adapters.find? fun p => p.obj.id == id && p.obj.version == v
def grammar? (s : State) (id : Nat) : Option Grammar := s.grammars.find? fun p => p.obj.id == id && p.obj.state == 2
def grammarKey? (s : State) (key : Nat) : Option Grammar := s.grammars.find? (·.obj.key == key)

/-- A fresh key for an image. -/
def newKey (s : State) : Nat × State := (s.keys + 1, { s with keys := s.keys + 1 })

/-- Images that nothing binds any more (R115, R274, R291, R312): each is freed with its memory. -/
def planBound (s : State) (key : Nat) : Bool := s.reqs.any fun r => r.2.planImage == key
def modelBound (s : State) (key : Nat) : Bool := s.reqs.any fun r => (r.2.model.map (·.2)) == some key
def adapterBound (s : State) (id v : Nat) : Bool :=
  (s.reqs.any fun r => r.2.adapter == some (id, v)) || s.prefixes.any fun p => p.adapter == some (id, v)
def grammarBound (s : State) (key : Nat) : Bool := s.reqs.any fun r => (r.2.grammar.map (·.2)) == some key

/-- A hot-set version is held by a request, a table or store version by a request or by a hot-set version that one holds (R200,
R216, R249). -/
def hotBound (s : State) (v : HotVer) : Bool := s.reqs.any fun r => r.2.tables.contains (8, v.table, v.version)
def tableBound (s : State) (id v : Nat) : Bool :=
  (s.reqs.any fun r => r.2.tables.contains (5, id, v)) || s.hotSets.any fun h => h.table == id && h.forVersion == v && s.hotBound h
def storeBound (s : State) (id v : Nat) : Bool := s.reqs.any fun r => r.2.tables.contains (6, id, v)

/-- Released table and store versions that nothing holds are freed, slabs and passages that no version refers to with them
(R200, R249); so are hot-set versions that a newer one replaced (R216). -/
def reapStores (s : State) : State :=
  let hs := s.hotSets.filter fun v => !v.current && !(s.hotBound v)
  let ts := s.tables.filter fun v => v.released && !(s.tableBound v.table v.version)
  let ps := s.stores.filter fun v => v.released && !(s.storeBound v.store v.version)
  if hs.isEmpty && ts.isEmpty && ps.isEmpty then s else
    let keepT := s.tables.filter fun v => !(ts.contains v)
    let keepS := s.stores.filter fun v => !(ps.contains v)
    let slabs := ((ts.flatMap fun v => v.slabs.map Prod.snd).eraseDups).filter fun r => !(keepT.any fun v => v.slabs.any (·.2 == r))
    let toks := ((ps.flatMap fun v => v.passages.map fun p => (p.addr, 4 * p.tokens)).eraseDups).filter fun r =>
      !(keepS.any fun v => v.passages.any (·.addr == r.1))
    let s : State := { s with
      tables := keepT, stores := keepS, hotSets := s.hotSets.filter fun v => !(hs.contains v), objectGen := satTo 64 (s.objectGen + 1) }
    s.releaseAll (slabs ++ ts.map (fun v => (v.base, 4096)) ++ toks ++ hs.map fun v => (v.replica, v.replicaBytes))

/-- Every image that is no longer the one its id names, and that nothing holds, is freed. -/
def reap (s : State) : State :=
  let s := s.reapStores
  let ps := s.plans.filter fun p => p.obj.state != 2 && !(s.planBound p.obj.key)
  let ms := s.models.filter fun p => p.obj.state != 2 && !(s.modelBound p.obj.key)
  let as' := s.adapters.filter fun p => p.obj.state != 2 && !(s.adapterBound p.obj.id p.obj.version)
  let gs := s.grammars.filter fun p => p.obj.state != 2 && !(s.grammarBound p.obj.key)
  let gone := ps.map (·.obj) ++ ms.map (·.obj) ++ as'.map (·.obj) ++ gs.map (·.obj)
  if gone.isEmpty then s else
    let s := { s with
      plans := s.plans.filter fun p => !(gone.contains p.obj), models := s.models.filter fun p => !(gone.contains p.obj)
      adapters := s.adapters.filter fun p => !(gone.contains p.obj), grammars := s.grammars.filter fun p => !(gone.contains p.obj)
      objectGen := satTo 64 (s.objectGen + 1) }
    s.releaseAll (gone.map fun o => (o.base, o.bytes))

end State
end Sys2Proof.Machine
end

