-- ==== Sys2Proof/Machine/Handles.lean ====
section
/-! DEFINITION. Handles (R83, R84), tiles and pools by index (R7, R20, R21, R101), and access to tile and pool state. -/

namespace Sys2Proof.Machine

-- Handles (R83)

/-- An HBM-form handle of `n` bytes at an address (1 ≤ n ≤ 4,194,176). -/
def hbmHandle (addr n tag : Nat) : Nat :=
  let lines := ceilDiv n 128
  packed [(0, lines), (15, addr / 128), (49, lines * 128 - n), (57, tag), (63, 1)]

/-- A tile-form handle. -/
def tileHandle (t off n gen tag : Nat) : Nat := packed [(0, t), (11, off), (30, n), (49, gen), (57, tag)]

def isHbmHandle (h : Nat) : Bool := bitAt h 63
def handleLast (h : Nat) : Bool := bitAt h 62
def handlePoison (h : Nat) : Bool := bitAt h 61
def handleTag (h : Nat) : Nat := fld h 60 57
/-- Bytes that a handle names. -/
def handleBytes (h : Nat) : Nat := if isHbmHandle h then fld h 14 0 * 128 - fld h 55 49 else fld h 48 30
/-- Address of the buffer that a handle names. -/
def handleAddr (h : Nat) : Nat := if isHbmHandle h then fld h 48 15 * 128 else tileWindow (fld h 10 0) + fld h 29 11
def setLast (h : Nat) : Nat := if handleLast h then h else h + 2 ^ 62
def setPoison (h : Nat) : Nat := if handlePoison h then h else h + 2 ^ 61

/-- The source of handles that the Hopper sends, and that no tile has. -/
def hopperSrc : Nat := 4096

-- Tiles and pools

/-- The logical tiles of the part (R7). -/
def State.tileCount (s : State) : Nat := 32 * s.fuses.part.cols
def State.tileCol (s : State) (t : Nat) : Nat := t % s.fuses.part.cols
def State.tileRow (s : State) (t : Nat) : Nat := t / s.fuses.part.cols

/-- The pool of a tile (R16). -/
def State.poolOf (s : State) (t : Nat) : Option Nat :=
  if t < s.tileCount then s.cfg.pools.findIdx? fun p => decide (p.firstCol ≤ s.tileCol t) && decide (s.tileCol t < p.last) else none
def State.poolCfg? (s : State) (p : Nat) : Option PoolCfg := s.cfg.pools[p]?

/-- The tile of a pool-relative index (R101). -/
def State.poolTile (s : State) (p i : Nat) : Nat :=
  match s.poolCfg? p with
  | some c => i / c.cols * s.fuses.part.cols + c.firstCol + i % c.cols
  | none => 0
/-- The pool-relative index of a tile. -/
def State.relIndex (s : State) (p t : Nat) : Nat :=
  match s.poolCfg? p with
  | some c => s.tileRow t * c.cols + (s.tileCol t - c.firstCol)
  | none => 0
/-- The tiles of a pool, in ascending index. -/
def State.poolTiles (s : State) (p : Nat) : List Nat :=
  match s.poolCfg? p with
  | some c => (List.range (32 * c.cols)).map fun i => i / c.cols * s.fuses.part.cols + c.firstCol + i % c.cols
  | none => []

/-- A pool's tiles are clocked and powered (R423, R430): a pool being gated works until its requests have drained. -/
def State.poolActive (s : State) (p : Nat) : Bool :=
  s.power.state == 0 && s.power.arraysClocked && (!(bitAt s.power.gate p) || s.power.draining.any (·.1 == p)) && decide (p < s.cfg.pools.length) && s.boot.service == 1

namespace State

def tile (s : State) (t : Nat) : Tile := lookupD t s.tiles {}
def setTile (s : State) (t : Nat) (f : Tile → Tile) : State := { s with tiles := insertKey t (f (s.tile t)) s.tiles }
def pool (s : State) (p : Nat) : PoolRun := lookupD p s.pools {}
def setPool (s : State) (p : Nat) (f : PoolRun → PoolRun) : State := { s with pools := insertKey p (f (s.pool p)) s.pools }

def req? (s : State) (r : Nat) : Option Request := (s.reqs.find? (·.1 == r)).map (·.2)
def setReq (s : State) (r : Nat) (f : Request → Request) : State :=
  { s with reqs := s.reqs.map fun p => if p.1 == r then (p.1, f p.2) else p }
/-- An undecided request in an entry, with its order number. -/
def live? (s : State) (r order : Nat) : Option Request := (s.req? r).filter fun q => q.order == order && q.status.isNone

/-- The generation of a page of tile memory (R84). -/
def gen (s : State) (t page : Nat) : Nat := lookupD page (s.tile t).gens 0

/-- A buffer in tile memory is released: the generations of its pages advance (R84). -/
def releaseBuffer (h : Nat) (s : State) : State :=
  if isHbmHandle h || handleBytes h == 0 then s
  else
    let t := fld h 10 0
    let first := fld h 29 11 / 4096
    let last := (fld h 29 11 + handleBytes h - 1) / 4096
    s.setTile t fun x => { x with
      gens := (List.range (last + 1 - first)).foldl (fun g i => insertKey (first + i) ((lookupD (first + i) g 0 + 1) % 256) g) x.gens }

def releaseBuffers (hs : List Nat) (s : State) : State := hs.foldl (fun s h => s.releaseBuffer h) s

/-- A run of tile `t` has handles that wait for a credit (R85). -/
def waitsForCredit (s : State) (t run : Nat) : Bool := s.sluiceFlights.any fun f => f.src == t && f.run == run && !f.credit

/-- The items of a tile that waited for credits and have them all now end: their records leave and the tile is free (R85, R105). -/
def settleClosing (t : Nat) (s : State) : State :=
  let ready := (s.tile t).closing.filter fun c => c.done.isSome && !(s.waitsForCredit t c.x.run)
  if ready.isEmpty then s
  else
    { s.setTile t fun y => { y with
        closing := y.closing.filter fun c => !(ready.contains c)
        running := y.running.filter fun z => !(ready.any fun c => c.x.run == z.run) } with
      completions := s.completions ++ ready.filterMap (·.done) }

/-- The stage whose rings a work item uses (R82): its request's order and number, and the stage. -/
def stageKey (i : Item) : Nat × Nat := (i.reqOrder * 4096 + i.req, i.stage)

/-- Head and tail of a ring of a tile as a stage sees them: 0 when the stage has not used it, since a stage that starts on the tile finds
its rings empty (R82, log 137). They are kept as counts, of which R81's 8-bit head and tail are the residues, so that step i goes to slot
i mod N for every N (R80). -/
def ringOf (s : State) (t ring : Nat) (key : Nat × Nat) : Nat × Nat :=
  match (s.tile t).rings.find? fun r => r.id == ring && r.owner == key with
  | some r => (r.head, r.tail)
  | none => (0, 0)
def setRing (t ring : Nat) (key v : Nat × Nat) (s : State) : State :=
  s.setTile t fun x => { x with rings := { id := ring, owner := key, head := v.1, tail := v.2 } :: x.rings.filter (·.id != ring) }

/-- The slots left in some rings (R82). -/
def ringResidue (rs : List Ring) : Nat := (rs.map fun r => r.tail - r.head).sum

/-- A stage ends: its rings on every tile are emptied, and the slots left in them counted (R82). -/
def endRings (key : Nat × Nat) (s : State) : State :=
  (s.tiles.filter fun t => t.2.rings.any (·.owner == key)).foldl (fun (s : State) t =>
    (s.setTile t.1 fun x => { x with rings := x.rings.filter (·.owner != key) }).count (tileCtr t.1 0x18)
      (ringResidue (t.2.rings.filter (·.owner == key)))) s

/-- A buffer of the request's device area (R113): at the next 128-byte boundary, or none when it does not fit. -/
def devAlloc (r n : Nat) (s : State) : Option (Nat × State) :=
  match s.req? r with
  | none => none
  | some q =>
    let a := alignUp q.devNext 128
    if a + n ≤ q.devEnd then some (a, s.setReq r fun q => { q with devNext := a + n }) else none

end State
end Sys2Proof.Machine
end

