-- ==== Sys2Proof/Machine/Requests.lean ====
section
/-! DEFINITION. Ending and freeing requests: results and trailers (R361), what every ending does (R87, R125, R240, R270,
R271), the return of an entry to FREE (R113, R266, R275), and abandoned loads (R363). -/

namespace Sys2Proof.Machine

/-- The text state record of R236 as the model lays it out: held bytes, whether a stop string matched, q_S, held tail. -/
structure TextState where
  held : Bytes := []
  matched : Bool := false
  q : List Nat := List.replicate 8 0
  tail : Bytes := []
  deriving DecidableEq, Repr

def TextState.encode (x : TextState) : Bytes :=
  fit 256 (leBytes 1 x.held.length ++ fit 3 x.held ++ leBytes 1 (b01 x.matched) ++ leBytes 1 x.tail.length ++ zeros 2
    ++ fit 8 (x.q.map (BitVec.ofNat 8)) ++ x.tail)
def TextState.decode (bs : Bytes) : TextState :=
  { held := slice bs 1 (uAt bs 0 1), matched := uAt bs 4 1 != 0, q := (slice bs 8 8).map (·.toNat), tail := slice bs 16 (uAt bs 5 1) }

/-- U+FFFD (R225). -/
def replacement : Bytes := [0xEF, 0xBF, 0xBD]

/-- An ending that flushes held bytes (R240). -/
def flushes (status : Nat) : Bool := status == stDone || status == stDoneLength || status == stDoneGrammar || status == stGrammarDead

/-- The entry state after the last acknowledgement (R266). -/
def terminalState (status : Nat) : Nat := if status < 0x100 then 8 else if status == stCancelled then 10 else 9

namespace State

/-- The plan image that a request bound. -/
def planOf (s : State) (q : Request) : Option Plan := s.planKey? q.planImage
/-- The kind of a stage of a request's plan. -/
def stageOf (s : State) (q : Request) (st : Nat) : Option Stage := (s.planOf q).bind fun p => p.stages[st]?
/-- The request's path has a DECODE stage. -/
def generates (s : State) (q : Request) : Bool := q.stages.any fun x => ((s.stageOf q x.stage).map (·.kind)) == some 5

/-- The text state of a request (R236). -/
def textState (s : State) (q : Request) : TextState :=
  match q.textRecord with
  | some a => TextState.decode (s.readMem a 256)
  | none => {}

/-- The trailer of a final RESULT (R361). -/
def trailer (q : Request) (status : Nat) : Bytes :=
  record 32 [(0, q.flags), (32, status), (131, b01 q.faultStage.isSome), (132, q.endState), (136, b01 q.seedDrawn), (137, b01 q.retained),
    (138, q.fault), (141, q.faultStage.getD 0), (150, q.promptLen), (171, q.newTokens), (192, q.seed)]

/-- A RESULT fragment leaves on the request's session (R361, R362). -/
def sendResult (r : Nat) (isFinal : Bool) (payload : Bytes) (s : State) : State :=
  match s.req? r with
  | none => s
  | some q =>
    let status := q.status.getD 0
    let withTrailer := isFinal && (s.generates q || q.retain || q.seedDrawn || status != stDone)
    let ctx := r + b01 isFinal * 2 ^ 12 + q.flags % 1024 * 2 ^ 13 + b01 withTrailer * 2 ^ 23 + (if isFinal then status else 0) * 2 ^ 24
    let msg := (s.session? q.session).map (·.txMsg)
    let s := s.sendMessage q.session 0x11 ctx false (payload ++ (if withTrailer then trailer q status else []))
    if isFinal then s.setReq r fun q => { q with finalSent := msg } else s

/-- The signals of an item's request let it start (R119). -/
def signalled (s : State) (i : Item) : Bool :=
  match s.req? i.req with
  | some q => !(bitAt i.wi 356) || decide (fld i.wi 383 360 ≤ q.signals.getD (fld i.wi 355 352) 0)
  | none => true

/-- A wake goes to every idle tile of a pool (R122). -/
def wakePool (p : Nat) (s : State) : State :=
  { s with tiles := s.tiles.map fun t => if t.2.idle && s.poolOf t.1 == some p then (t.1, { t.2 with woken := true }) else t }

/-- Work items enter a pool's queue: idle tiles are woken when one of them is ready (R122). -/
def enterQueue (p : Nat) (is : List Item) (s : State) : State :=
  let s := s.setPool p fun x => { x with queue := x.queue ++ is }
  if is.any s.signalled then s.wakePool p else s


/-- Work items go back to the front of a pool's queue in their order (R128); ready ones wake idle tiles (R122). -/
def returnItems (p : Nat) (is : List Item) (s : State) : State :=
  let s := s.setPool p fun x => { x with queue := is ++ x.queue }
  if is.any s.signalled then s.wakePool p else s

/-- Waiting work items enter as entries free up (R116). -/
def drainOverflow (p : Nat) (s : State) : State :=
  let room := 8192 - (s.pool p).queue.length
  let is := (s.pool p).overflow.take room
  if is.isEmpty then s else (s.setPool p fun x => { x with overflow := x.overflow.drop room }).enterQueue p is

/-- Unstarted work items of a request leave every queue (R125), and those that waited for an entry come in; a decode step's shared ones
stay with the step, and so does a stage of it that waits for slots. -/
def dropItems (r order : Nat) (s : State) : State :=
  let mine := fun (i : Item) => i.req == r && i.reqOrder == order && !i.isShared
  let leads := fun (st : Nat) => s.steps.any fun d => d.leader == r && d.leaderOrder == order && d.started.contains st
  let s : State := { s with
    pools := s.pools.map fun p => (p.1, { p.2 with
      queue := p.2.queue.filter fun i => !(mine i), overflow := p.2.overflow.filter fun i => !(mine i)
      blocked := p.2.blocked.filter fun b => b.1 != r || leads b.2 })
    tiles := s.tiles.map fun t => (t.1, { t.2 with queue := t.2.queue.filter fun i => !(mine i) }) }
  s.pools.foldl (fun s p => s.drainOverflow p.1) s

/-- A running work item of an ended request can still go on: it waits for nothing, or for a remote read, or for a ring that is not empty
or still has a producer; a barrier that has been released has its release on the way. -/
def goesOn (s : State) (t : Nat) (x : Running) : Bool :=
  let key := stageKey x.item
  (match x.waits with
    | 0 => x.toFetch.isEmpty || s.remoteReads.any (·.reader == t) || x.slots.any fun p =>
        x.toFetch.contains p.1 && decide (2 ≤ fld p.2 457 454)
        && ((let r := s.ringOf t (fld p.2 461 458) key; decide (r.1 < r.2))
          || s.tiles.any fun u => u.2.producers.any fun y => y.tile == t && y.key == key && fld y.desc 461 458 == fld p.2 461 458)
    | 1 => (s.pool x.item.pool).barriers.any fun b => b.req == x.item.req && b.stage == x.item.stage && b.released
    | 4 => true
    | _ => false)

/-- Work items of an ended request that run but wait for others of it that are gone (a barrier, a selection, rows, a ring without producer,
a full ring without reader) end without effect once nothing of the request goes on, since their record would be ignored (R125, log 139). -/
def dropStuck (r order : Nat) (s : State) : State :=
  let mine := fun (i : Item) => i.req == r && i.reqOrder == order && !i.isShared
  let room := s.tiles.any fun t => t.2.closing.any fun c => mine c.x.item && t.2.producers.any fun y => y.run == c.x.run
    && (let g := s.ringOf y.tile (fld y.desc 461 458) y.key; decide (g.2 < g.1 + fld y.desc 457 454 + 1))
  if room || s.tiles.any (fun t => t.2.running.any fun x => mine x.item && s.goesOn t.1 x) then s
  else
    { s with
      tiles := s.tiles.map fun t =>
        let runs := (t.2.closing.filter fun c => mine c.x.item && c.done.isNone).map (·.x.run)
        (t.1, { t.2 with
          running := t.2.running.filter fun x => !(mine x.item)
          producers := t.2.producers.filter fun p => !(runs.contains p.run)
          closing := t.2.closing.filter fun c => !(runs.contains c.x.run) }) }

/-- Handles still queued for a request are discarded and their buffers released (R87); those of a decode step that runs under its number
stay until the step completes. -/
def dropHandles (r order : Nat) (s : State) : State :=
  let leads := s.steps.any fun d => d.leader == r && d.leaderOrder == order
  let mine := fun (e : QEntry) => !leads && e.req == r && e.reqOrder == order
  let late := fun (h : Handoff) => !leads && h.req == r && h.reqOrder == order
  let queued := s.tiles.flatMap fun t => t.2.sluice.flatMap fun q => (q.2.filter mine).map (·.handle)
  let flying := (s.sluiceFlights.filter fun f => mine f.entry).map (·.entry.handle)
  let handed := match s.req? r with
    | some q => q.hands.map (·.handle)
    | none => []
  let waiting := (s.handoffs.filter late).map (·.hand.handle)
  let gone := s.sluiceFlights.filter fun f => mine f.entry && f.credit
  let s : State := { s with
    sluiceFlights := s.sluiceFlights.filter fun f => !(mine f.entry)
    handoffs := s.handoffs.filter fun h => !(late h)
    tiles := s.tiles.map fun t => (t.1, { t.2 with
      sluice := t.2.sluice.map fun q => (q.1, q.2.filter fun e => !(mine e))
      reserved := t.2.reserved.map fun q => (q.1, q.2 - (gone.filter fun f => f.dst == t.1 && f.queue == q.1).length) }) }
  let s := s.setReq r fun q => { q with hands := [] }
  let s := s.tiles.foldl (fun (s : State) t => if t.2.closing.isEmpty then s else s.settleClosing t.1) s
  s.releaseBuffers (queued ++ flying ++ handed ++ waiting)

/-- Staged lines of a request's own pages are dropped without write-back (R279). -/
def dropStaged (q : Request) (bytes : Nat) (s : State) : State :=
  let own := (q.pages.filter fun p => !p.shared).map (·.base)
  let inPage := fun (a : Nat) => own.any fun b => decide (b ≤ a) && decide (a < b + bytes)
  { s with pools := s.pools.map fun p => (p.1, { p.2 with
      staged := p.2.staged.filter fun l => !(inPage l.addr), spilled := p.2.spilled.filter fun a => !(inPage a)
      openPages := p.2.openPages.filter fun b => !(own.contains b) }) }

/-- Bytes of a KV page of a request's model (R275). -/
def pageBytes (s : State) (q : Request) : Nat := ((q.model.bind fun m => s.modelKey? m.2).map fun m => 64 * m.kvTokenBytes).getD 0

/-- Work of a request still under way in its tiles, its streams or its decode step (R125). -/
def busy (s : State) (r order : Nat) : Bool :=
  let mine := fun (i : Item) => i.req == r && i.reqOrder == order
  s.tiles.any (fun t => (match t.2.running with | some x => mine x.item | none => false) || t.2.closing.any fun c => mine c.x.item)
  || s.completions.any (fun c => fld c.record 63 52 == r && c.reqOrder == order)
  || s.steps.any (fun d => d.leader == r && d.leaderOrder == order)
  || s.wheels.any (fun w => w.riders.any fun y => y.req == r && y.reqOrder == order)

/-- An ended request whose work has drained returns its entry: scratch, slots, KV and bindings are freed (R125, R266,
R271). -/
def freeIfIdle (r : Nat) (s : State) : State :=
  match s.req? r with
  | none => s
  | some q =>
    let s := if inRange 8 10 q.state then s.dropStuck r q.order else s
    if inRange 8 10 q.state && !(s.busy r q.order) then
      let pb := s.pageBytes q
      let held := s.prefixes.flatMap fun p => p.pages ++ p.partialPages
      let others := s.reqs.flatMap fun x => if x.1 == r then [] else x.2.pages.map (·.base)
      let freePages := (q.pages.map (·.base)).filter fun b => !(held.contains b) && !(others.contains b)
      let s := q.stages.foldl (fun (s : State) x => s.endRings (q.order * 4096 + r, x.stage)) s
      let s : State := { s with
        reqs := s.reqs.filter (·.1 != r)
        pools := s.pools.map fun p => (p.1, { p.2 with
          barriers := p.2.barriers.filter (·.req != r), selects := p.2.selects.filter (·.req != r) }) }
      let s := s.releaseAll ((if q.payload.2 = 0 then [] else [q.payload]) ++ (if q.scratchBytes = 0 then [] else [(q.scratch, q.scratchBytes)])
        ++ freePages.map (fun b => (b, pb)) ++ q.kvBlocks.map fun b => (b, 128))
      let s := (s.dropLines (entryPayload r) 512).clearMem (entryPayload r) 512
      s.reap
    else s

/-- The status of a request is decided (R271): the budget stops, held text is flushed or discarded (R240), the final RESULT
leaves, and the request's waiting work goes (R87, R125). `payload` is what the final RESULT carries. -/
def endWith (r status : Nat) (payload : Bytes) (s : State) : State :=
  match s.req? r with
  | none => s
  | some q =>
    if q.status.isSome then s else
      let ts := s.textState q
      let tail := if q.textRecord.isSome && flushes status then
          ts.tail ++ (if ts.held.isEmpty then [] else replacement) else []
      let flags := if tail != [] && !ts.held.isEmpty then q.flags ||| 64 else q.flags
      let left := match q.deadline with
        | some d => d - s.meshCount
        | none => 0
      let pb := s.pageBytes q
      let s := s.setReq r fun q => { q with
        status := some status, endState := q.state, state := 7, frozen := left, flags, writeback := false, copying := false }
      let s := s.sendResult r true (payload ++ tail)
      let s := (s.dropItems r q.order).dropHandles r q.order
      let s := s.dropStaged q pb
      -- with its session gone, the entry goes on without sending (R266)
      let s := if (s.session? q.session).isNone then s.setReq r fun q => { q with state := terminalState status } else s
      s.freeIfIdle r

/-- A request ends with a status and no result of its own. -/
def endRequest (r status : Nat) (s : State) : State := s.endWith r status []

/-- A request ends FAILED_CONTAINED with a fault cause of R106, of a stage when one names it. -/
def failRequest (r fault : Nat) (stage : Option Nat) (s : State) : State :=
  let s := s.setReq r fun q => if q.status.isNone then { q with fault, faultStage := stage } else q
  s.endRequest r stContained

/-- Every undecided request that a test selects ends with a status. -/
def endRequests (sel : Request → Bool) (status : Nat) (s : State) : State :=
  (s.reqs.filter fun p => sel p.2 && p.2.status.isNone).foldl (fun s p => s.endRequest p.1 status) s

/-- The last fragment of a request's final RESULT has been acknowledged (R266). -/
def finalAcked (r : Nat) (s : State) : State :=
  match s.req? r with
  | some q =>
    if q.state == 7 then (s.setReq r fun q => { q with state := terminalState (q.status.getD 0) }).freeIfIdle r else s
  | none => s

/-- A load takes no effect: its partial image is given back (R363, R394); a FINAL chunk that waited is answered. -/
def abandonLoad (l : Load) (s : State) : State :=
  let s : State := { s with loads := s.loads.filter fun x => !(x.type == l.type && x.id == l.id) }
  let s := s.release l.base l.total
  match l.final with
  | some (w, _) => s.endWrite w refIncomplete
  | none => s

/-- Loads started by a session are abandoned (R363). -/
def abandonLoads (sid : Nat) (s : State) : State := (s.loads.filter (·.session == sid)).foldl (fun s l => s.abandonLoad l) s

end State
end Sys2Proof.Machine
end

