-- ==== Sys2Proof/Machine/Partners.lean ====
section
/-! DEFINITION. Partners: session keys and sealing (R350, R384), the peer table (R334 to R337), hellos and announcements
(R332, R368), the end of a session (R351, R387), entering ALONE (R346). -/

namespace Sys2Proof.Machine

/-- "mwp tr", "mwp hs r", "mwp hs i" (R384), "mwp blob" (R392). -/
def lblTraffic : Bytes := [0x6D, 0x77, 0x70, 0x20, 0x74, 0x72]
def lblHsR : Bytes := [0x6D, 0x77, 0x70, 0x20, 0x68, 0x73, 0x20, 0x72]
def lblHsI : Bytes := [0x6D, 0x77, 0x70, 0x20, 0x68, 0x73, 0x20, 0x69]
def lblBlob : Bytes := [0x6D, 0x77, 0x70, 0x20, 0x62, 0x6C, 0x6F, 0x62]

/-- The traffic key of a direction and phase (R384). -/
def trafficKey (prk th2 : Bytes) (d phase : Nat) : Bytes :=
  Config.hkdfExpand prk (lblTraffic ++ leBytes 1 d ++ leBytes 4 phase ++ th2) 32

/-- The nonce of a sealed datagram (R350). -/
def nonceOf (sid phase seq : Nat) : Bytes := leBytes 4 sid ++ leBytes 4 phase ++ leBytes 4 seq

/-- The 32 header bytes of a datagram (R348). -/
def headerBytes (sid type : Nat) (initiator : Bool) (d : TxDatagram) : Bytes :=
  record 32 [(0, 0x4D57), (16, 1), (20, b01 d.ecnEcho), (21, b01 initiator), (22, d.phase % 2), (23, b01 d.noAck),
    (24, type), (32, d.payload.length), (48, sid), (80, d.seq), (112, d.ack), (144, d.msgId), (176, d.idx),
    (192, d.count), (208, d.ctx)]

/-- The bytes of a session's datagram on the wire (R348, R350). -/
def wireBytes (q : Session) (d : TxDatagram) : Bytes :=
  let h := headerBytes q.wire d.type q.weInitiated d
  h ++ Config.gcmSeal (trafficKey q.prk q.th2 (if q.weInitiated then 0 else 1) d.phase) (nonceOf q.wire d.phase d.seq) h d.payload

/-- The device's identity digest (R376). -/
def ownDigest : Bytes := Config.sha384 Config.deviceKey

namespace State

/-- The addresses of a sub-port: static IPv6 if any, else link-local; static IPv4. -/
def ownV6 (s : State) (sub : Nat) : Bytes :=
  let a := (s.addrOf sub).v6
  if allZero a then linkLocal sub else a

/-- The device is in service (R398), or serves as far as recovery and the failed state allow. -/
def inService (s : State) : Bool := s.boot.service == 1 && s.portLive

/-- The twin state that hellos and DEVICE_STATUS carry: 7 without a pair. -/
def twinState (s : State) : Nat := if s.cfg.twin.role == 0 then 7 else s.twin.state

/-- The twin holds mirrored objects (R342): kinds 1 to 8 of R380. -/
def durable (s : State) : Bool := !(s.objects.isEmpty)

/-- The role that hellos carry: 1 PEER, 2 TWIN (R334). -/
def ownRole (s : State) : Nat := if s.cfg.twin.role == 0 then 1 else 2

/-- A PEER_HELLO of a sub-port, signed with the device identity (R332, R368, R377). -/
def helloPayload (s : State) (sub : Nat) : Bytes :=
  let p := leBytes 1 s.cfg.peers.selfIndex ++ leBytes 1 s.ownRole ++ leBytes 1 s.twinState ++ leBytes 1 (b01 s.durable)
    ++ leBytes 1 sub ++ zeros 3 ++ macBytes (macOf sub) ++ zeros 2 ++ fit 16 (s.ownV6 sub) ++ fit 4 (s.addrOf sub).v4 ++ zeros 4
    ++ fit 48 ownDigest
  p ++ Config.hybridSign Config.deviceKey (Config.sha384 p)

/-- A hello goes to the discovery group, and on a sub-port that has IPv4 a copy goes to the IPv4 group (R329, R332). -/
def sendHello (sub : Nat) (s : State) : State :=
  let p := s.helloPayload sub
  let s := s.emitOn sub (.hello sub true p)
  if allZero (s.addrOf sub).v4 then s else s.emitOn sub (.hello sub false p)

/-- A hello leaves each sub-port whose link is up, while the device is in service with PORT running (R332, R414, R452). -/
def sendHellos (s : State) : State :=
  if s.inService && s.works fnPort then
    s.subs.foldl (fun s p => if p.2.up && decide (p.1 < s.cfg.port.subs) then s.sendHello p.1 else s) s
  else s

-- The peer table

def entry? (s : State) (i : Nat) : Option PeerEntry := (s.peers.find? (·.1 == i)).map (·.2)
def setEntry (s : State) (i : Nat) (f : PeerEntry → PeerEntry) : State :=
  { s with peers := s.peers.map fun p => if p.1 == i then (p.1, f p.2) else p }
def entryOfSession (s : State) (sid : Nat) : Option (Nat × PeerEntry) :=
  if sid == 0 then none else s.peers.find? (·.2.session == sid)
/-- The entry of the device with an index. -/
def entryOfDevice (s : State) (dev : Nat) : Option (Nat × PeerEntry) :=
  s.peers.find? fun p => p.2.role != 0 && p.2.devIndex == dev

/-- The partner of the pair is this device index. -/
def isTwinPartner (s : State) (dev : Nat) : Bool := s.cfg.twin.role != 0 && s.cfg.twin.partner == dev

/-- A device is LIVE (R335). -/
def liveDevice (s : State) (dev : Nat) : Bool := s.peers.any fun p => p.2.role != 0 && p.2.devIndex == dev && p.2.state == 3
def sessionOfDevice (s : State) (dev : Nat) : Option Nat :=
  ((s.entryOfDevice dev).filter (·.2.state == 3)).map (·.2.session)

/-- The partner message of an announcement (R368). -/
def announcePayload (s : State) (kind : Nat) : Bytes :=
  leBytes 4 kind ++ leBytes 1 s.cfg.peers.selfIndex ++ leBytes 1 s.twinState

/-- An announcement goes on every session, and outside a session, signed, to every host entry and listed peer that has
none (R337, R346, R349, R368). -/
def announce (kind : Nat) (s : State) : State :=
  let p := s.announcePayload kind
  let s := s.sessions.foldl (fun s q => s.sendMessage q.id 0x63 0 false p) s
  s.peers.foldl (fun s e =>
    if e.2.session == 0 && (e.2.role != 0 || e.2.state != 0) then
      match e.2.host with
      | some dst => s.sendPlain 0 dst 0x63 (p ++ Config.hybridSign Config.deviceKey (Config.sha384 p))
      | none => s
    else s) s

/-- The messages of a session that were delivered and not yet taken, its loads, its unacknowledged datagrams and keys go
with it; its undecided requests end CANCELLED, and requests whose final RESULT it had not acknowledged stop sending (R271,
R351, R387). -/
def dropSession (sid : Nat) (s : State) : State :=
  let mine := s.reqs.filter fun p => p.2.session == sid
  let s : State := { s with
    sessions := s.sessions.filter (·.id != sid)
    delivered := s.delivered.filter (·.session != sid)
    peers := s.peers.map fun p => if p.2.session == sid then (p.1, { p.2 with session := 0 }) else p }
  let s := s.endRequests (fun r => r.session == sid) stCancelled
  let s := mine.foldl (fun s p => s.finalAcked p.1) s
  s.abandonLoads sid

/-- SESSION_CLOSE travels sealed within the session it closes; the sender ends the session when it is acknowledged, or 2 s
after sending (R351, R383). -/
def closeSession (sid reason : Nat) (s : State) : State :=
  match s.session? sid with
  | none => s
  | some q =>
    let seq := q.txSeq
    let s := s.sendMessage sid 4 0 false (leBytes 4 q.wire ++ leBytes 4 reason)
    s.withSession sid fun q => { q with closing := some (s.portTicks, seq) }

/-- Durable writes whose application cannot go on are answered TWIN_STATE. -/
def turnAway (ws : List Write) (s : State) : State :=
  ws.foldl (fun (s : State) w => s.endWrite w refTwinState) s

/-- Writes that waited only for the partner's apply are answered with this twin's outcome (R346). -/
def answerMirrored (s : State) : State :=
  let done := s.twin.mirrored.filter (·.2.1.session != 0)
  let s : State := { s with twin := { s.twin with mirrored := [] } }
  done.foldl (fun (s : State) m => s.endWrite m.2.1 m.2.2) s

/-- The twin's exchanges with its partner are over; writes that were forwarded wait as this twin's own. -/
def endMirroring (st : Nat) (s : State) : State :=
  { s with twin := { s.twin with
    state := st, moved := [], granting := [], syncTodo := [], syncing := false, copy := none, doneSeq := none
    waiting := s.twin.forwarded ++ s.twin.waiting, forwarded := [] } }

/-- What a syncing twin has copied is discarded (R342). -/
def discardCopied (s : State) : State :=
  let images := s.plans.map (·.obj) ++ s.models.map (·.obj) ++ s.adapters.map (·.obj) ++ s.grammars.map (·.obj)
  let ranges := images.map (fun o => (o.base, o.bytes)) ++ (s.tables.flatMap fun v => v.slabs.map Prod.snd).eraseDups
    ++ s.tables.map (fun v => (v.base, 4096)) ++ (s.stores.flatMap fun v => v.passages.map fun p => (p.addr, 4 * p.tokens)).eraseDups
    ++ s.hotSets.map (fun v => (v.replica, v.replicaBytes)) ++ s.loads.map (fun l => (l.base, l.total))
    ++ s.corpora.flatMap fun k => ((s.cfg.corpora.find? (·.id == k.id)).map fun c => corpusRanges c k).getD []
  let s : State := { s with
    plans := [], models := [], adapters := [], grammars := [], tables := [], stores := [], hotSets := [], tableRuns := []
    storeRuns := [], loads := [], removals := [], corpora := s.corpora.map fun k => { id := k.id, perm := k.perm }
    objectGen := satTo 64 (s.objectGen + 1) }
  s.releaseAll ranges

/-- The partner is lost. A PAIRED twin enters ALONE, takes every token, announces TWIN_LOST, and acknowledges each write that
waited only for its partner (R346); a SYNCING one discards what it has copied and returns to SOLO (R342); one that was
catching its partner up stays as it is. -/
def enterAlone (s : State) : State :=
  if s.twin.state == 2 then (((s.endMirroring 3).announce 2)).answerMirrored
  else if s.twin.state == 1 then
    let ws := s.twin.forwarded ++ s.twin.waiting
    let s := s.endMirroring 0
    let s : State := { s with twin := { s.twin with waiting := [], mirrored := [] } }
    s.discardCopied.turnAway ws
  else (s.endMirroring s.twin.state).answerMirrored

/-- The twin enters SPLIT: it mirrors no more, and tells its partners (R347, R370). -/
def enterSplit (s : State) : State := (((s.endMirroring 4).announce 3).sendHellos).answerMirrored

/-- The partner reports SPLIT to a PAIRED twin: both are (R370). -/
def partnerReports (st : Nat) (s : State) : State := if st == 4 && s.twin.state == 2 then s.enterSplit else s

/-- RESTART of TWIN returns the twin to SOLO (R418). -/
def enterSolo (s : State) : State :=
  let ws := s.twin.forwarded ++ s.twin.waiting
  let s := (s.endMirroring 0).answerMirrored
  ({ s with twin := { s.twin with waiting := [] } } : State).turnAway ws

/-- What a partner that is LOST or GONE changes beyond its entry: its sessions end, and the twin's partner being lost
starts R346. -/
def partnerGone (i : Nat) (newState : Nat) (s : State) : State :=
  match s.entry? i with
  | none => s
  | some e =>
    let sid := e.session
    let s := s.setEntry i fun e => { e with
      state := newState, since := s.portTicks
      lostCount := if newState == 4 then satTo 32 (e.lostCount + 1) else e.lostCount }
    let s := if sid == 0 then s else s.dropSession sid
    let s := if e.role == 2 && s.isTwinPartner e.devIndex then s.enterAlone else s
    if newState == 4 then s.sendHellos else s

/-- Heartbeat and silence intervals toward a partner in ticks (R336, R340). -/
def hbTicks (s : State) (role dev : Nat) : Nat :=
  if role == 2 && s.isTwinPartner dev then ticksOfUs s.cfg.twin.hbUs else ticksOfUs s.cfg.peers.hbUs
def silenceTicks (s : State) (role dev : Nat) : Nat :=
  if role == 2 && s.isTwinPartner dev then ticksOfUs (s.cfg.twin.hbUs * s.cfg.twin.miss)
  else ticksOfUs (s.cfg.peers.hbUs * s.cfg.peers.hbMiss)

-- The twin's catch-up (R342)

/-- Every held object version is to be copied to the partner, loads in progress with them under kind + 16. -/
def startSync (s : State) : State :=
  let todo := (s.objects.filter fun o => o.kind != 7 || o.state == 2).map (fun o => (o.kind, o.id, o.version))
    ++ (s.corpora.filter fun k => k.current.isNone && !k.loads.isEmpty).map (fun k => (7, k.id, 0))
    ++ s.loads.map fun l => ((match l.type with | 0x30 => 2 | 0x31 => 1 | 0x32 => 3 | _ => 4) + 16, l.id, l.version)
  { s with twin := { s.twin with syncing := true, mirrorOut := 1, mirrorIn := 0, syncSent := 0, copy := none, doneSeq := none, syncTodo := todo } }

/-- The state that a twin session opening decides: SOLO leaves by what each side holds; the survivor starts catch-up (R342). -/
def pairOpens (s : State) : State :=
  let mine := s.durable
  let theirs := s.twin.partnerDurable
  let t := s.twin
  if t.state == 0 && !mine then
    { s with twin := { t with state := if theirs then 1 else 2, moved := [], mirrorOut := 1, mirrorIn := 0, copy := none } }
  else if t.state == 0 || t.state == 3 then (if theirs then s.enterSplit else s.startSync)
  else s

end State
end Sys2Proof.Machine
end

