-- ==== Sys2Proof/Machine/Status.lean ====
section
/-! DEFINITION. The status and counter space (R265, R334, R445, R472 to R481): its words by offset; every offset not
listed reads 0. -/

namespace Sys2Proof.Machine

/-- The 64-bit words of a structure of `n` bytes at an offset. -/
def wordsAt (off n v : Nat) : List (Nat × Nat) := (List.range (n / 8)).map fun i => (off + 8 * i, v / 2 ^ (64 * i) % 2 ^ 64)

namespace State

/-- DEVICE_STATUS (R473). -/
def deviceStatus (s : State) : Nat :=
  packed [(0, match s.fuses.part with | .a => 0x0A | .b => 0x0B),
    (8, if s.boot.service == 2 then 0 else s.cfg.peers.selfIndex % 256), (22, s.boot.service), (25, s.boot.slot),
    (26, b01 s.boot.fellBack), (27, s.cfg.mode.mode % 4), (29, s.twinState), (32, s.fns.running), (40, s.fns.recovering)]

/-- A request table entry as one number (R265). -/
def requestEntry (s : State) (r : Request) : Nat :=
  let budget := match r.deadline with
    | none => 2 ^ 44 - 1
    | some d => if r.status.isSome then r.frozen else d - s.meshCount
  packed [(0, r.state), (124, r.status.getD 0), (140, r.flags % 1024), (150, b01 r.evictable), (151, b01 r.retain),
    (152, r.priority), (155, r.shareClass), (161, r.plan), (169, (r.model.map (·.1)).getD 0),
    (175, (r.adapter.map (·.1)).getD 0), (185, b01 r.adapter.isSome), (186, (r.grammar.map (·.1)).getD 0),
    (194, b01 r.grammar.isSome), (195, r.grammarState), (215, r.promptLen), (236, r.maxNew), (257, r.newTokens),
    (278, r.length), (299, r.kvHead / 128), (340, budget % 2 ^ 44), (384, ((s.session? r.session).map (·.wire)).getD r.session), (416, (r.adapter.map (·.2)).getD 0),
    (448, r.prefixHandle)]

/-- A peer table entry as one number (R334). -/
def peerEntry (s : State) (e : PeerEntry) : Nat :=
  let live := e.heardOn.filter fun h => h.1 < 4 && decide (s.portTicks ≤ h.2 + s.silenceTicks e.role e.devIndex)
  packed [(0, e.state), (6, e.role), (8, e.devIndex), (20, (live.map fun h => 2 ^ h.1).sum % 16), (64, e.rtt), (80, e.lostCount),
    (112, ((s.session? e.session).map (·.wire)).getD 0), (144, e.mac), (192, satTo 64 e.lastHeard)]

/-- An error log entry as one number (R445). -/
def logWord (e : LogEntry) : Nat :=
  packed [(0, e.detail % 2 ^ 48), (48, e.cls), (50, b01 e.deferred), (51, b01 e.escalated), (52, e.unit), (56, e.cause),
    (64, e.unitIndex % 2 ^ 11), (75, e.functions), (83, b01 e.req.isSome), (84, e.req.getD 0), (96, e.seq), (128, e.count),
    (144, e.addr % 2 ^ 48), (192, e.ticks)]

/-- An object directory entry as one number (R480). -/
def dirWord (o : Obj) : Nat :=
  packed [(0, o.kind), (40, o.state), (48, o.id), (64, o.version), (96, b01 o.damaged), (144, o.base), (192, o.bytes)]

/-- A pool's POOL_INFO gauge (R479). -/
def poolInfo (s : State) (p : Nat) (c : PoolCfg) : Nat :=
  packed [(0, c.firstCol), (8, c.cols), (16, c.kinds), (24, c.weight), (38, b01 (bitAt s.power.gate p)), (39, 1)]

/-- Gauges of a pool that are not counters: the Wheel's position, version and riders, and the deficits (R479). -/
def poolGauges (s : State) (p : Nat) : List (Nat × Nat) :=
  let at' := fun (i : Nat) => 0x80000 + 0x10000 * p + i
  let wheel := match s.wheels.find? (·.pool == p) with
    | none => []
    | some w => [
        (at' 0x80, match w.release.seg with
          | .base _ n => n
          | .side b => 2 ^ 63 + b
          | .pause => 0),
        (at' 0x88, ((s.corpora.find? (·.id == w.corpus)).map (·.version)).getD 0),
        (at' 0x90, (w.riders.filter fun r => r.phase == 2).length)]
  wheel ++ (lookupD p s.pools {}).deficits.map fun d => (at' (0x600 + 8 * d.1), unsignedOf 64 d.2)

/-- A counter belongs to a register that exists (R472): its pool, tile or sub-port is defined. -/
def counterExists (s : State) (off : Nat) : Bool :=
  if 0x100000 ≤ off && off < 0x180000 then decide ((off - 0x100000) / 0x100 < 32 * s.fuses.part.cols)
  else if 0x80000 ≤ off && off < 0x100000 then decide ((off - 0x80000) / 0x10000 < s.cfg.pools.length)
  else if 0x71000 ≤ off && off < 0x71400 then decide ((off - 0x71000) / 0x100 < s.cfg.port.subs)
  else true

/-- Every word of the live status space that may not be 0, by offset (R472 to R480). -/
def statusWords (s : State) : List (Nat × Nat) :=
  [(0x000, s.deviceStatus), (0x008, satTo 64 s.portTicks), (0x010, if s.boot.service == 2 then 0 else s.boot.imageSeq),
   (0x018, s.errors.head), (0x020, satTo 64 s.objectGen), (0x028, s.objects.length), (0x030, s.errors.badLines.length),
   (0x100, s.tele.scrubHours * 2 ^ 40)]
  ++ (s.tele.block.zipIdx.map fun w => (0x1000 + 8 * w.2, w.1))
  ++ s.errors.entries.flatMap (fun e => wordsAt (0x10000 + 32 * ((e.seq + 2 ^ 32 - 1) % 2 ^ 32 % 1024)) 32 (logWord e))
  ++ s.reqs.flatMap (fun r => wordsAt (0x20000 + 64 * r.1) 64 (s.requestEntry r.2))
  ++ s.peers.flatMap (fun p => wordsAt (0x60000 + 32 * p.1) 32 (s.peerEntry p.2))
  ++ s.counters.filter (fun c => s.counterExists c.1)
  ++ s.subs.flatMap (fun p => wordsAt (0x71080 + 0x100 * p.1) 64 (leNat (fit 32 p.2.lldpChassis ++ fit 32 p.2.lldpPort)))
  ++ [(0x71430, s.sessions.length)]
  ++ s.cfg.pools.zipIdx.flatMap (fun c => (0x80000 + 0x10000 * c.2, s.poolInfo c.2 c.1) :: s.poolGauges c.2)
  ++ s.objects.zipIdx.flatMap (fun o => if o.2 < 8192 then wordsAt (0x180000 + 32 * o.2) 32 (dirWord o.1) else [])

/-- The word that the control cluster finds at a byte of the Millpond window: tile memory while Millpond mode is in force,
refused otherwise (R295, R296). -/
def millpondWord (s : State) (x : Nat) : Option Nat :=
  if s.boot.millpond then (millpondOf s.tileCount (millpondWindow 0 + x)).map fun a => leNat (s.readMem a 8) else none

/-- A word written by the control cluster at a byte of the Millpond window (R295, R296). -/
def millpondPut (x w : Nat) (s : State) : State :=
  match (if s.boot.millpond then millpondOf s.tileCount (millpondWindow 0 + x) else none) with
  | some a => s.writeMem a (leBytes 8 w)
  | none => s

/-- The word at an aligned offset: live, or of the recovery dump, which stands from byte 0 of the Millpond window after a
DEVICE event and reads 0 before one and beyond its 2 MiB (R422, R472, R481). -/
def statusWord (s : State) (off : Nat) : Nat :=
  if off < 0x40000000 then lookupD off s.statusWords 0
  else if s.boot.deviceFailed && decide (off - 0x40000000 < 0x200000) then (s.millpondWord (off - 0x40000000)).getD 0
  else 0

/-- The tiles whose memory holds the dump's 2 MiB: each gives 384 KiB of the Millpond window (R296, R481). -/
def dumpTiles : List (Nat × Nat) := (List.range 6).map fun t => (t, min 0x60000 (0x200000 - t * 0x60000))

/-- The recovery dump of the status words that stood at the DEVICE event, written into tile memory through the Millpond
window (R422, R481): bytes 0 to 0x001F_FFFF, a word that is 0 written as zeros. -/
def writeDump (ws : List (Nat × Nat)) (s : State) : State :=
  let s := dumpTiles.foldl (fun s t => s.clearMem (tileWindow t.1) t.2) s
  ws.foldr (fun w s => if w.1 < 0x200000 && w.2 != 0 then s.millpondPut w.1 w.2 else s) s

/-- The object directory changed (R480). -/
def bumpObjects (s : State) : State := { s with objectGen := satTo 64 (s.objectGen + 1) }

end State
end Sys2Proof.Machine
end

