-- ==== Sys2Proof/Machine/Functions.lean ====
section
/-! DEFINITION. Stopping functions, and what the device does on an event of each error class (R410 to R413, R432, R444,
R446, R450 to R452). -/

namespace Sys2Proof.Machine

namespace State

/-- Some pools' tiles lose their work, caches and contexts; dirty lines are written back first (R412, R426, R430), and the slots left in
rings counted (R82). -/
def loseTiles (sel : Nat → Bool) (s : State) : State :=
  let mine := fun (t : Nat) => match s.poolOf t with
    | some p => sel p
    | none => true
  let gone := s.tiles.filter fun t => mine t.1
  let s := gone.foldl (fun (s : State) t =>
    ((t.2.cache.filter (·.dirty)).foldl (fun (s : State) l => s.portWrite l.addr l.data) s).count (tileCtr t.1 0x18) (ringResidue t.2.rings)) s
  { s with tiles := s.tiles.filterMap fun t => if mine t.1 then (if t.2.gens.isEmpty then none else some (t.1, { gens := t.2.gens })) else some t }

/-- Entries of ended requests whose work is gone return to FREE. -/
def freeEnded (s : State) : State := s.reqs.foldl (fun (s : State) r => s.freeIfIdle r.1) s

/-- Every tile's cache of trie nodes is emptied (R229). -/
def dropTries (s : State) : State := { s with tiles := s.tiles.map fun t => (t.1, { t.2 with trieTok := none, trieNodes := [] }) }

/-- What stopping a mask of functions does to the working state beyond ending requests: with POOLS stopped no work item, stream or
message of one is left; with WHEEL stopped no rider; with TEXT stopped the trie caches are empty (R229, R411, R412). -/
def clearWork (m : Nat) (s : State) : State :=
  let s := if bitAt m 2 then
      let s := s.loseTiles fun _ => true
      { s with
        pools := s.pools.map fun p => (p.1, { deficits := p.2.deficits, cursor := p.2.cursor, weights := p.2.weights, newWeights := p.2.newWeights, boundary := true })
        steps := [], completions := [], handoffs := [], sluiceFlights := [], ringCredits := [], sluiceCredits := [], leats := [], remoteReads := []
        exchanges := s.exchanges.filter (·.kind == 2), collectives := [], wheels := [], hotStale := true }
    else s
  let s := if bitAt m 3 then
      { s with wheels := [], collectives := s.collectives.filter (·.kind != 0), leats := s.leats.filter (·.use == .plain) }
    else s
  let s := if bitAt m 5 then s.dropTries else s
  if bitAt m 2 || bitAt m 3 then s.freeEnded else s

/-- The functions of a mask and every function that needs them stop with abort: each request in flight whose path needs a
stopped function ends at once, those that drained included (R411). -/
def abortFunctions (m status : Nat) (s : State) : State :=
  let stop := stopClosure m &&& (s.fns.running ||| s.drainMask)
  let s := { s with fns := { s.fns with running := maskWithout s.fns.running stop } }
  let s := s.endRequests (fun r => r.needs &&& stop != 0) status
  s.clearWork stop

/-- The control message in progress ends refused REFUSED_STOPPED, and what of it is not yet applied is not: the functions of `keep` that it
drained run on, and the pools it drained are not gated (R413, R433, R450). -/
def dropCurrent (keep : Nat) (s : State) : State :=
  match s.fns.current with
  | none => s
  | some c =>
    let s := { s with
      fns := { s.fns with current := none, running := s.fns.running ||| (s.drainMask &&& keep) }
      power := { s.power with
        gate := s.power.draining.foldl (fun (g : Nat) (d : Nat × Nat) => maskWithout g (2 ^ d.1)) s.power.gate
        target := none, newLevel := none, draining := [], ungating := [] } }
    s.reply c.session c.msgId refStopped 0

/-- A DEVICE event (R452): logged, arrays gated, every function stopped with
requests ending FAILED_CONTAINED, FAULT_N asserted, DEVICE_FAILED announced, Millpond mode entered, and
the dump of the status space as it stood written through the Millpond window (R422). During an earlier one
it is logged only (R451). -/
def deviceEvent (e : Event) (s : State) : State :=
  let s := s.logEvent { e with cls := some 3, functions := s.fns.running }
  if s.boot.service == 3 then s else
    let words := s.statusWords
    let s := { s with
      power := { s.power with arraysClocked := false }
      pins := { s.pins with faultN := true } }
    let s := (s.abortFunctions 0xFF stContained).dropCurrent 0
    let s := s.announce 1
    let s := { s with boot := { s.boot with service := 3, deviceFailed := true, millpond := true } }
    s.writeDump words

/-- The recoveries that stopped a function (R451). -/
def recoveringOf (s : State) (m : Nat) : Bool := s.fns.recoveries.any fun r => r &&& m != 0

/-- A FUNCTION event of function bit `f` (R450, R451): during a recovery that stopped it, a DEVICE event under cause 0x38. -/
def functionEvent (e : Event) (f : Nat) (s : State) : State :=
  let m := 2 ^ f
  if s.boot.service != 1 then s.logEvent e
  else if s.recoveringOf m then
    (s.logEvent { e with escalated := true }).deviceEvent { cause := 0x38, unit := e.unit, unitIndex := e.unitIndex }
  else
    let stop := stopClosure m &&& (s.fns.running ||| s.drainMask)
    let s := s.logEvent { e with functions := stop }
    let s := match s.fns.current with
      | some c => if c.type == 0x52 && (uAt c.payload 0 1) &&& stopClosure m != 0 then s.dropCurrent 0 else s
      | none => s
    let s := s.abortFunctions m stContained
    { s with fns := { s.fns with
        recovering := s.fns.recovering ||| m, recoveries := s.fns.recoveries ++ [stopClosure m] } }

/-- A CORRECTED event that belongs to functions `m`: logged, DEFERRED during their recovery (R446, R451). -/
def correctedEvent (e : Event) (m : Nat) (s : State) : State :=
  if s.recoveringOf m then (s.logEvent { e with deferred := true }).count (devCtr 17) 1 else s.logEvent e

/-- A CONTAINED event that belongs to functions `m` and fails requests: each ends FAILED_CONTAINED with the fault cause
(R444, R451); of a request already decided it is logged DEFERRED. -/
def containedEvent (e : Event) (m : Nat) (s : State) : State :=
  let decided := match e.req with
    | some r => match s.reqs.find? (·.1 == r) with
      | some p => p.2.status.isSome
      | none => false
    | none => false
  if s.recoveringOf m then (s.logEvent { e with deferred := true }).count (devCtr 17) 1
  else s.logEvent { e with deferred := decided }

/-- A protective trip (R431 to R433) with its cause code and detail: logged and counted; outside ACTIVE it has no other
effect. -/
def trip (code : Nat) (sensor : Nat) (detail : Nat) (s : State) : State :=
  let active := s.boot.service == 1 && s.power.state == 0 && s.power.arraysClocked && !s.boot.offPrep
  let stop := if active then 0x7E &&& (s.fns.running ||| s.drainMask) else 0
  let s := s.logEvent { cause := 0x30, unit := 8, unitIndex := sensor, functions := stop, detail := code + detail * 256, cls := some 2 }
  let s := { s with tele := { s.tele with trips := s.tele.trips.modify (code - 1) (bump · 1) } }
  if active then
    let s := { s with power := { s.power with arraysClocked := false, state := 1, thermalHold := s.power.thermalHold || code == 1 } }
    let s := (s.abortFunctions 0x7E stCancelled).dropCurrent 0x81
    if code == 1 then { s with pins := { s.pins with thermtrip := true } } else s
  else s

end State
end Sys2Proof.Machine
end

