-- ==== Sys2Proof/Machine/Transport.lean ====
section
/-! DEFINITION. MWP transport (R348 to R358): MWP_DATAGRAM_RX, RETRANSMIT_TIMEOUT, WINDOW_UPDATE, ACK. -/

namespace Sys2Proof.Machine

/-- A header field of a datagram's bytes (R348). -/
def hdr (bs : Bytes) : Nat := leNat (bs.take 32)

/-- The checks of R348 that need no key. -/
def datagramOk (bs : Bytes) : Bool :=
  let h := hdr bs
  decide (48 ≤ bs.length) && bs.length == 48 + fld h 45 32 && decide (fld h 45 32 ≤ 8960) && fld h 15 0 == 0x4D57
  && fld h 19 16 == 1 && fld h 47 46 == 0 && decide (fld h 191 176 < fld h 207 192)

/-- Types that a datagram outside a session may have (R349). -/
def plainType (t : Nat) : Bool := [0x01, 0x02, 0x03, 0x04, 0x60, 0x63].contains t

/-- Every message type (R357). -/
def knownType (t : Nat) : Bool :=
  [0x01, 0x02, 0x03, 0x04, 0x05, 0x06, 0x10, 0x11, 0x12, 0x20, 0x21, 0x22, 0x23, 0x28, 0x29, 0x30, 0x31, 0x32, 0x33, 0x38,
   0x39, 0x40, 0x48, 0x50, 0x51, 0x52, 0x53, 0x60, 0x61, 0x62, 0x63, 0x70, 0x78].contains t

/-- Durable writes (R357). -/
def durableType (t : Nat) : Bool := [0x20, 0x21, 0x22, 0x23, 0x28, 0x29, 0x30, 0x31, 0x32, 0x33].contains t

/-- Types that never receive a REPLY (R358). -/
def silentType (t : Nat) : Bool := [0x11, 0x06, 0x70, 0x78, 0x04, 0x61, 0x63, 0x05, 0x62].contains t

/-- The largest message of a type (R356). -/
def maxMessage (t : Nat) : Nat := if t == 0x10 then 67108864 else 587193600

/-- Serial-number comparison over 32 bits (R350, RFC 1982): `b` is after `a`. -/
def serialLt (a b : Nat) : Bool := let d := (b + 2 ^ 32 - a) % 2 ^ 32; d != 0 && decide (d < 2 ^ 31)

/-- Received SEQ ranges with one more SEQ, in descending order from the largest, within 65,536 of it (R352). -/
def addRange (largest seq : Nat) (rs : List (Nat × Nat)) : List (Nat × Nat) :=
  let dist := fun (n : Nat) => (largest + 2 ^ 32 - n) % 2 ^ 32
  let one := (dist seq, dist seq)
  -- each range as (distance of its last SEQ, distance of its first SEQ), nearest first
  let ds := insertBy (fun a b => decide (a.1 ≤ b.1)) one (rs.map fun r => (dist r.2, dist r.1))
  let merged := ds.foldl (fun (acc : List (Nat × Nat)) r =>
    match acc with
    | [] => [r]
    | a :: t => if r.1 ≤ a.2 + 1 then (a.1, max a.2 r.2) :: t else r :: a :: t) []
  ((merged.reverse.filter fun r => decide (r.1 ≤ 65536)).map fun r =>
    ((largest + 2 ^ 32 - r.2) % 2 ^ 32, (largest + 2 ^ 32 - r.1) % 2 ^ 32))

/-- A SEQ lies in a received range. -/
def inRanges (seq : Nat) (rs : List (Nat × Nat)) : Bool :=
  rs.any fun r => decide ((seq + 2 ^ 32 - r.1) % 2 ^ 32 ≤ (r.2 + 2 ^ 32 - r.1) % 2 ^ 32)

/-- The ACK message of a session (R352): up to 64 ranges and the CE bytes since the previous one. -/
def ackPayload (q : Session) : Bytes :=
  let rs := q.rxRanges.take 64
  record 8 [(0, rs.length), (32, q.ceBytes)] ++ rs.flatMap fun r => leBytes 4 r.1 ++ leBytes 4 r.2

namespace State

/-- An ACK message leaves (R352). -/
def sendAck (sid : Nat) (s : State) : State :=
  match s.session? sid with
  | none => s
  | some q =>
    (s.sendMessage sid 5 0 true (ackPayload q)).withSession sid fun q => { q with ackDue := false, ceBytes := 0 }

/-- The base retransmission timeout in ticks (R353): 4 × t_min + 20 µs, at least 50 µs; t_min is 45 µs before any. -/
def baseTimeout (q : Session) : Nat :=
  match q.tMin with
  | none => ticksOfUs 200
  | some t => max (ticksOfUs 50) (4 * t + ticksOfUs 20)
def timeoutOf (q : Session) : Nat := min (baseTimeout q * 2 ^ q.backoff) (ticksOfMs 100)

/-- A lost datagram's payload is sent again under a new SEQ (R353). -/
def resend (sid seq : Nat) (s : State) : State :=
  match (s.session? sid).bind fun q => q.unacked.find? (·.seq == seq) with
  | none => s
  | some d =>
    let s := s.withSession sid fun q => { q with unacked := q.unacked.filter (·.seq != seq), lostAny := true }
    (s.launch sid d).count (mwpCtr 0x410) 1

/-- Datagrams of a session that a test selects are acknowledged: round trip, base timeout, losses three SEQ back, messages
whose last datagram that was, and the window (R351 to R354). -/
def acknowledge (sid : Nat) (sel : Nat → Bool) (s : State) : State :=
  match s.session? sid with
  | none => s
  | some q =>
    let got := q.unacked.filter fun d => sel d.seq
    if got.isEmpty then s else
      let rtts := got.map fun d => s.portTicks - d.sentAt
      let tMin := rtts.foldl (fun a r => some (match a with | none => r | some x => min x r)) q.tMin
      let s := s.withSession sid fun q => { q with
        unacked := q.unacked.filter fun d => !(sel d.seq), tMin, backoff := 0
        ackedBytes := q.ackedBytes + (got.map TxDatagram.size).sum }
      let left := q.unacked.filter fun d => !(sel d.seq)
      let lost := left.filter fun d => got.any fun g => serialLt d.seq g.seq && decide (3 ≤ (g.seq + 2 ^ 32 - d.seq) % 2 ^ 32)
      let s := lost.foldl (fun s d => s.resend sid d.seq) s
      let done := (got.map (·.msgId)).filter fun m => !(left.any (·.msgId == m)) && !(q.queue.any (·.msgId == m))
      let ended := s.reqs.filter fun p => p.2.session == sid && (match p.2.finalSent with | some m => done.contains m | none => false)
      let s := ended.foldl (fun s p => s.finalAcked p.1) s
      let s := match s.session? sid with
        | none => s
        | some q => s.pump sid q.queue
      match q.closing with
      | some (_, seq) => if sel seq then s.dropSession sid else s
      | none => s

/-- An authenticated datagram arrived from a session's partner (R336), from the partner's sub-port whose MAC it bears (R325, R334). -/
def heard (sid mac : Nat) (s : State) : State :=
  let s := s.withSession sid fun q => { q with lastHeard := s.portTicks }
  match s.entryOfSession sid with
  | none => s
  | some (i, _) => s.setEntry i fun e => { e with
      lastHeard := s.portTicks, mac
      heardOn := match e.macBase with
        | some b => if decide (b ≤ mac) && decide (mac - b < 4) then insertKey (mac - b) s.portTicks e.heardOn else e.heardOn
        | none => e.heardOn }

/-- Payload bytes of incomplete messages in the receive buffer (R356). -/
def rxHeld (s : State) : Nat :=
  let bytes := fun (m : Incomplete) => (m.frags.map fun f => f.2.length).sum
  (s.sessions.map fun q => (q.incomplete.map bytes).sum).sum + (s.plainParts.map fun p => bytes p.2).sum

/-- The message parts that disagree (R355): FRAG_COUNT, TYPE, CONTEXT, or the fragment size. -/
def disagrees (m : Incomplete) (count type ctx idx : Nat) (p : Bytes) : Bool :=
  let all := (idx, p) :: m.frags
  let inner := (all.filter fun f => f.1 + 1 != count).map fun f => f.2.length
  let l := inner.headD 0
  let last := (all.filter fun f => f.1 + 1 == count).map fun f => f.2.length
  m.count != count || m.type != type || m.ctx != ctx || inner.any (· != l) || (inner != [] && l == 0)
  || (count != 1 && last.any fun (n : Nat) => n == 0 || (inner != [] && decide (l < n)))

/-- The lowest MSG_ID not complete, after a completion (R356). -/
def lowestOpen : Nat → Nat → List Nat → Nat × List Nat
  | 0, low, done => (low, done)
  | k + 1, low, done => if done.contains low then lowestOpen k ((low + 1) % 2 ^ 32) (done.filter (· != low)) else (low, done)

/-- A message is complete, delivered or discarded: its MSG_ID is not incomplete any more. -/
def completeMsg (sid msgId : Nat) (s : State) : State :=
  s.withSession sid fun q =>
    let done := if q.rxDone.contains msgId then q.rxDone else msgId :: q.rxDone
    let r := lowestOpen (done.length + 1) q.rxLow done
    { q with rxLow := r.1, rxDone := r.2, incomplete := q.incomplete.filter (·.msgId != msgId) }

/-- Leat payloads that the Hopper's intake holds (R91). -/
def intake (s : State) : Nat := (s.delivered.filter (·.leat)).length + s.intakePlain.length

/-- A complete message is delivered at once (R356), or discarded when its type is unknown or it is too large, and refused when no
session carries it or its sender may not send it (R357); a SUBMIT of one datagram and at most 256 bytes rides the Leat unless the intake is full (R25, R91). -/
def deliver (q : Session) (sub mac : Nat) (m : Incomplete) (s : State) : State :=
  let frags := (sortBy (fun a b => decide (a.1 ≤ b.1)) m.frags).map (·.2)
  let size := (frags.map List.length).sum
  let s := s.completeMsg q.id m.msgId
  if !(knownType m.type) || decide (maxMessage m.type < size) then s.count (mwpCtr 0x408) 1
  else if m.type == 6 then s
  else if [1, 2, 3, 0x60].contains m.type || (m.type == 0x11 && q.host) then s.reply q.id m.msgId refNotPermitted 0
  else if m.type == 0x11 then s
  else
    let small := m.type == 0x10 && m.count == 1 && decide (size ≤ 256)
    let full := decide (512 ≤ s.intake)
    let s := if small && full then s.count (devCtr 5) 1 else s
    { s with delivered := s.delivered ++
        [{ session := q.id, src := q.peer, sub, mac, msgId := m.msgId, type := m.type, ctx := m.ctx, frags,
           leat := small && !full }] }

/-- A datagram outside a session (R349): accepted by type and NO_ACK with a zero tag; its message is put together. -/
def rxPlain (d : Datagram) (s : State) : State :=
  let h := hdr d.bytes
  let type := fld h 31 24
  let payload := slice d.bytes 32 (fld h 45 32)
  if plainType type && bitAt h 23 && fld h 111 80 == 0 && fld h 143 112 == 0 && allZero (d.bytes.drop (32 + fld h 45 32)) then
    let m0 : Incomplete := { msgId := fld h 175 144, count := fld h 207 192, type, ctx := fld h 255 208, frags := [] }
    let same := fun (p : Endpoint × Incomplete) => p.1 == d.src && p.2.msgId == m0.msgId && p.2.type == type
    let m := ((s.plainParts.find? same).map (·.2)).getD m0
    let rest := s.plainParts.filter fun p => !(same p)
    if s.rxHeld + payload.length > s.cfg.limits.rxBytes then s.count (mwpCtr 0x408) 1
    else if disagrees m m0.count type m0.ctx (fld h 191 176) payload then
      { s with plainParts := rest }.count (mwpCtr 0x408) 1
    else
      let m := { m with frags := insertKey (fld h 191 176) payload m.frags }
      if m.frags.length == m.count then
        { s with
          plainParts := rest
          delivered := s.delivered ++
            [{ session := 0, src := d.src, sub := d.sub, mac := d.mac, msgId := m.msgId, type, ctx := m.ctx,
               frags := (sortBy (fun a b => decide (a.1 ≤ b.1)) m.frags).map (·.2), leat := false }] }
      else { s with plainParts := rest ++ [(d.src, m)] }
  else s.count (mwpCtr 0x400) 1

/-- The phase under which a datagram opens, and its plaintext (R350): the current phase, the next, or the previous, by
KEY_PHASE. -/
def opened (q : Session) (bs : Bytes) : Option (Nat × Bytes) :=
  let h := hdr bs
  let dir := if q.weInitiated then 1 else 0
  let try' := fun (phase : Nat) =>
    if phase % 2 == fld h 22 22 then
      (Config.gcmOpen (trafficKey q.prk q.th2 dir phase) (nonceOf q.wire phase (fld h 111 80)) (bs.take 32) (bs.drop 32)).map
        fun p => (phase, p)
    else none
  match try' q.rxPhase with
  | some r => some r
  | none => match try' (q.rxPhase + 1) with
    | some r => some r
    | none => if q.rxPhase = 0 then none else try' (q.rxPhase - 1)

/-- A datagram of an open session, unsealed (R350 to R357). -/
def rxSession (d : Datagram) (q : Session) (phase : Nat) (payload : Bytes) (s : State) : State :=
  let h := hdr d.bytes
  let seq := fld h 111 80
  let sid := q.id
  let s := s.heard sid d.mac
  let s := s.withSession sid fun q => { q with
    rxPhase := max q.rxPhase phase, ceBytes := if d.ce then q.ceBytes + d.bytes.length else q.ceBytes }
  let s := s.acknowledge sid fun x => x == fld h 143 112
  let msgId := fld h 175 144
  let count := fld h 207 192
  let type := fld h 31 24
  let ctx := fld h 255 208
  let idx := fld h 191 176
  -- the SEQ counts as received; a datagram that needs an acknowledgement gets one, unless an earlier ACK message covered it
  let record := fun (s : State) =>
    let s := s.withSession sid fun q =>
      let largest := if q.rxLargest == 0 || serialLt q.rxLargest seq then seq else q.rxLargest
      { q with rxLargest := largest, rxRanges := addRange largest seq q.rxRanges, ackDue := q.ackDue || !(bitAt h 23) }
    if bitAt h 23 then s else s.sendAck sid
  match s.session? sid with
  | none => s
  | some q =>
    if inRanges seq (q.rxRanges.take 64) then s
    else if inRanges seq q.rxRanges then record s
    else if (msgId + 2 ^ 32 - q.rxLow) % 2 ^ 32 > 65536 && !(serialLt msgId q.rxLow) then s
    else if q.rxDone.contains msgId || serialLt msgId q.rxLow then record s
    else if s.rxHeld + payload.length > s.cfg.limits.rxBytes then s.count (mwpCtr 0x408) 1
    else
      let m := (q.incomplete.find? (·.msgId == msgId)).getD { msgId, count, type, ctx, frags := [] }
      if disagrees m count type ctx idx payload then
        let s := (record s).completeMsg sid msgId
        let s := s.count (mwpCtr 0x408) 1
        if silentType m.type then s else s.reply sid msgId refMalformed 0
      else
        let m := { m with frags := insertKey idx payload m.frags }
        let s := record s
        if m.frags.length == m.count then s.deliver q d.sub d.mac m
        else s.withSession sid fun q => { q with incomplete := q.incomplete.filter (·.msgId != msgId) ++ [m] }

/-- Bytes leave a sub-port's receive buffer; below 2 MiB it sends XON (R326). -/
def rxDrain (sub n : Nat) (s : State) : State :=
  match s.subs.find? (·.1 == sub) with
  | none => s
  | some (_, p) =>
    let left := p.rxBytes - n
    let xon := p.xoffSent && decide (left < 2097152)
    let s : State := { s with subs := s.subs.map fun q => if q.1 == sub then (sub, { q.2 with rxBytes := left, xoffSent := q.2.xoffSent && !xon }) else q }
    if xon then s.emit (.pfc sub false) else s

/-- MWP_DATAGRAM_RX (R348): checked, unsealed, placed in its message and acknowledged. -/
def doMwpDatagramRx (d : Datagram) (s : State) : State :=
  if !s.portLive then s else
    let s := s.rxDrain d.sub d.bytes.length
    if !(datagramOk d.bytes) then s.count (mwpCtr 0x400) 1
    else
      let sid := fld (hdr d.bytes) 79 48
      if sid == 0 then s.rxPlain d
      else match s.sessions.find? fun q => q.wire == sid && q.peer == d.src with
        | none => s.count (mwpCtr 0x400) 1
        | some q =>
          if bitAt (hdr d.bytes) 21 == q.weInitiated then s.count (mwpCtr 0x400) 1
          else match opened q d.bytes with
            | none => s.count (mwpCtr 0x400) 1
            | some (phase, p) => s.rxSession d q phase p

/-- RETRANSMIT_TIMEOUT (R353): the expired datagram is resent and the timeout doubles. -/
def doRetransmitTimeout (sid seq : Nat) (s : State) : State :=
  match s.session? sid with
  | none => s
  | some q => match q.unacked.find? (·.seq == seq) with
    | none => s
    | some d =>
      let s := s.atLeast (d.sentAt + timeoutOf q)
      (s.resend sid seq).withSession sid fun q => { q with backoff := q.backoff + 1 }

/-- The window after one interval of t_min (R354). -/
def nextWindow (q : Session) : Nat × Rat :=
  let alpha : Rat := if q.ackedBytes = 0 then 0 else min 1 ((q.ceAcked : Rat) / (q.ackedBytes : Rat))
  let a := (15 * q.alpha + alpha) / 16
  let w := if q.ceAcked > 0 then max 4194304 (((q.window : Rat) * (1 - a / 2)).floor.toNat)
    else if q.lostAny then max 4194304 (q.window / 2)
    else min 67108864 (q.window + 65536)
  (w, a)

/-- WINDOW_UPDATE (R354): once per t_min. -/
def doWindowUpdate (sid : Nat) (s : State) : State :=
  match s.session? sid with
  | none => s
  | some q =>
    let (w, a) := nextWindow q
    let s := s.atLeast (q.windowAt + q.tMin.getD (ticksOfUs 45))
    let s := s.withSession sid fun q => { q with
      window := w, alpha := a, ackedBytes := 0, ceAcked := 0, lostAny := false, windowAt := s.portTicks }
    s.pump sid q.queue

/-- The delivered message that a command names: its session, MSG_ID, type and datagram payloads. -/
def taken? (s : State) (type : Nat) (m : Msg) : Option Delivered :=
  s.delivered.find? fun d => d.session == m.session && d.session != 0 && d.msgId == m.msgId && d.type == type && d.frags == m.frags

/-- A delivered message is taken. -/
def untake (d : Delivered) (s : State) : State := { s with delivered := s.delivered.erase d }

/-- ACK (R352): the datagrams in its ranges are acknowledged and its CE bytes counted; the first one from a responder
opens the session (R385). -/
def ackEffect (m : Msg) (s : State) : State :=
  let p := m.frags.flatten
  let n := uAt p 0 1
  let rs := (List.range n).map fun i => (uAt p (8 + 8 * i) 4, uAt p (12 + 8 * i) 4)
  if p.length == 8 + 8 * n && decide (n ≤ 64) then
    let s := s.withSession m.session fun q => { q with ceAcked := q.ceAcked + uAt p 4 4 }
    s.acknowledge m.session fun x => inRanges x rs
  else s

end State
end Sys2Proof.Machine
end

