-- ==== Sys2Proof/Machine/Gate.lean ====
section
/-! DEFINITION. Which message a session may send now (R357, R382, R401, R402, R414, R452), and taking a delivered message. -/

namespace Sys2Proof.Machine

/-- The permission bit that a host message needs (R382); an INSPECT write needs bit 3. -/
def permBit (type : Nat) (inspectWrite : Bool) : Nat :=
  if [0x10, 0x12, 0x38, 0x39].contains type then 0
  else if durableType type then 1
  else if type == 0x40 then (if inspectWrite then 3 else 2)
  else if [0x48, 0x50, 0x51, 0x52].contains type then 3
  else 4

/-- Types that only hosts send (R357). -/
def hostType (t : Nat) : Bool :=
  [0x10, 0x12, 0x38, 0x39, 0x40, 0x48, 0x50, 0x51, 0x52, 0x53].contains t || durableType t

namespace State

/-- The refusal of a message at the gate, or none: the sender (R357), its permissions (R382), recovery (R401), the failed
state (R402, R452), a stopped PORT (R414). -/
def gate (s : State) (q : Session) (type : Nat) (inspectWrite : Bool) : Option Outcome :=
  if hostType type && !q.host then some refNotPermitted
  else if [0x61, 0x63, 0x70].contains type && q.host then some refNotPermitted
  else if type == 0x78 && !(q.role == 2 && s.isTwinPartner q.dev && !q.host) then some refNotPermitted
  else if hostType type && !(bitAt q.perms (permBit type inspectWrite)) then some refNotPermitted
  else if s.boot.service == 2 && !(type == 0x53 || (type == 0x40 && !inspectWrite)) then some refStopped
  else if s.boot.service == 3 && !((type == 0x40 && !inspectWrite) || type == 0x05 || type == 0x62 || type == 0x04) then some refStopped
  else if s.boot.service == 1 && !(s.runs fnPort) && !([0x40, 0x50, 0x51, 0x52, 0x05, 0x62, 0x04].contains type)
      && !(s.works fnPort && silentType type) then
    some refStopped
  else none

/-- A delivered message of a type is taken, checked at the gate and handed to its handler; nothing happens when it was not
delivered or `test` says another row's command takes it. Messages that receive no REPLY are dropped at the gate. -/
def onMessage (type : Nat) (m : Msg) (inspectWrite : Bool) (test : Bytes → Bool)
    (f : Session → Delivered → Bytes → State → State) (s : State) : State :=
  match s.taken? type m, s.session? m.session with
  | some d, some q =>
    let p := d.frags.flatten
    if test p && s.portLive && q.opened then
      let s := s.untake d
      match s.gate q type inspectWrite with
      | some o => if silentType type && !(o == refNotPermitted) then s else s.reply q.id m.msgId o (if durableType type then uAt p 0 8 else 0)
      | none => f q d p s
    else s
  | _, _ => s

/-- M3 is extended by an event (R378). -/
def extendM3 (code : Nat) (payload : Bytes) (s : State) : State :=
  { s with boot := { s.boot with m3 := Config.sha384 (s.boot.m3 ++ leBytes 4 code ++ Config.sha384 payload) } }

end State
end Sys2Proof.Machine
end

