-- ==== Sys2Proof/Machine/VectorFn.lean ====
section
/-! DEFINITION. The vector unit's functions (R53, R54): each result is any FP32 value within the bound of R54 of the exact one,
which is computed in fixed point far below the bound. -/

namespace Sys2Proof.Machine

/-- Fraction bits of the fixed-point work. -/
def fxBits : Nat := 200
def fxOne : Int := 2 ^ fxBits

/-- A number of the fixed-point scale from `m × 2^e`. -/
def fxOf (m e : Int) : Int :=
  let k := e + fxBits
  if k ≥ 0 then m * 2 ^ k.toNat else m / 2 ^ (-k).toNat
def fxMul (a b : Int) : Int := a * b / fxOne
def fxDiv (a b : Int) : Int := if b = 0 then 0 else a * fxOne / b

/-- ln 2. -/
def fxLn2 : Int := ((List.range 210).map fun i => fxOne / (((i + 1 : Nat) : Int) * 2 ^ (i + 1))).sum

/-- e^r for 0 ≤ r < 1. -/
def fxExpSmall (r : Int) : Int :=
  ((List.range 60).foldl (fun (a : Int × Int) i => (a.1 + a.2, fxMul a.2 r / ((i + 1 : Nat) : Int))) (0, fxOne)).1

/-- A dyadic number `m × 2^e`. -/
structure Dy where
  m : Int
  e : Int
  deriving DecidableEq, Repr

def Dy.ofFx (x : Int) : Dy := ⟨x, -(fxBits : Int)⟩
def Dy.fx (d : Dy) : Int := fxOf d.m d.e
def Dy.mul (a b : Dy) : Dy := ⟨a.m * b.m, a.e + b.e⟩

/-- e^x for an x of the fixed-point scale. -/
def dyExp (x : Int) : Dy :=
  let k := x / fxLn2
  ⟨fxExpSmall (x - k * fxLn2), k - fxBits⟩

/-- ln of a positive dyadic number. -/
def fxLog (m e : Int) : Int :=
  let l := Nat.log2 m.natAbs
  let t := fxOf m (-(l : Int))
  let z := fxDiv (t - fxOne) (t + fxOne)
  let z2 := fxMul z z
  let s := ((List.range 80).foldl (fun (a : Int × Int) i => (a.1 + a.2 / ((2 * i + 1 : Nat) : Int), fxMul a.2 z2)) (0, z)).1
  2 * s + (e + l) * fxLn2

/-- 1 ÷ (1 + e^(−x)). -/
def fxSigmoid (x : Int) : Int :=
  if x > 200 * fxOne then fxOne else if x < -200 * fxOne then 0
  else
    let e := (dyExp (-(max x (-x)))).fx
    if x ≥ 0 then fxDiv fxOne (fxOne + e) else fxDiv e (fxOne + e)

/-- tanh x. -/
def fxTanh (x : Int) : Int :=
  if x > 200 * fxOne then fxOne else if x < -200 * fxOne then -fxOne
  else
    let e := (dyExp (-2 * (max x (-x)))).fx
    let t := fxDiv (fxOne - e) (fxOne + e)
    if x ≥ 0 then t else -t

/-- A decimal constant of the fixed-point scale: digits after the point. -/
def fxDec (n : Nat) (digits : Nat) : Int := (n : Int) * fxOne / 10 ^ digits

/-- erf x. -/
def fxErf (x : Int) : Int :=
  if x > 8 * fxOne then fxOne else if x < -8 * fxOne then -fxOne
  else
    let x2 := fxMul x x
    let s := ((List.range 320).foldl (fun (a : Int × Int) i =>
      (a.1 + a.2 / ((2 * i + 1 : Nat) : Int), -(fxMul a.2 x2) / ((i + 1 : Nat) : Int))) (0, x)).1
    fxMul s (fxDec 11283791670955125738961589031215451716881 40)

/-- The value of an FP32 pattern as a dyadic number, for finite ones. -/
def f32Dy (x : W32) : Option Dy :=
  match f32Val x with
  | .fin _ m e => some ⟨m, e⟩
  | _ => none

/-- |a − b| ≤ t. -/
def dyWithin (a b t : Dy) : Bool :=
  let e := min (min a.e b.e) t.e
  let at' := fun (d : Dy) => d.m * 2 ^ (d.e - e).toNat
  decide ((at' a - at' b).natAbs ≤ (at' t).natAbs)

/-- `n` ulps of the FP32 result nearest a value. -/
def dyUlps (n : Nat) (d : Dy) : Dy :=
  let top : Int := if d.m = 0 then -126 else max (-126) ((Nat.log2 d.m.natAbs : Int) + d.e)
  ⟨n, top - 23⟩

namespace State

/-- A value of the exact one's sign that keeps R50: never -0, and +0 or 2⁻¹⁴⁹ in magnitude, whichever is nearer, below the smallest
subnormal. `c` is the exact value rounded once. -/
def underflowOk (exact : Dy) (c x : W32) : Bool :=
  if Nat.log2 exact.m.natAbs + exact.e < -149 then x == c else x == 0 || (f32Val x).isNeg == decide (exact.m < 0)

/-- Any FP32 value within `ulps` of the exact one that keeps R50, or within `2^abs` where R54 gives that alternative and it is
larger; -0 is none of them. -/
def near (exact : Dy) (ulps : Nat) (abs : Option Int) (s : State) : W32 × State :=
  let c := f32OfDyadic exact.m exact.e
  if f32IsInf c then (c, s)
  else
    let f := s.freeW32
    let ok := match f32Dy f.1 with
      | some d => f.1 != 0x80000000#32 && ((dyWithin d exact (dyUlps ulps exact) && underflowOk exact c f.1) || (match abs with
        | some a => dyWithin d exact ⟨1, a⟩
        | none => false))
      | none => false
    (if ok then f.1 else c, f.2)

/-- Division, 1 ulp (R54); special values by IEEE 754. -/
def vdiv (a b : W32) (s : State) : W32 × State :=
  match f32Dy a, f32Dy b with
  | some x, some y =>
    if x.m = 0 || y.m = 0 then (f32DivExact a b, s)
    else
      -- 200 bits of quotient beyond the operands' own
      let q := x.m * 2 ^ (2 * fxBits) / y.m
      s.near ⟨q, x.e - y.e - (2 * fxBits : Nat)⟩ 1 none
  | _, _ => (f32DivExact a b, s)

/-- 1 ÷ √a, 1 ulp (R54). -/
def vrsqrt (a : W32) (s : State) : W32 × State :=
  match f32Val a with
  | .nan => (f32NaN, s)
  | .inf n => (if n then f32NaN else 0, s)
  | .fin z m e =>
    if m = 0 then (f32Inf z, s) else if m < 0 then (f32NaN, s)
    else
      -- √(2^(2k) ÷ (m × 2^e')) with an even e'
      let e' := if e % 2 = 0 then e else e - 1
      let m' := m.natAbs * 2 ^ (e - e').toNat
      s.near ⟨(Nat.sqrt (2 ^ (2 * fxBits) / m') : Nat), -(fxBits : Int) - e' / 2⟩ 1 none

/-- The functions of R54 of one operand, by the number that `Config.unaryFn` gives: 0 square root, 1 reciprocal, 2 reciprocal
square root, 3 exp, 4 exp2, 5 log, 6 log2, 7 tanh, 8 sigmoid, 9 GELU by tanh, 10 GELU by erf, 11 SiLU. -/
def unary (fn : Nat) (a : W32) (s : State) : W32 × State :=
  match fn % 12 with
  | 0 => (f32Sqrt a, s)
  | 1 => s.vdiv 0x3F800000#32 a
  | 2 => s.vrsqrt a
  | f =>
    match f32Val a with
    | .nan => (f32NaN, s)
    | .inf n => (match f, n with
      | 3, false => f32Inf false
      | 4, false => f32Inf false
      | 5, false => f32Inf false
      | 6, false => f32Inf false
      | 5, true => f32NaN
      | 6, true => f32NaN
      | 7, false => 0x3F800000#32
      | 7, true => 0xBF800000#32
      | 8, false => 0x3F800000#32
      | 9, false => f32Inf false
      | 10, false => f32Inf false
      | 11, false => f32Inf false
      | _, _ => 0, s)
    | .fin _ m e =>
      let x := fxOf m e
      let big := decide (1024 * fxOne < x)
      let small := decide (x < -1024 * fxOne)
      match f with
      | 3 => if big then (f32Inf false, s) else if small then (0, s) else s.near (dyExp x) 2 none
      | 4 => if big then (f32Inf false, s) else if small then (0, s) else s.near (dyExp (fxMul x fxLn2)) 2 none
      | 5 => if m = 0 then (f32Inf true, s) else if m < 0 then (f32NaN, s) else s.near (.ofFx (fxLog m e)) 2 none
      | 6 => if m = 0 then (f32Inf true, s) else if m < 0 then (f32NaN, s) else s.near (.ofFx (fxDiv (fxLog m e) fxLn2)) 2 none
      | 7 => s.near (.ofFx (fxTanh x)) 2 (some (-24))
      | 8 => s.near (.ofFx (fxSigmoid x)) 2 (some (-24))
      | 9 =>
        let y := if big then fxOne else if small then -fxOne else fxTanh (fxMul (fxDec 7978845608028653558798921198687637369517 40)
          (x + fxMul (fxDec 44715 6) (fxMul x (fxMul x x))))
        s.near (Dy.mul ⟨m, e - 1⟩ (.ofFx (fxOne + y))) 4 (some (-22))
      | 10 => s.near (Dy.mul ⟨m, e - 1⟩ (.ofFx (fxOne + fxErf (fxMul x (fxDec 7071067811865475244008443621048490392848 40))))) 4 (some (-22))
      | _ => s.near (Dy.mul ⟨m, e⟩ (.ofFx (fxSigmoid x))) 4 (some (-22))

/-- The functions of R54 of two operands, by the number that `Config.binaryFn` gives: 0 add, 1 subtract, 2 multiply, 3 minimum,
4 maximum, 5 division. -/
def binary (fn : Nat) (a b : W32) (s : State) : W32 × State :=
  match fn % 6 with
  | 0 => (f32Add a b, s)
  | 1 => (f32Sub a b, s)
  | 2 => (f32Mul a b, s)
  | 3 => (f32Min a b, s)
  | 4 => (f32Max a b, s)
  | _ => s.vdiv a b

/-- A sum whose order and grouping nothing fixes (R44): any two of the terms are added, until one is left. -/
def sumAny {α : Type} (add : α → α → α) (zero : α) : Nat → List α → State → α × State
  | _, [], s => (zero, s)
  | _, [x], s => (x, s)
  | 0, x :: _, s => (x, s)
  | k + 1, x :: y :: r, s =>
    let l := x :: y :: r
    let i := s.freeBelow l.length
    let rest := l.eraseIdx i.1
    let j := i.2.freeBelow rest.length
    sumAny add zero k (add (l.getD i.1 x) (rest.getD j.1 y) :: rest.eraseIdx j.1) j.2

/-- A sum of FP32 terms in any order; a zero sum is +0 whatever the signs of its terms (R49). -/
def sumF32 (xs : List W32) (s : State) : W32 × State :=
  let r := sumAny f32Add 0 xs.length xs s
  (if f32IsZero r.1 then 0 else r.1, r.2)

/-- A saturating INT32 sum in any order (R41), and whether an addition saturated. When no order can leave the range the sum is
exact (R51). -/
def sumI32 (xs : List Int) (s : State) : (Int × Bool) × State :=
  let pos := (xs.filter (0 < ·)).sum
  let neg := (xs.filter (· < 0)).sum
  if pos < 2 ^ 31 && neg ≥ -(2 ^ 31) then ((pos + neg, false), s)
  else sumAny (fun (a b : Int × Bool) => let r := satInt 32 (a.1 + b.1); (r.1, a.2 || b.2 || r.2)) (0, false) xs.length
    (xs.map fun x => (x, false)) s

/-- A list mapped with a function that draws free values. -/
def mapFree {α β : Type} (f : α → State → β × State) : List α → State → List β × State
  | [], s => ([], s)
  | x :: r, s =>
    let y := f x s
    let ys := mapFree f r y.2
    (y.1 :: ys.1, ys.2)

/-- `n` bytes of a string; bytes that it lacks are free, since nothing says what an operand beyond its stream reads as. -/
def need (n : Nat) (bs : Bytes) (s : State) : Bytes × State :=
  if n ≤ bs.length then (bs.take n, s)
  else (bs ++ (List.range (n - bs.length)).map (fun i => Config.freeByte (s.free + i)), { s with free := s.free + (n - bs.length) })

end State
end Sys2Proof.Machine
end

