-- ==== Sys2Proof/Machine/Control.lean ====
section
/-! DEFINITION. Control messages (R367): POWER and its completions (R423 to R430), STOP, CONFIG, RESTART in their single
order (R410 to R418), IMAGE_WRITE (R419), INSPECT (R472 to R476). -/

namespace Sys2Proof.Machine

namespace State

/-- Requests in flight whose path needs a function of a mask (R411): every entry that is not FREE. -/
def anyNeeds (s : State) (m : Nat) : Bool := s.reqs.any fun r => r.2.needs &&& m != 0
/-- Requests in flight with a stage bound to a pool (R430). -/
def boundTo (p : Nat) (r : Request) : Bool := r.stages.any (·.pool == p)

-- Checks of a CONFIG against the held objects (R71, R111)

/-- The pool that a stage kind binds to (R21); a WHEEL stage binds by its corpus. -/
def bindKind (pools : List PoolCfg) (k : Nat) : Option Nat :=
  match pools.findIdx? (·.has k) with
  | some i => some i
  | none => if k == 0 then none else pools.findIdx? (·.has 6)

/-- The pool that a stage of a plan binds to under a layout (R21). -/
def bindStage (pools : List PoolCfg) (st : Stage) : Option Nat :=
  if st.kind == 0 then pools.findIdx? fun p => p.has 0 && p.corpus == st.object else bindKind pools st.kind

/-- A loaded plan fits a pool layout (R71, R111): none when it does, else the failing stage, and whether its footprint fails. A WHEEL stage
whose corpus rotates nowhere is no cause (R21). -/
def planFits (pools : List PoolCfg) (pl : Plan) : Option (Nat × Bool) :=
  pl.stages.zipIdx.findSome? fun (st, i) =>
    match (bindStage pools st).bind (pools[·]?) with
    | none => if st.kind == 0 then none else some (i, false)
    | some p =>
      let wis := (pl.items.drop st.wiFirst).take st.wiCount
      if st.footprint > p.footLimit then some (i, true)
      else if p.cols < st.minCols || wis.any (fun w => (bitAt w 24 && decide (p.tiles ≤ fld w 42 32))
          || (bitAt w 329 && !(bitAt w 341) && decide (p.tiles ≤ fld w 340 330))) then some (i, false)
      else none

/-- Corpora, tables and stores that the new CATALOGUE does not define as they were are gone, with their memory; new corpora start at
version 0 with a permutation of their own (R131, R133). -/
def refreshStores (old : RunCfg) (s : State) : State :=
  let cKept := fun (id : Nat) => s.cfg.corpora.any fun c => c.id == id && old.corpora.contains c
  let tKept := fun (id : Nat) => s.cfg.tables.any fun t => t.id == id && old.tables.any fun u => { u with hotRefreshMs := 0 } == { t with hotRefreshMs := 0 }
  let pKept := fun (id : Nat) => s.cfg.stores.any fun c => c.id == id && old.stores.contains c
  let cs := s.corpora.filter fun k => !(cKept k.id)
  let ts := s.tables.filter fun v => !(tKept v.table)
  let ps := s.stores.filter fun v => !(pKept v.store)
  let hs := s.hotSets.filter fun v => !(tKept v.table)
  let runs := s.tableRuns.filter fun r => !(tKept r.id)
  let ranges := cs.flatMap (fun k => ((old.corpora.find? (·.id == k.id)).map fun c => corpusRanges c k).getD [])
    ++ (ts.flatMap fun v => v.slabs.map Prod.snd).eraseDups ++ ts.map (fun v => (v.base, 4096))
    ++ (ps.flatMap fun v => v.passages.map fun p => (p.addr, 4 * p.tokens)).eraseDups ++ hs.map fun v => (v.replica, v.replicaBytes)
  let late := ts.flatMap (·.waiting) ++ runs.flatMap fun r => r.waiting.toList ++ (r.installing.map Prod.fst).toList
  let s : State := { s with
    corpora := s.corpora.filter fun k => cKept k.id, tables := s.tables.filter fun v => tKept v.table
    stores := s.stores.filter fun v => pKept v.store, hotSets := s.hotSets.filter fun v => tKept v.table
    tableRuns := s.tableRuns.filter fun r => tKept r.id, storeRuns := s.storeRuns.filter fun r => pKept r.id
    exchanges := s.exchanges.filter fun e => e.kind != 2 || tKept e.object, hotStale := true }
  let s := late.foldl (fun (s : State) w => s.endWrite w refNotHeld) (s.releaseAll ranges)
  let new := s.cfg.corpora.filter fun c => !(s.corpora.any (·.id == c.id))
  let s := new.foldl (fun (s : State) c => { s with corpora := s.corpora ++ [{ id := c.id, perm := s.free }], free := s.free + 1 }) s
  if cs.isEmpty && ts.isEmpty && ps.isEmpty && hs.isEmpty && new.isEmpty then s else s.bumpObjects

/-- An image of the TEXT section stands in HBM (R221). -/
def placeImage (b : Bytes) (s : State) : Nat × State :=
  match s.alloc (max 128 b.length) 128 with
  | some (a, s) => (a, s.writeMem a b)
  | none => (hbmBytes, s)

/-- The tokenisers' images stand in HBM (R109, R221); those of the section before go once no stage reads a tokeniser. -/
def refreshText (old : RunCfg) (s : State) : State :=
  if old.toks == s.cfg.toks then s
  else
    let size := fun (t : TokCfg) => (max 128 t.charMap.length, max 128 t.trie.length, max 128 t.pieces.length)
    let held := s.textImages.flatMap fun (y : Nat × Nat × Nat × Nat) => match old.toks.find? (·.id == y.1) with
      | some t => [(y.2.1, (size t).1), (y.2.2.1, (size t).2.1), (y.2.2.2, (size t).2.2)]
      | none => []
    let s : State := { s with textImages := [], textOld := s.textOld ++ held.filter fun r => decide (r.1 < hbmBytes) }
    s.cfg.toks.foldl (fun (s : State) t =>
      let a := s.placeImage t.charMap
      let b := a.2.placeImage t.trie
      let c := b.2.placeImage t.pieces
      { c.2 with textImages := c.2.textImages ++ [(t.id, a.1, b.1, c.1)] }) s

/-- What follows in the held objects from a new CATALOGUE or TEXT section. -/
def refreshCatalogue (old : RunCfg) (s : State) : State := (s.refreshStores old).refreshText old

/-- The KV region as LIMITS gives it (R275, R408). Pages that prefix handles hold in an older region stay in use where they are. -/
def placeKv (s : State) : State :=
  if s.kvSize == s.cfg.limits.kvBytes then s
  else
    let s : State := { s with used := s.used.erase (s.kvBase, s.kvSize) ++ s.kvUsed, kvBase := 0, kvSize := 0 }
    match (if s.cfg.limits.kvBytes = 0 then none else s.alloc s.cfg.limits.kvBytes 2097152) with
    | some (a, s) => { s with kvBase := a, kvSize := s.cfg.limits.kvBytes }
    | none => s

/-- What starting functions sets up in the working state (R229, R412): the KV region, empty trie caches, and hot areas that wait to be loaded. -/
def startWork (m : Nat) (s : State) : State :=
  let s := if bitAt m 1 then s.placeKv else s
  let s := if bitAt m 5 then s.dropTries else s
  if bitAt m 4 || m == 0 then { s with hotStale := true } else s

/-- Dirty lines of some pools' tiles are written back and their tile memory is lost (R426, R430). -/
def powerDownTiles (sel : Nat → Bool) (s : State) : State :=
  let s := s.loseTiles sel
  let lost := fun (a : Nat) => match tileOf a with
    | some (t, _) => (match s.poolOf t with
      | some p => sel p
      | none => true)
    | none => false
  { s with
    mem := s.mem.filter fun c => inHbm c.1 || !(lost c.1), wheels := s.wheels.filter fun w => !(sel w.pool), hotStale := true
    pools := s.pools.map fun p => if sel p.1 then (p.1, { p.2 with staged := [], spilled := [], openPages := [] }) else p }

/-- A pool has no stage running or queued (R272). -/
def poolQuiet (s : State) (p : Nat) : Bool :=
  (s.pool p).queue.isEmpty && (s.pool p).overflow.isEmpty && (s.pool p).blocked.isEmpty
  && !(s.tiles.any fun t => s.poolOf t.1 == some p && (t.2.running.isSome || !t.2.queue.isEmpty || !t.2.closing.isEmpty))
  && !(s.completions.any (·.pool == p)) && !(s.wheels.any fun w => w.pool == p && !w.riders.isEmpty) && !(s.steps.any (·.pool == p))
  && !(s.reqs.any fun r => r.2.status.isNone && r.2.stages.any fun x => x.pool == p && x.started && !x.done)

/-- Share weights as a list by class. -/
def weightsOf (c : RunCfg) : List (Nat × Nat) := c.mode.classes.map fun x => (x.1, x.2.1)

/-- The share weights of a MODE section that CONFIG carries live: each pool takes them at its next stage boundary, or at once with no
stage running or queued (R272, R409). -/
def newShareWeights (old : RunCfg) (s : State) : State :=
  (List.range s.cfg.pools.length).foldl (fun (s : State) p =>
    if s.poolQuiet p then (if (s.pool p).weights.isEmpty then s else s.setPool p fun x => { x with weights := [], newWeights := false })
    else s.setPool p fun x => { x with weights := if x.weights.isEmpty then weightsOf old else x.weights, newWeights := true, boundary := false }) s

/-- Whether every pool has passed its stage boundary since (R416). -/
def weightsSettled (s : State) : Bool := s.pools.all fun p => !p.2.newWeights

/-- A section parsed into the running copy (R415), with the checks that relate it to the other sections and to the held
objects. -/
def parseSection (s : State) (code : Nat) (bs : Bytes) : Except Fail RunCfg := do
  let c := s.cfg
  let part := s.fuses.part
  let c' ← match code with
    | 0 => do let x ← parsePort bs; return { c with port := x }
    | 1 => do let x ← parsePools part bs; return { c with pools := x }
    | 2 => do let x ← parseMode part bs; return { c with mode := x }
    | 3 => do let x ← parsePower bs; return { c with power := x }
    | 5 => do let x ← parsePeers bs; return { c with peers := x }
    | 6 => do let x ← parseTwin bs; return { c with twin := x }
    | 7 => do let x ← parseText bs; return { c with toks := x }
    | 8 => do let x ← parseCatalogue part bs; return { c with corpora := x.1, tables := x.2.1, stores := x.2.2 }
    | 9 => do let x ← parseLimits bs; return { c with limits := x }
    | _ => .error .malformed
  guard' (crossOk c') .check
  guard' (code != 1 || s.plans.all fun p => (planFits c'.pools p).isNone) .check
  return c'

/-- The functions that depend on a section (R404). -/
def dependents (code : Nat) : Nat :=
  match code with
  | 0 => fnPort
  | 1 => fnPools
  | 2 => fnHopper ||| fnPools
  | 3 => fnPools
  | 5 => fnHopper ||| fnLookup ||| fnWheel ||| fnTwin
  | 6 => fnTwin
  | 7 => fnText
  | 8 => fnWheel ||| fnLookup ||| fnServe
  | 9 => fnPort ||| fnHopper ||| fnServe
  | _ => 0

/-- The running copy with its LIVE fields taken from another (R409). -/
def withLive (c n : RunCfg) : RunCfg :=
  { c with
    mode := { c.mode with admitLimit := n.mode.admitLimit, classes := n.mode.classes }
    tables := c.tables.map fun t =>
      match n.tables.find? (·.id == t.id) with
      | some u => { t with hotRefreshMs := u.hotRefreshMs }
      | none => t
    peers := { c.peers with hbUs := n.peers.hbUs, hbMiss := n.peers.hbMiss } }

/-- Listed devices occupy the entries of their index; entries of devices no longer listed go (R331, R333, R335). -/
def listPeers (s : State) : State :=
  let listed := s.cfg.peers.devices
  let kept := s.peers.filter fun p => p.2.role == 0 && !(listed.any (·.index == p.1))
  let entries := listed.map fun d =>
    match s.peers.find? fun p => p.1 == d.index && p.2.role == d.role + 1 with
    | some p => p
    | none => (d.index, { state := 1, role := d.role + 1, devIndex := d.index : PeerEntry })
  { s with peers := sortBy (fun a b => decide (a.1 ≤ b.1)) (kept ++ entries) }

/-- A CONFIG message (R415, R416) as it is handled: its outcome, and whether the reply waits. -/
def applyConfig (c : CtlOp) (s : State) : State × Option Outcome :=
  let w := uAt c.payload 0 16
  let code := fld w 3 0
  let live := bitAt w 4
  let body := c.payload.drop 16
  if c.payload.length < 16 || fld w 127 5 != 0 || inRange 10 14 code then (s, some refMalformed)
  else if !live then
    if s.fns.running &&& dependents code != 0 then (s, some refBusy)
    else if code == 4 || code == 15 then (s, some refNotPermitted)
    else match s.parseSection code body with
      | .error f => (s, some f.outcome)
      | .ok n =>
        let old := s.cfg
        let s := { s with cfg := n }.extendM3 2 c.payload
        let s := if code == 5 then s.listPeers else s
        (s.refreshCatalogue old, some {})
  else if code == 4 || code == 15 then (s, some refNotPermitted)
  else match s.parseSection code body with
    | .error f => (s, some f.outcome)
    | .ok n =>
      if withLive s.cfg n == n then
        let old := s.cfg
        let s := { s with cfg := n }.extendM3 2 c.payload
        let s := if code == 2 then s.newShareWeights old else s
        (s, if code == 2 && !s.weightsSettled then none else some {})
      else (s, some refWrongState)

/-- A STOP as it is handled (R411): the functions stop; the reply waits for the requests in flight. -/
def applyStop (c : CtlOp) (s : State) : State × Option Outcome :=
  let w := uAt c.payload 0 16
  if c.payload.length != 16 || fld w 127 9 != 0 then (s, some refMalformed)
  else
    let stop := stopClosure (fld w 7 0) &&& s.fns.running
    let s := if bitAt w 8 then s.abortFunctions (fld w 7 0) stCancelled
      else { s with fns := { s.fns with running := maskWithout s.fns.running stop } }
    ({ s with fns := { s.fns with current := some { c with functions := stop } } }, none)

/-- Every function of a mask has what it needs running or named with it (R410, R417). -/
def restartOk (running m : Nat) : Bool :=
  (List.range 8).all fun f => !(bitAt m f) || (fnNeeds f) &&& (running ||| m) == fnNeeds f

/-- A RESTART as it is handled (R412, R417, R418, R442, R450). -/
def applyRestart (c : CtlOp) (s : State) : State × Option Outcome :=
  let w := uAt c.payload 0 16
  let m := fld w 7 0
  let new := maskWithout m s.fns.running
  if c.payload.length != 16 || fld w 127 8 != 0 then (s, some refMalformed)
  else if m &&& s.fns.recovering != 0 || !(restartOk s.fns.running m) then (s, some refWrongState)
  else if bitAt new 2 && !(s.power.state == 0 && s.power.arraysClocked) then (s, some refWrongState)
  else
    let s := { s with fns := { s.fns with running := s.fns.running ||| m } }
    let s := s.extendM3 3 c.payload
    let v := s.cfg.mode.vals s.fuses.part
    let s := if bitAt new 2 && s.power.pLevel != v.pLevel then s.emit (.avs v.pLevel) else s
    let s := if bitAt new 2 then { s with power := { s.power with
        pLevel := v.pLevel, cap := v.cap, spreadArith := s.cfg.power.arithSpread, spreadMesh := s.cfg.power.meshSpread } } else s
    let s := if bitAt new 7 then s.enterSolo else s
    (s.startWork new, some {})

/-- The cause of a POWER refusal, or none (R425, R426, R433, R442). -/
def powerRefusal (s : State) (w : Nat) : Option Outcome :=
  let st := fld w 2 0
  let lvl := fld w 5 3
  let gate := fld w 15 8
  let cap := fld w 31 16
  let v := s.cfg.mode.vals s.fuses.part
  let applies := st == 0 || (st == 7 && s.power.state == 0)
  if inRange 4 6 st || (!applies && lvl != 0) || decide (2 ^ s.cfg.pools.length ≤ gate)
      || (applies && decide (v.pLevel < lvl)) || (cap != 0 && !(inRange 600 v.cap cap)) then some refCheck
  else if (st == 1 || st == 2) && s.fns.running &&& 0x7C != 0 then some refBusy
  else if st == 2 && (s.twinState == 1 || s.twinState == 2) then some refWrongState
  else if st == 0 && s.power.thermalHold && decide (1600 < s.power.hottest) then some refWrongState
  else none

/-- A POWER as it is handled (R425 to R430): changes start, and the reply waits for those that take time. -/
def applyPower (c : CtlOp) (s : State) : State × Option Outcome :=
  let w := uAt c.payload 0 16
  if c.payload.length != 16 || fld w 7 6 != 0 || fld w 127 32 != 0 then (s, some refMalformed)
  else match s.powerRefusal w with
    | some o => (s, some o)
    | none =>
      let st := fld w 2 0
      let lvl := fld w 5 3
      let gate := fld w 15 8
      let cap := fld w 31 16
      let p := s.power
      let setG := maskWithout gate p.gate
      let clrG := maskWithout p.gate gate
      let pools := List.range s.cfg.pools.length
      let lvlApplies := (st == 0 || (st == 7 && p.state == 0)) && lvl != p.pLevel
      -- a falling clock switches at once and VDD_CORE is lowered after it; a rising one waits for the voltage (R429)
      let falls := lvlApplies && decide (p.pLevel < lvl)
      let p := { p with
        cap := if cap == 0 then p.cap else cap
        pLevel := if falls then lvl else p.pLevel
        newLevel := if lvlApplies && !falls then some lvl else none
        target := if st == 7 || (st == p.state && p.state != 0) || (st == 0 && p.state == 0 && p.arraysClocked) then none else some st
        gate := p.gate ||| setG
        draining := (pools.filter (bitAt setG)).map fun i => (i, c.arrived)
        ungating := pools.filter (bitAt clrG) }
      let s := { s with power := p, fns := { s.fns with current := some c } }
      let s := if lvlApplies then s.emit (.avs lvl) else s
      (if st == 3 then s.abortFunctions 0xFF stCancelled else s, none)

/-- The device leaves OFF_PREP's reply behind: PEER_BYE with reason 0 on every session, sessions closed, port silent
(R426). -/
def goQuiet (s : State) : State :=
  let s := s.sessions.foldl (fun s q => (s.sendMessage q.id 0x61 0 false (leBytes 4 0)).closeSession q.id 0) s
  let s := s.sessions.foldl (fun s q => s.dropSession q.id) s
  { s with boot := { s.boot with offPrep := true } }

/-- PORT has stopped: every session is closed and told (R351, R414). -/
def closeAll (reason : Nat) (s : State) : State :=
  s.sessions.foldl (fun s q => (s.closeSession q.id reason).dropSession q.id) s

/-- The sub-ports are trained again when MODE or PMD changed (R414). -/
def retrain (s : State) : State :=
  let want := (s.cfg.port.mode, s.cfg.port.pmd)
  if s.trained == want then s
  else { s with trained := want, subs := (List.range s.cfg.port.subs).map fun i => (i, {}) }

/-- The control message in progress is answered. -/
def finishCurrent (o : Outcome) (s : State) : State :=
  match s.fns.current with
  | none => s
  | some c =>
    let s := { s with fns := { s.fns with current := none } }
    let s := s.reply c.session c.msgId o 0
    if o.status != 0 then s
    else if c.type == 0x50 && bitAt c.functions 0 then s.closeAll 0
    else if c.type == 0x52 && bitAt (uAt c.payload 0 1) 0 && c.functions == 1 then
      (s.closeAll 0).retrain.sendHellos
    else s

/-- A control message is handled now (R413, R425). -/
def startCtl (c : CtlOp) (s : State) : State :=
  let portStopped := !(bitAt s.fns.running 0)
  let c := if c.type == 0x52 then { c with functions := b01 portStopped } else c
  let s := { s with fns := { s.fns with current := some c } }
  let r := match c.type with
    | 0x48 => s.applyPower c
    | 0x50 => s.applyStop c
    | 0x51 => s.applyConfig c
    | _ => s.applyRestart c
  match r.2 with
  | some o => r.1.finishCurrent o
  | none => r.1

/-- A POWER in progress: pools whose requests have gone are gated. -/
def settleGating (s : State) : State :=
  let ready := s.power.draining.filter fun d => !(s.reqs.any fun r => boundTo d.1 r.2)
  if ready.isEmpty then s else
    let s := s.powerDownTiles fun p => ready.any (·.1 == p)
    { s with power := { s.power with draining := s.power.draining.filter fun d => !(ready.contains d) } }

/-- The control message in progress ends if nothing it waits for is left. -/
def settleCurrent (s : State) : State :=
  match s.fns.current with
  | none => s
  | some c =>
    match c.type with
    | 0x50 => if s.anyNeeds c.functions then s else (s.clearWork c.functions).finishCurrent {}
    | 0x48 =>
      let s := s.settleGating
      if s.power.target.isNone && s.power.newLevel.isNone && s.power.draining.isEmpty && s.power.ungating.isEmpty then
        s.finishCurrent {}
      else s
    | 0x51 => if s.weightsSettled then s.finishCurrent {} else s
    | _ => s

/-- What the control cluster does as soon as it can: the message in progress ends when what it waits for has come, and
those that wait are handled in order of arrival (R413). -/
def settleWith : Nat → State → State
  | 0, s => s.settleCurrent
  | k + 1, s =>
    let s := s.settleCurrent
    match s.fns.current, s.fns.waiting with
    | none, c :: r => settleWith k ({ s with fns := { s.fns with waiting := r } }.startCtl c)
    | _, _ => s

def settle (s : State) : State := if s.fns.current.isNone && s.fns.waiting.isEmpty then s else settleWith s.fns.waiting.length s

/-- A POWER, STOP, CONFIG or RESTART message arrives and takes its place in the single order (R413, R425). -/
def control (type : Nat) (test : Bytes → Bool) (m : Msg) (s : State) : State :=
  s.onMessage type m false test fun q _ p s =>
    let c : CtlOp := { session := q.id, msgId := m.msgId, type, payload := p, arrived := s.portTicks }
    State.settle { s with fns := { s.fns with waiting := s.fns.waiting ++ [c] } }

/-- POWER (R425). -/
def doPower (m : Msg) (s : State) : State := s.control 0x48 (fun _ => true) m
/-- STOP with ABORT 0 and 1 (R411). -/
def doStopDrain (m : Msg) (s : State) : State := s.control 0x50 (fun p => !(bitAt (uAt p 0 16) 8)) m
def doStopAbort (m : Msg) (s : State) : State := s.control 0x50 (fun p => bitAt (uAt p 0 16) 8) m
/-- CONFIG with LIVE_ONLY 0 and 1 (R415, R416). -/
def doConfigSection (m : Msg) (s : State) : State := s.control 0x51 (fun p => !(bitAt (uAt p 0 16) 4)) m
def doConfigLive (m : Msg) (s : State) : State := s.control 0x51 (fun p => bitAt (uAt p 0 16) 4) m
/-- RESTART (R417). -/
def doRestart (m : Msg) (s : State) : State := s.control 0x52 (fun _ => true) m

/-- STOP_DRAIN_TIMEOUT (R411): requests still in flight DRAIN_MS after a draining STOP arrived end CANCELLED. -/
def doStopDrainTimeout (s : State) : State :=
  match s.fns.current with
  | some c =>
    if c.type == 0x50 && !(bitAt (uAt c.payload 0 16) 8) then
      let s := s.atLeast (c.arrived + ticksOfMs s.cfg.limits.drainMs)
      (s.endRequests (fun r => r.needs &&& c.functions != 0) stCancelled).settle
    else s
  | none => s

/-- POOL_GATE_DRAIN_TIMEOUT (R430). -/
def doPoolGateDrainTimeout (pool : Nat) (s : State) : State :=
  match s.power.draining.find? (·.1 == pool) with
  | some d =>
    let s := s.atLeast (d.2 + ticksOfMs s.cfg.limits.drainMs)
    (s.endRequests (boundTo pool) stCancelled).settle
  | none => s

/-- All of HBM is zeroised, and holds nothing any more (R393). -/
def zeroHbm (s : State) : State :=
  { s with
    mem := s.mem.filter fun c => !(inHbm c.1), used := [], zeroing := [], kvUsed := [], kvBase := 0, kvSize := 0, plans := [], models := []
    adapters := [], grammars := [], prefixes := [], loads := [], removals := [], tables := [], stores := [], hotSets := [], tableRuns := []
    storeRuns := [], corpora := s.corpora.map fun k => { id := k.id, perm := k.perm }, textImages := [], textOld := [], objectGen := satTo 64 (s.objectGen + 1) }
/-- All tile memory reads zero (R421). -/
def zeroTiles (s : State) : State := { s with mem := s.mem.filter fun c => inHbm c.1 }

/-- A tile fails its self-test: a DEVICE event under cause 0x3A (R3, R426, R446). -/
def selfTestFails (t : Nat) (s : State) : State := s.deviceEvent { cause := 0x3A, unit := 0, unitIndex := t }

/-- POWER_TRANSITION_DONE (R426): the commanded state is entered. Leaving STANDBY self-tests the tiles. -/
def doPowerTransitionDone (failedTile : Option Nat) (s : State) : State :=
  match s.power.target with
  | none => s
  | some st =>
    let from2 := s.power.state == 2
    let enter := fun (s : State) => { s with power := { s.power with state := st, target := none, arraysClocked := st == 0 } }
    match from2, failedTile with
    | true, some t => (s.zeroTiles).selfTestFails t
    | _, _ =>
      if st == 3 then
        let s := (enter s).zeroHbm.powerDownTiles fun _ => true
        match s.fns.current with
        | some c => ({ s with fns := { s.fns with current := none } }.reply c.session c.msgId {} 0).goQuiet
        | none => s.goQuiet
      else
        let s := if st == 2 then s.powerDownTiles fun _ => true else if from2 then s.zeroTiles else s
        let s := enter s
        let s := if st == 0 then { s with power := { s.power with thermalHold := false } } else s
        s.settle

/-- PLEVEL_VOLTAGE_REACHED (R429): the divider switches to the new P-level. -/
def doPlevelVoltageReached (s : State) : State :=
  match s.power.newLevel with
  | none => s
  | some n => ({ s with power := { s.power with pLevel := n, newLevel := none } }).settle

/-- POOL_UNGATE_READY (R430): the pool's tiles are powered and self-tested, and it accepts work. -/
def doPoolUngateReady (pool : Nat) (failedTile : Option Nat) (s : State) : State :=
  if s.power.ungating.contains pool then
    match failedTile with
    | some t => s.selfTestFails t
    | none =>
      let s := { s with power := { s.power with
        gate := maskWithout s.power.gate (2 ^ pool), ungating := s.power.ungating.filter (· != pool) } }
      (s.startWork 0).settle
  else s

-- IMAGE_WRITE (R400, R401, R419)

def slotOf (f : Flash) (b : Nat) : Bytes × Option (Nat × Nat × Bytes) := if b == 0 then (f.slotA, f.writeA) else (f.slotB, f.writeB)
def setSlot (f : Flash) (b : Nat) (x : Bytes × Option (Nat × Nat × Bytes)) : Flash :=
  if b == 0 then { f with slotA := x.1, writeA := x.2 } else { f with slotB := x.1, writeB := x.2 }

/-- Bytes of a slot with a chunk programmed at an offset. -/
def program (slot : Bytes) (off : Nat) (c : Bytes) : Bytes := fit off slot ++ c ++ slot.drop (off + c.length)

/-- The outcome of an image chunk and the flash after it. -/
def imageChunk (s : State) (p : Bytes) : Flash × Outcome :=
  let w := uAt p 0 16
  let b := fld w 0 0
  let final := bitAt w 1
  let off := fld w 63 32
  let total := fld w 95 64
  let c := p.drop 16
  let f := s.flash
  let (slot, wr) := slotOf f b
  if p.length < 16 || fld w 31 2 != 0 || fld w 127 96 != 0 || decide (268435456 < total) || decide (total < off + c.length) then
    (f, refMalformed)
  else if s.boot.service != 2 && s.boot.slot == b then (f, refWrongState)
  else
    let wr' : Option (Nat × Nat × Bytes) := if off == 0 then some (0, total, []) else wr
    match wr' with
    | none => (f, refWrongState)
    | some (next, tot, head) =>
      if next != off || tot != total then (f, refWrongState)
      else
        -- the header is erased first and programmed last, so a partial image is never chosen (R419, R461)
        let slot := if off == 0 then program slot 0 (List.replicate 64 0xFF) else slot
        let head := if off == 0 then c.take 64 else head
        if off == 0 && decide (c.length < 64) then (setSlot f b (slot, none), refMalformed)
        else if off == 0 && s.boot.service != 2 && decide (imageSeq head ≤ s.boot.imageSeq) then (setSlot f b (slot, none), refOrder)
        else
          let body := if off == 0 then c.drop 64 else c
          let slot := program slot (if off == 0 then 64 else off) body
          let next := off + c.length
          if !final then (setSlot f b (slot, some (next, tot, head)), {})
          else if next != tot then (setSlot f b (slot, some (next, tot, head)), refIncomplete)
          else
            let slot := program slot 0 head
            (setSlot f b (slot, none), if (signaturesOk s.fuses (slot.take tot)).isSome then {} else refAuth)

/-- IMAGE_WRITE. -/
def doImageWrite (m : Msg) (s : State) : State :=
  s.onMessage 0x53 m false (fun _ => true) fun q _ p s =>
    let r := s.imageChunk p
    { s with flash := r.1 }.reply q.id m.msgId r.2 0

-- INSPECT (R367, R472 to R476)

/-- The bytes of a status space range. -/
def statusBytes (s : State) (off n : Nat) : Bytes :=
  (List.range (n / 8)).flatMap fun i => leBytes 8 (s.statusWord (off + 8 * i))

/-- INSPECT with OP 0 (codes 2 and 3 are malformed). -/
def doInspectRead (m : Msg) (s : State) : State :=
  s.onMessage 0x40 m false (fun p => fld (uAt p 0 16) 81 80 != 1) fun q _ p s =>
    let w := uAt p 0 16
    let len := if fld w 79 64 == 0 then 65536 else fld w 79 64
    if p.length != 16 || fld w 63 48 != 0 || fld w 127 80 != 0 || fld w 47 0 % 8 != 0 || len % 8 != 0 then
      s.reply q.id m.msgId refMalformed 0
    else s.reply q.id m.msgId { data := s.statusBytes (fld w 47 0) len } 0

/-- The writable fields of DEVICE_CONTROL (R475). -/
def scrubMask : Nat := 0xFF * 2 ^ 40
def clearMask : Nat := 0xFF

/-- The row that an INSPECT write belongs to: 0 refused everywhere else, 1 SCRUB_HOURS, 2 COUNTER_CLEAR. -/
def writeRow (p : Bytes) : Nat :=
  let w := uAt p 0 16
  let mask := uAt p 24 8
  if p.length == 32 && fld w 47 0 == 0x100 && maskWithout mask (scrubMask ||| clearMask) == 0 then
    (if mask &&& scrubMask != 0 then 1 else if mask &&& clearMask != 0 then 2 else 0)
  else 0

def isWrite (p : Bytes) : Bool := fld (uAt p 0 16) 81 80 == 1

/-- Counters of a group (R476): whether a status offset belongs to it; WHEEL_EVICT_MAX is never cleared. -/
def inGroup (g off : Nat) : Bool :=
  match g with
  | 0 => decide (0x100000 ≤ off) && decide (off < 0x180000)
  | 1 => decide (0x80000 ≤ off) && decide (off < 0x100000) && (off - 0x80000) % 0x10000 != 0xB0
  | 2 => decide (0x71000 ≤ off) && decide (off < 0x72000)
  | 3 => decide (0x70000 ≤ off) && decide (off < 0x71000)
  | 4 => decide (0x72000 ≤ off) && decide (off < 0x73000)
  | _ => false

/-- COUNTER_CLEAR takes effect (R476). -/
def clearCounters (sel : Nat) (s : State) : State :=
  let gs := (List.range 6).filter (bitAt sel)
  let s := { s with counters := s.counters.filter fun c => !(gs.any fun g => inGroup g c.1) }
  if bitAt sel 5 then
    { s with tele := { s.tele with
        trips := [0, 0, 0], errs := [0, 0, 0, 0]
        block := s.tele.block.zipIdx.map fun w => if inRange 27 33 w.2 then 0 else w.1 } }
  else s

/-- The refusal of an INSPECT write that no row of its own takes (R475), or none when it selects no bit. -/
def writeRefusal (p : Bytes) : Option Outcome :=
  let w := uAt p 0 16
  if p.length != 32 || fld w 63 48 != 0 || fld w 127 82 != 0 || fld w 79 64 != 0 || fld w 47 0 % 8 != 0 then some refMalformed
  else if fld w 47 0 != 0x100 || maskWithout (uAt p 24 8) (scrubMask ||| clearMask) != 0 then some refNotPermitted
  else none

/-- INSPECT_WRITE: an INSPECT write to a register without a row of its own. -/
def doInspectWrite (m : Msg) (s : State) : State :=
  s.onMessage 0x40 m true (fun p => isWrite p && writeRow p == 0) fun q _ p s =>
    s.reply q.id m.msgId ((writeRefusal p).getD {}) 0

/-- SCRUB_HOURS_WRITE (R475). -/
def doScrubHoursWrite (m : Msg) (s : State) : State :=
  s.onMessage 0x40 m true (fun p => isWrite p && writeRow p == 1) fun q _ p s =>
    let mask := fld (uAt p 24 8) 47 40
    let val := fld (uAt p 16 8) 47 40
    let new := (val &&& mask) ||| maskWithout s.tele.scrubHours mask
    let clr := uAt p 16 8 &&& uAt p 24 8 &&& clearMask
    match writeRefusal p with
    | some o => s.reply q.id m.msgId o 0
    | none =>
      if decide (64 ≤ clr) then s.reply q.id m.msgId refMalformed 0
      else if inRange 1 168 new then
        ({ s with tele := { s.tele with scrubHours := new } }.clearCounters clr).reply q.id m.msgId {} 0
      else s.reply q.id m.msgId refCheck 0

/-- COUNTER_CLEAR (R476). -/
def doCounterClear (m : Msg) (s : State) : State :=
  s.onMessage 0x40 m true (fun p => isWrite p && writeRow p == 2) fun q _ p s =>
    let clr := uAt p 16 8 &&& uAt p 24 8 &&& clearMask
    match writeRefusal p with
    | some o => s.reply q.id m.msgId o 0
    | none =>
      if decide (64 ≤ clr) then s.reply q.id m.msgId refMalformed 0
      else (s.clearCounters clr).reply q.id m.msgId {} 0

end State
end Sys2Proof.Machine
end

