-- ==== Sys2Proof/Machine/Grist.lean ====
section
/-! DEFINITION. Grist objects (R307 to R309): header, code tables, index and the decoding of a block. The object is read
through `rd offset length`. -/

namespace Sys2Proof.Machine

/-- The code length of a byte value in a code table (R308). -/
def gristLen (table : Bytes) (v : Nat) : Nat := uAt table (v / 2) 1 / (if v % 2 == 0 then 1 else 16) % 16

/-- The lengths of a table satisfy Σ 2^(−length) ≤ 1, and a value occurs (R308). -/
def gristTableOk (table : Bytes) : Bool :=
  let ls := ((List.range 256).map (gristLen table)).filter (· != 0)
  !ls.isEmpty && decide ((ls.map fun l => 2 ^ (15 - l)).sum ≤ 2 ^ 15)

/-- Number of values whose code has a length. -/
def gristCount (table : Bytes) (l : Nat) : Nat := ((List.range 256).filter fun v => gristLen table v == l).length

/-- The first code of length `l`, by the canonical procedure of RFC 1951, section 3.2.2. -/
def gristFirst (table : Bytes) : Nat → Nat
  | 0 => 0
  | l + 1 => (gristFirst table l + (if l = 0 then 0 else gristCount table l)) * 2

/-- The value whose code is `code` in `l` bits, if any. -/
def gristValue (table : Bytes) (l code : Nat) : Option Nat :=
  if code < gristFirst table l then none
  else ((List.range 256).filter fun v => gristLen table v == l)[code - gristFirst table l]?

/-- The bits of a block's bytes, least significant first. -/
def bitsOf (bs : Bytes) : List Nat := bs.flatMap fun b => (List.range 8).map fun i => b.toNat / 2 ^ i % 2

/-- One symbol from a bit string: at most 15 bits, most significant first. -/
def gristSymbol (table : Bytes) : Nat → Nat → Nat → List Nat → Option (Nat × List Nat)
  | 0, _, _, _ => none
  | _ + 1, _, _, [] => none
  | k + 1, l, code, b :: r =>
    let code := code * 2 + b
    match gristValue table (l + 1) code with
    | some v => some (v, r)
    | none => gristSymbol table k (l + 1) code r

/-- `n` symbols; the bits left afterwards are all 0 (R308, R309). -/
def gristSymbols (table : Bytes) : Nat → List Nat → Option Bytes
  | 0, bits => if bits.all (· == 0) then some [] else none
  | n + 1, bits =>
    match gristSymbol table 15 0 0 bits with
    | none => none
    | some (v, r) => (gristSymbols table n r).map fun bs => BitVec.ofNat 8 v :: bs

/-- Header fields: decoded bytes, tables, blocks. -/
structure GristHead where
  decoded : Nat
  tables : Nat
  blocks : Nat
  deriving DecidableEq, Repr

/-- Blocks of an object of some decoded bytes. -/
def gristBlocks (decoded : Nat) : Nat := ceilDiv decoded 4096

/-- The header and tables of an object (R307, R308); none when they break a rule. `decoded` is the region's. -/
def gristHead (rd : Nat → Nat → Bytes) (decoded : Nat) : Option GristHead :=
  let h := leNat (rd 0 64)
  let d := fld h 111 64
  let t := fld h 52 48
  if fld h 31 0 == 0x54535247 && fld h 47 32 == 1 && fld h 63 53 == 0 && fld h 511 112 == 0 && decide (t ≤ 16) && decide (1 ≤ d)
      && d == decoded && (List.range t).all (fun i => gristTableOk (rd (64 + 128 * i) 128)) then
    some { decoded := d, tables := t, blocks := gristBlocks d }
  else none

/-- Index entry `j`. -/
def gristEntry (rd : Nat → Nat → Bytes) (g : GristHead) (j : Nat) : Nat := leNat (rd (64 + 128 * g.tables + 8 * j) 8)

/-- Decoded bytes of block `j`. -/
def gristBlockLen (g : GristHead) (j : Nat) : Nat := min 4096 (g.decoded - 4096 * j)

/-- The index satisfies R307 within an object of `len` stored bytes. -/
def gristIndexOk (rd : Nat → Nat → Bytes) (g : GristHead) (len : Nat) : Bool :=
  let first := 64 + 128 * g.tables + 8 * (g.blocks + 1)
  decide (first ≤ len) && (List.range (g.blocks + 1)).all fun j =>
    let e := gristEntry rd g j
    let off := fld e 39 0
    let next := fld (gristEntry rd g (j + 1)) 39 0
    let mode := fld e 63 62
    decide (first ≤ off) && decide (off ≤ len) && fld e 61 60 == 0 &&
    (if j = g.blocks then mode == 0 && fld e 59 40 == 0
     else decide (off ≤ next) && (match mode with
       | 0 => fld e 59 56 == 0 && next - off == gristBlockLen g j
       | 1 => decide (fld e 59 56 < g.tables) && decide (1 ≤ next - off) && decide (next - off ≤ 4032)
       | 2 => fld e 59 56 == 0 && next == off
       | _ => false))

/-- Block `j` decoded and checked (R309). -/
def gristBlock (rd : Nat → Nat → Bytes) (g : GristHead) (j : Nat) : Option Bytes :=
  let e := gristEntry rd g j
  let off := fld e 39 0
  let stored := rd off (fld (gristEntry rd g (j + 1)) 39 0 - off)
  let n := gristBlockLen g j
  let out := match fld e 63 62 with
    | 0 => some stored
    | 1 => gristSymbols (rd (64 + 128 * fld e 59 56) 128) n (bitsOf stored)
    | 2 => some (zeros n)
    | _ => none
  out.filter fun bs => bs.length == n && crc32c bs % 2 ^ 16 == fld e 55 40

/-- Bytes of an object of which some ranges are at hand. -/
def partsAt (ps : List (Nat × Bytes)) (o n : Nat) : Bytes :=
  match ps.find? fun p => decide (p.1 ≤ o) && decide (o + n ≤ p.1 + p.2.length) with
  | some p => slice p.2 (o - p.1) n
  | none => zeros n

/-- The whole object decoded. -/
def gristDecode (rd : Nat → Nat → Bytes) (g : GristHead) : Option Bytes :=
  (List.range g.blocks).foldl (fun acc j => match acc, gristBlock rd g j with
    | some a, some b => some (a ++ b)
    | _, _ => none) (some [])

end Sys2Proof.Machine
end

