-- ==== Sys2Proof/Machine/Packing.lean ====
section
/-! DEFINITION. Packed elements (R38) and the skewed operand layout of the arrays (R33, R35, R76). -/

namespace Sys2Proof.Machine

-- Elements (R38)

/-- A list cut into pieces of `k`. -/
def chunkList {α : Type} (k : Nat) (l : List α) : List (List α) :=
  (List.range (ceilDiv l.length k)).map fun i => (l.drop (k * i)).take k

/-- The codes of packed elements of `bits` bits: 4 two per byte, 6 in 24-byte blocks of 32, else whole bytes. -/
def unpackBits (bits : Nat) (bs : Bytes) : List Nat :=
  match bits with
  | 4 => bs.flatMap fun b => [b.toNat % 16, b.toNat / 16]
  | 6 => (chunks 24 bs).flatMap fun c => let n := leNat c; (List.range (c.length * 8 / 6)).map fun i => n / 2 ^ (6 * i) % 64
  | b => (chunks (b / 8) bs).map leNat

/-- Bytes of `n` packed elements. -/
def packedLen (bits n : Nat) : Nat := if bits = 6 then ceilDiv n 32 * 24 else ceilDiv (n * bits) 8

/-- Packed elements; a last byte or block is filled with zeros. -/
def packBits (bits : Nat) (codes : List Nat) : Bytes :=
  match bits with
  | 4 => (chunkList 2 codes).map fun p => BitVec.ofNat 8 (p.getD 0 0 % 16 + p.getD 1 0 % 16 * 16)
  | 6 => (chunkList 32 codes).flatMap fun c => leBytes 24 (packed (c.zipIdx.map fun (x, i) => (6 * i, x % 64)))
  | b => codes.flatMap fun c => leBytes (b / 8) c

-- The skewed layout (R33, R76)

/-- Values of k that a gang mode covers, without the doubling of the 4-bit class (R35). -/
def gangCover (gang : Nat) : Nat := if gang = 1 then 64 else if gang = 3 then 128 else 32

/-- The shape of the skewed words of a matrix of `m` rows: bits of a lane, values of k per block, rows of the chain. -/
structure Skew where
  bits : Nat
  cover : Nat
  chain : Nat
  deriving DecidableEq, Repr

/-- A lane holds an element; 6-bit elements take a byte lane. -/
def skewOf (bits gang : Nat) (four : Bool) : Skew :=
  let c := gangCover gang
  { bits := if bits = 6 then 8 else bits, cover := if four then 2 * c else c, chain := c }

/-- Bytes of a broadcast word: 128 elements, 256 at 4-bit. -/
def Skew.word (k : Skew) : Nat := if k.bits = 4 then 128 else 16 * k.bits
/-- Words of one block of k. -/
def Skew.words (k : Skew) (m : Nat) : Nat := m + k.chain - 1
/-- Word and lane of element (m, k) within its block of k. -/
def Skew.at' (sk : Skew) (m k : Nat) : Nat × Nat :=
  let j := k % sk.cover
  (m + (if sk.cover = sk.chain then j else j / 2), j)

/-- The words of a matrix given by its elements: blocks of k one after the other, each with its fill and drain words. -/
def skewWords (sk : Skew) (m kTotal : Nat) (elem : Nat → Nat → Nat) : Bytes :=
  (List.range (ceilDiv kTotal sk.cover)).flatMap fun b =>
    (List.range (sk.words m)).flatMap fun w =>
      packBits sk.bits ((List.range (8 * sk.word / sk.bits)).map fun lane =>
        let k := b * sk.cover + lane
        let h := (sk.at' 0 lane).1
        if lane < sk.cover ∧ k < kTotal ∧ h ≤ w ∧ w < h + m then elem (w - h) k else 0)

/-- The codes of the rows of a matrix read back from its words. -/
def unskew (sk : Skew) (m kTotal : Nat) (bs : Bytes) : List (List Nat) :=
  let words := (chunks sk.word bs).map (unpackBits sk.bits)
  (List.range m).map fun i => (List.range kTotal).map fun k =>
    let p := sk.at' i k
    (words.getD (k / sk.cover * sk.words m + p.1) []).getD p.2 0

end Sys2Proof.Machine
end

