-- ==== Sys2Proof/Machine/Streams.lean ====
section
/-! DEFINITION. Stream descriptors (R72 to R79), and reading and writing memory as a tile's stream engine does: targets
(R74, R295), the cache (R63 to R67), KV staging (R277, R278), listed lines (R447) and Grist sources (R77, R309). -/

namespace Sys2Proof.Machine

-- Descriptor fields (R72)

def dBase (d : Nat) : Nat := fld d 47 0
def dCount (d i : Nat) : Nat := fld d (72 * i + 71) (72 * i + 48)
def dStride (d i : Nat) : Int := signedOf 48 (fld d (72 * i + 119) (72 * i + 72))
def dNdim (d : Nat) : Nat := fld d 410 408
def dEsize (d : Nat) : Nat := fld d 413 411
def dSkew (d : Nat) : Bool := bitAt d 414
def dTranspose (d : Nat) : Bool := bitAt d 415
def dPad (d : Nat) : Bool := bitAt d 416
def dDecompress (d : Nat) : Bool := bitAt d 417
def dHint (d : Nat) : Nat := fld d 419 418
def dIndexed (d : Nat) : Bool := bitAt d 420
def dIndexWidth (d : Nat) : Nat := fld d 421 421
def dIndexDesc (d : Nat) : Nat := fld d 437 422
def dPadLo (d i : Nat) : Nat := if i = 1 then fld d 441 438 else if i = 2 then fld d 449 446 else 0
def dPadHi (d i : Nat) : Nat := if i = 1 then fld d 445 442 else if i = 2 then fld d 453 450 else 0
def dRingSlots (d : Nat) : Nat := fld d 457 454
def dRingId (d : Nat) : Nat := fld d 461 458

/-- A descriptor with another base, or another count of a dimension. -/
def setBase (d a : Nat) : Nat := d - dBase d + a % 2 ^ 48
def setCount (d i n : Nat) : Nat := d - dCount d i * 2 ^ (72 * i + 48) + n % 2 ^ 24 * 2 ^ (72 * i + 48)

/-- Elements are packed, so that dimension 0 is one run of bytes (R73). -/
def dPacked (d : Nat) : Bool := dEsize d == 4 || dEsize d == 5

/-- Bytes of one unit: an element, or the packed run of dimension 0. A `COUNT0` that is no multiple of 2 or 32, like a `BASE` off its
element's alignment (R73), is neither refused nor a fault (log 134): the run's length is cut to whole bytes or blocks. -/
def dUnit (d : Nat) : Nat :=
  match dEsize d with
  | 4 => dCount d 0 / 2
  | 5 => dCount d 0 / 32 * 24
  | e => 2 ^ e

/-- Offsets that one dimension adds, none outside the padded tensor (R73, R75). -/
def dimOffsets (d i : Nat) : List (Option Int) :=
  let lo := if dPad d then dPadLo d i else 0
  let hi := if dPad d then dPadHi d i else 0
  (List.range (lo + dCount d i + hi)).map fun j =>
    if lo ≤ j ∧ j < lo + dCount d i then some (((j - lo : Nat) : Int) * dStride d i) else none

/-- Offsets of a product of dimensions, the outermost given first. -/
def offsetsOf : List (List (Option Int)) → List (Option Int)
  | [] => [some 0]
  | dim :: rest => dim.flatMap fun a => (offsetsOf rest).map fun b =>
      match a, b with
      | some x, some y => some (x + y)
      | _, _ => none

/-- The dimensions visited, outermost first, without the innermost `k`; a transposed read swaps dimensions 0 and 1 (R69). -/
def dimOrder (d : Nat) : List Nat :=
  let up := (List.range (dNdim d)).drop (if dPacked d then 1 else 0)
  let up := if dTranspose d then (match up with
    | a :: b :: r => b :: a :: r
    | l => l) else up
  up.reverse

/-- The units of a stream in visiting order: an offset from BASE, or zeros. With an index stream the outermost dimension
follows it: each index is `some i`, or none for the all-ones index (R79). -/
def streamOffsets (d : Nat) (index : Option (List (Option Nat))) : List (Option Int) :=
  let o := dNdim d - 1
  let dims := (dimOrder d).map fun i =>
    match index with
    | some xs => if i = o then xs.map (fun x => x.map fun n => (n : Int) * dStride d o) else dimOffsets d i
    | none => dimOffsets d i
  offsetsOf dims

/-- Units that one step of the outermost dimension covers. -/
def innerUnits (d : Nat) : Nat := (streamOffsets (setCount d (dNdim d - 1) 1) none).length

-- Targets (R74, R294)

/-- What an address names: HBM, a tile's memory, or nothing a stream may reach. -/
inductive Target where
  | hbm
  | tile (t : Nat)
  | none
  deriving DecidableEq, Repr

def targetOf (a : Nat) : Target :=
  if inHbm a then .hbm else match tileOf a with
    | some (t, _) => .tile t
    | none => .none

/-- Where a stream engine works: its tile and pool, its request, and the HBM ranges whose lines it may allocate (R66). -/
structure Io where
  tile : Nat
  pool : Nat
  req : Nat
  allow : List (Nat × Nat) := []
  deny : List (Nat × Nat) := []
  deriving DecidableEq, Repr

namespace State

/-- The addressable bytes of a tile (R63); none in a column of no pool (R16). -/
def tileLimit (s : State) (t : Nat) : Nat := ((s.poolOf t).bind s.poolCfg?).elim 0 PoolCfg.limit

/-- `n` bytes at an address lie within a target (R74, R99). In Millpond mode the tile-memory windows are not mapped
(R296). -/
def inTarget (s : State) (g : Target) (a : Int) (n : Nat) : Bool :=
  match g with
  | .hbm => decide (0 ≤ a) && decide (a + n ≤ hbmBytes)
  | .tile t => !s.boot.millpond && decide (t < s.tileCount) && decide ((tileWindow t : Int) ≤ a) && decide (a + n ≤ tileWindow t + s.tileLimit t)
  | .none => false

/-- Cache sets of a pool's tiles (R64). -/
def cacheSets (s : State) (p : Nat) : Nat := ((s.poolCfg? p).map (·.cacheKib)).getD 0 * 1024 / 256

/-- The KV page that holds an address, of a request or of a prefix handle: base and whether it takes writes (R277). -/
def kvPageAt (s : State) (a : Nat) : Option (Nat × Bool) :=
  match s.reqs.findSome? fun r => (r.2.pages.find? fun p => decide (p.base ≤ a) && decide (a < p.base + s.pageBytes r.2)).map fun p =>
      (p.base, !(p.isSealed || p.shared)) with
  | some p => some p
  | none => s.prefixes.findSome? fun p =>
      let n := ((s.modelKey? p.model).map fun m => 64 * m.kvTokenBytes).getD 0
      ((p.pages ++ p.partialPages).find? fun b => decide (b ≤ a) && decide (a < b + n)).map fun b => (b, false)

/-- The page of an address is open in a pool, and its line is staged there (R278): not one that a full staging area has written back, nor
any where the area is 0. -/
def openIn (s : State) (p a : Nat) : Bool :=
  match s.kvPageAt a with
  | some (b, true) => (s.pool p).openPages.contains b && decide (0 < ((s.poolCfg? p).map (·.kvKib)).getD 0)
      && !((s.pool p).spilled.contains (a / 128 * 128))
  | _ => false

/-- A line enters a tile's cache, and the least recently used line of a full set leaves, written back when dirty (R64). -/
def cacheInsert (io : Io) (l : CacheLine) (first : Bool) (s : State) : State :=
  let sets := s.cacheSets io.pool
  if sets = 0 then s.portWrite l.addr (if l.dirty then l.data else []) else
    let same := fun (x : CacheLine) => x.addr / 128 % sets == l.addr / 128 % sets
    let c := (s.tile io.tile).cache.filter (·.addr != l.addr)
    let mine := c.filter same
    let out := if 2 ≤ mine.length then mine.getLast? else none
    let kept := c.filter fun x => some x.addr != out.map (·.addr)
    let s := s.setTile io.tile fun t => { t with cache := if first then l :: kept else kept ++ [l] }
    match out with
    | some x => if x.dirty then s.portWrite x.addr x.data else s
    | none => s

/-- A miss allocates a line (R66): the hint asks, and the whole range of the access lies in one allowed range and in no denied one. -/
def allocates (s : State) (io : Io) (hint : Nat) (acc : Nat × Nat) : Bool :=
  hint != 0 && decide (0 < s.cacheSets io.pool) && io.allow.any (fun r => decide (r.1 ≤ acc.1) && decide (acc.1 + acc.2 ≤ r.1 + r.2))
  && !(io.deny.any fun r => meets acc.1 acc.2 r.1 r.2)

/-- An access that goes to HBM without allocating (R66), one for each 128-byte line it meets (log 135). -/
def bypass (io : Io) (s : State) : State := s.count (tileCtr io.tile 0x08) 1

/-- A staged line is written; the least recently written line of a full staging tile goes to HBM and stays there until its page seals
(R278). -/
def stageInsert (p : Nat) (l : CacheLine) (s : State) : State :=
  let cap := ((s.poolCfg? p).map (·.kvKib)).getD 0 * 8
  let n := ((s.poolCfg? p).map (·.tiles)).getD 1
  let same := fun (x : CacheLine) => x.addr / 128 % n == l.addr / 128 % n
  let c := (s.pool p).staged.filter (·.addr != l.addr)
  let mine := c.filter same
  let out := if cap ≤ mine.length then mine.getLast? else none
  let s := s.setPool p fun x => { x with
    staged := l :: c.filter fun y => some y.addr != out.map (·.addr)
    spilled := x.spilled ++ (out.map (·.addr)).toList }
  match out with
  | some x => if x.dirty then s.portWrite x.addr x.data else s
  | none => s

/-- A listed line meets a range (R447): its 64-byte line number. -/
def badLineIn (s : State) (a n : Nat) : Option Nat := s.errors.badLines.find? fun l => meets a n (l * 64) 64

/-- A read met a listed line: logged under cause 0x0B (R446, R447). -/
def badRead (req line : Nat) (s : State) : State :=
  s.containedEvent { cause := 0x0B, unit := 1, unitIndex := stackOf (line * 64), addr := line * 64, req := some req } fnPools

/-- Bytes written to HBM by the port, the Hopper or the control cluster for functions `m`: a listed line that they cover in part does not
change and counts as a bad read; a request that they are written for ends FAILED_CONTAINED (R446, R447). -/
def storeHbm (req : Option Nat) (m a : Nat) (bs : Bytes) (s : State) : State :=
  let part := s.errors.badLines.find? fun l => meets a bs.length (l * 64) 64 && (decide (l * 64 < a) || decide (a + bs.length < l * 64 + 64))
  let s := s.portWrite a bs
  match part with
  | none => s
  | some l =>
    let s := s.containedEvent { cause := 0x0B, unit := 1, unitIndex := stackOf (l * 64), addr := l * 64, req } m
    match req with
    | some r => s.failRequest r 6 none
    | none => s

/-- One 128-byte line as the tile sees it, for `n` bytes at `a` within it of an access of the range `acc`. Every access looks up the tile's
cache (R65), but an open KV page has its one current copy in the staging area or in HBM (R278). -/
def lineRead (io : Io) (hint : Nat) (acc : Nat × Nat) (a n : Nat) (s : State) : Except Nat Bytes × State :=
  let la := a / 128 * 128
  let straight := fun (s : State) => match s.badLineIn a n with
    | some b => (.error 6, s.badRead io.req b)
    | none => (.ok (s.readMem la 128), s)
  if s.openIn io.pool a then
    match (s.pool io.pool).staged.find? (·.addr == la) with
    | some l => (.ok l.data, s)
    | none => straight s
  else if (s.kvPageAt a).any (·.2) then straight s
  else match (s.tile io.tile).cache.find? (·.addr == la) with
    | some l => (.ok l.data, s.cacheInsert io l true)
    | none =>
      if s.allocates io hint acc then
        match s.badLineIn la 128 with
        | some b => (.error 6, s.badRead io.req b)
        | none => (.ok (s.readMem la 128), s.cacheInsert io { addr := la, data := s.readMem la 128, dirty := false } (hint == 1))
      else straight (s.bypass io)

/-- `n` bytes of HBM, line by line, of an access of the range `acc`. -/
def hbmRead (io : Io) (hint : Nat) (acc : Nat × Nat) : Nat → Nat → Nat → State → Except Nat Bytes × State
  | 0, _, _, s => (.ok [], s)
  | k + 1, a, n, s =>
    if n = 0 then (.ok [], s) else
      let m := min n (128 - a % 128)
      match lineRead io hint acc a m s with
      | (.error f, s) => (.error f, s)
      | (.ok l, s) =>
        match hbmRead io hint acc k (a + m) (n - m) s with
        | (.error f, s) => (.error f, s)
        | (.ok r, s) => (.ok (slice l (a % 128) m ++ r), s)

/-- Bytes laid over a line at an offset. -/
def overlay (l : Bytes) (off : Nat) (bs : Bytes) : Bytes := l.take off ++ bs ++ l.drop (off + bs.length)

/-- A write of whole or partial 64-byte lines meets the bad-line table (R447): refused when it covers a listed line only in
part; a whole line is taken off the table. -/
def linesWritable (a n : Nat) (s : State) : Bool × State :=
  let hit := s.errors.badLines.filter fun l => meets a n (l * 64) 64
  if hit.any fun l => decide (l * 64 < a) || decide (a + n < l * 64 + 64) then (false, s)
  else (true, { s with errors := { s.errors with badLines := s.errors.badLines.filter fun l => !(hit.contains l) } })

/-- Bytes written to HBM past the caches. -/
def straightWrite (io : Io) (a : Nat) (bs : Bytes) (s : State) : Option Nat × State :=
  match s.linesWritable a bs.length with
  | (true, s) => (none, s.writeMem a bs)
  | (false, s) => (some 6, match s.badLineIn a bs.length with
    | some b => s.badRead io.req b
    | none => s)

/-- Bytes written within one 128-byte line, of an access of the range `acc`. -/
def lineWrite (io : Io) (hint : Nat) (acc : Nat × Nat) (a : Nat) (bs : Bytes) (s : State) : Option Nat × State :=
  let la := a / 128 * 128
  let off := a % 128
  let n := bs.length
  match s.kvPageAt a with
  | some (_, false) => (some 1, s)
  | some (b, true) =>
    let s := if (s.pool io.pool).openPages.contains b then s else s.setPool io.pool fun p => { p with openPages := p.openPages ++ [b] }
    if s.openIn io.pool a then
      match (s.pool io.pool).staged.find? (·.addr == la) with
      | some l => (none, s.stageInsert io.pool { l with data := overlay l.data off bs, dirty := true, req := io.req })
      | none => match (if n = 128 then none else s.badLineIn la 128) with
        | some b => (some 6, s.badRead io.req b)
        | none => (none, s.stageInsert io.pool { addr := la, data := overlay (s.readMem la 128) off bs, dirty := true, req := io.req })
    else (s.setTile io.tile fun x => { x with cache := x.cache.filter (·.addr != la) }).straightWrite io a bs
  | none => match (s.tile io.tile).cache.find? (·.addr == la) with
    | some l => (none, s.cacheInsert io { l with data := overlay l.data off bs, dirty := true, req := io.req } true)
    | none =>
      if s.allocates io hint acc then
        match (if n = 128 then none else s.badLineIn la 128) with
        | some b => (some 6, s.badRead io.req b)
        | none => (none, s.cacheInsert io { addr := la, data := overlay (s.readMem la 128) off bs, dirty := true, req := io.req } (hint == 1))
      else (s.bypass io).straightWrite io a bs

/-- Bytes written to HBM, line by line, of an access of the range `acc`; a fault stops further output (R99). -/
def hbmWrite (io : Io) (hint : Nat) (acc : Nat × Nat) : Nat → Nat → Bytes → State → Option Nat × State
  | 0, _, _, s => (none, s)
  | k + 1, a, bs, s =>
    if bs.isEmpty then (none, s) else
      let m := min bs.length (128 - a % 128)
      match lineWrite io hint acc a (bs.take m) s with
      | (some f, s) => (some f, s)
      | (none, s) => hbmWrite io hint acc k (a + m) (bs.drop m) s

/-- Uncorrectable words of tile memory that a range meets (R61, R449). -/
def badWordsIn (s : State) (a n : Nat) : List (Nat × Nat) :=
  s.errors.badWords.filter fun w => meets a n (tileWindow w.1 + 8 * w.2) 8

/-- An uncorrectable tile-memory word is read again since reset (R449): the tile, and so the device, has failed. -/
def wordRepeat (req : Option Nat) (w : Nat × Nat) (s : State) : State :=
  let addr := tileWindow w.1 + 8 * w.2
  (s.containedEvent { cause := 0x02, unit := 0, unitIndex := w.1, addr, req } fnPools).deviceEvent
    { cause := 0x03, unit := 0, unitIndex := w.1, addr }

/-- `n` bytes at an address of a target, as a tile's stream reads them. -/
def ioRead (io : Io) (hint : Nat) (g : Target) (a : Int) (n : Nat) (s : State) : Except Nat Bytes × State :=
  if !(s.inTarget g a n) then (.error 1, s)
  else match g with
    | .hbm => s.hbmRead io hint (a.toNat, n) (n / 128 + 2) a.toNat n
    | _ => match (s.badWordsIn a.toNat n).head? with
      | some w => (.error 6, s.wordRepeat (some io.req) w)
      | none => (.ok (s.readMem a.toNat n), s)

/-- Bytes written to tile memory for a request: whole 8-byte words take one access and are sound again; part of a word is read, merged
and written, which an uncorrectable word does not allow (R61). -/
def tileWrite (req : Option Nat) (a : Nat) (bs : Bytes) (s : State) : Option Nat × State :=
  let hit := s.badWordsIn a bs.length
  let inside := fun (w : Nat × Nat) => decide (a ≤ tileWindow w.1 + 8 * w.2) && decide (tileWindow w.1 + 8 * w.2 + 8 ≤ a + bs.length)
  match hit.find? fun w => !(inside w) with
  | some w => (some 6, s.wordRepeat req w)
  | none =>
    let s := s.writeMem a bs
    (none, if hit.isEmpty then s else { s with errors := { s.errors with badWords := s.errors.badWords.filter fun w => !(hit.contains w) } })

/-- Bytes written at an address of a target. -/
def ioWrite (io : Io) (hint : Nat) (g : Target) (a : Int) (bs : Bytes) (s : State) : Option Nat × State :=
  if !(s.inTarget g a bs.length) then (some 1, s)
  else match g with
    | .hbm => s.hbmWrite io hint (a.toNat, bs.length) (bs.length / 128 + 2) a.toNat bs
    | _ => s.tileWrite (some io.req) a.toNat bs

/-- The indices of an index stream (R79): none for all ones. -/
def indexList (width : Nat) (bs : Bytes) : List (Option Nat) :=
  let w := if width = 0 then 4 else 8
  (chunks w bs).map fun c => if leNat c = 2 ^ (8 * w) - 1 then none else some (leNat c)

/-- A stream's units read one after another. -/
def readUnits (io : Io) (hint : Nat) (g : Target) (base : Int) (unit : Nat) : List (Option Int) → State → Except Nat Bytes × State
  | [], s => (.ok [], s)
  | none :: r, s =>
    match readUnits io hint g base unit r s with
    | (.ok bs, s) => (.ok (zeros unit ++ bs), s)
    | e => e
  | some o :: r, s =>
    match s.ioRead io hint g (base + o) unit with
    | (.error f, s) => (.error f, s)
    | (.ok b, s) =>
      match readUnits io hint g base unit r s with
      | (.ok bs, s) => (.ok (b ++ bs), s)
      | e => e

/-- Some ranges of an object at `base`, each with its bytes, read as a tile's streams read HBM. -/
def fetchParts (io : Io) (hint base : Nat) : List (Nat × Nat) → State → Except Nat (List (Nat × Bytes)) × State
  | [], s => (.ok [], s)
  | (o, n) :: r, s =>
    match s.ioRead io hint .hbm (base + o : Nat) n with
    | (.error f, s) => (.error f, s)
    | (.ok b, s) => match fetchParts io hint base r s with
      | (.ok bs, s) => (.ok ((o, b) :: bs), s)
      | (.error f, s) => (.error f, s)

/-- One counter rises by a free amount: no rule fixes how long work takes. -/
def chargeFree (s : State) (off : Nat) : State := { s with free := s.free + 1, counters := addCount off (Config.freeNat s.free) s.counters }

/-- A Grist block of a stream fails its check and, read and decoded once more, fails it again: the wait is DECOMPRESS_RETRY, the cause 6,
logged under 0x19 (R309, R310, R311). -/
def gristFail (io : Io) (addr : Nat) (s : State) : Except Nat Bytes × State :=
  (.error 6, (s.chargeFree (poolCtr io.pool 0x20)).containedEvent
    { cause := 0x19, unit := 1, unitIndex := stackOf addr, addr, req := some io.req } fnPools)

/-- The stored range of block `j`; a `ZERO` block stores nothing (R307). -/
def storedOf (rd : Nat → Nat → Bytes) (g : GristHead) (j : Nat) : Nat × Nat :=
  let o := fld (gristEntry rd g j) 39 0
  (o, if fld (gristEntry rd g j) 63 62 = 2 then 0 else fld (gristEntry rd g (j + 1)) 39 0 - o)

/-- Units of a Grist object's decoded bytes (R77, R309): header, tables and index are read, and every block that a unit touches is read and
decoded whole, all through the tile's cache (R65). -/
def readGrist (io : Io) (hint base unit : Nat) (offs : List (Option Int)) (s : State) : Except Nat Bytes × State :=
  match s.fetchParts io hint base [(0, 64)] with
  | (.error f, s) => (.error f, s)
  | (.ok p0, s) =>
    let h := leNat (partsAt p0 0 64)
    let t := fld h 52 48
    match s.fetchParts io hint base (if 1 ≤ t ∧ t ≤ 16 then [(64, 128 * t)] else []) with
    | (.error f, s) => (.error f, s)
    | (.ok p1, s) =>
      match gristHead (partsAt (p0 ++ p1)) (fld h 111 64) with
      | none => s.gristFail io base
      | some g =>
        if offs.any fun o => match o with
          | some x => decide (x < 0) || decide ((g.decoded : Int) < x + unit)
          | none => false
        then (.error 1, s)
        else
          let spans := (offs.filterMap fun o => o.map Int.toNat).map fun x => (x / 4096, (x + unit - 1) / 4096)
          let js := (List.range g.blocks).filter fun j => spans.any fun p => decide (p.1 ≤ j) && decide (j ≤ p.2)
          match s.fetchParts io hint base (js.map fun j => (64 + 128 * t + 8 * j, 16)) with
          | (.error f, s) => (.error f, s)
          | (.ok p2, s) =>
            let stored := js.map fun j => storedOf (partsAt (p0 ++ p1 ++ p2)) g j
            match stored.find? fun p => decide (4096 < p.2) with
            | some p => s.gristFail io (base + p.1)
            | none => match s.fetchParts io hint base (stored.filter (·.2 != 0)) with
              | (.error f, s) => (.error f, s)
              | (.ok p3, s) =>
                let rd := partsAt (p3 ++ p0 ++ p1 ++ p2)
                let blocks := js.map fun j => (j, gristBlock rd g j)
                match blocks.find? (·.2.isNone) with
                | some b => s.gristFail io (base + (storedOf rd g b.1).1)
                | none =>
                  let get := fun (x : Nat) => match (blocks.find? (·.1 == x / 4096)).bind (·.2) with
                    | some bs => bs.getD (x % 4096) 0
                    | none => 0
                  (.ok (offs.flatMap fun o => match o with
                    | none => zeros unit
                    | some x => (List.range unit).map fun i => get (x.toNat + i)), s)

/-- A descriptor's inner dimensions alone (R79): one position of the outermost. -/
def innerOf (d : Nat) : Nat := setCount d (dNdim d - 1) 1

/-- An indexed stream read index by index (R79): zeros for the all-ones index, cause 2 for one at or beyond the outermost count, else the
inner dimensions from BASE + x × stride. -/
def readIndexed (io : Io) (d : Nat) : List (Option Nat) → State → Except Nat Bytes × State
  | [], s => (.ok [], s)
  | x :: r, s =>
    let one : Except Nat Bytes × State := match x with
      | none => (.ok (zeros (innerUnits d * dUnit d)), s)
      | some n =>
        if dCount d (dNdim d - 1) ≤ n then (.error 2, s)
        else s.readUnits io (dHint d) (targetOf (dBase d)) (dBase d + n * dStride d (dNdim d - 1)) (dUnit d) (streamOffsets (innerOf d) none)
    match one with
    | (.error f, s) => (.error f, s)
    | (.ok b, s) =>
      match readIndexed io d r s with
      | (.ok bs, s) => (.ok (b ++ bs), s)
      | e => e

/-- The indices that an index stream delivers. -/
def readIndex (io : Io) (d i : Nat) (s : State) : Except Nat (List (Option Nat)) × State :=
  match s.readUnits io (dHint i) (targetOf (dBase i)) (dBase i) (dUnit i) (streamOffsets i none) with
  | (.error f, s) => (.error f, s)
  | (.ok bs, s) => (.ok (indexList (dIndexWidth d) bs), s)

/-- A stream read whole: its index stream, then its units (R73, R79). -/
def readStream (io : Io) (d : Nat) (idx : Option Nat) (s : State) : Except Nat Bytes × State :=
  match dIndexed d, idx with
  | true, some i =>
    (match s.readIndex io d i with
    | (.error f, s) => (.error f, s)
    | (.ok xs, s) => s.readIndexed io d xs)
  | _, _ =>
    if dDecompress d then s.readGrist io (dHint d) (dBase d) (dUnit d) (streamOffsets d none)
    else s.readUnits io (dHint d) (targetOf (dBase d)) (dBase d) (dUnit d) (streamOffsets d none)

/-- A stream's units written in visiting order, as far as the bytes reach; padding positions take none. -/
def writeUnits (io : Io) (hint : Nat) (g : Target) (base : Int) (unit : Nat) : List (Option Int) → Bytes → State → Option Nat × State
  | [], _, s => (none, s)
  | none :: r, bs, s => writeUnits io hint g base unit r (bs.drop unit) s
  | some o :: r, bs, s =>
    if bs.isEmpty then (none, s) else
      match s.ioWrite io hint g (base + o) (bs.take unit) with
      | (some f, s) => (some f, s)
      | (none, s) => writeUnits io hint g base unit r (bs.drop unit) s

/-- The skewed words of the matrices that a destination descriptor receives (R76), with each matrix's offset: dimension 0 runs
along k, dimension 1 along m, the others over matrices. -/
def skewed (d gang : Nat) (bs : Bytes) : List (Int × Bytes) :=
  let bits := match dEsize d with
    | 4 => 4 | 5 => 6 | e => 8 * 2 ^ e
  let k := dCount d 0
  let m := if 2 ≤ dNdim d then dCount d 1 else 1
  let sk := skewOf bits gang (bits == 4)
  let row := packedLen bits k
  let outer := offsetsOf (((List.range (dNdim d)).drop 2).reverse.map fun i =>
    (List.range (dCount d i)).map fun j => some ((j : Int) * dStride d i))
  outer.zipIdx.map fun (o, i) =>
    let codes := ((chunks row (slice bs (i * m * row) (m * row))).map fun r => (unpackBits bits r).toArray).toArray
    (o.getD 0, skewWords sk m k fun a b => (codes.getD a #[]).getD b 0)

/-- Pieces written one after another at offsets from an address; a fault stops further output. -/
def writePieces (io : Io) (hint : Nat) (g : Target) (base : Int) : List (Int × Bytes) → State → Option Nat × State
  | [], s => (none, s)
  | (o, b) :: r, s =>
    match s.ioWrite io hint g (base + o) b with
    | (some f, s) => (some f, s)
    | (none, s) => writePieces io hint g base r s

/-- Bytes written through a descriptor placed at `base`, as units or in the skewed layout (R73, R76). -/
def writeAt (io : Io) (gang d : Nat) (base : Int) (bs : Bytes) (s : State) : Option Nat × State :=
  if dSkew d then s.writePieces io (dHint d) (targetOf (dBase d)) base (skewed d gang bs)
  else s.writeUnits io (dHint d) (targetOf (dBase d)) base (dUnit d) (streamOffsets d none) bs

/-- An indexed stream written index by index (R79), so that the highest j is left (R104): the all-ones index takes a block and writes none
of it, and an index at or beyond the outermost count faults with cause 2 after the blocks before it. -/
def writeIndexed (io : Io) (gang d : Nat) : List (Option Nat) → Bytes → State → Option Nat × State
  | [], _, s => (none, s)
  | x :: r, bs, s =>
    let n := innerUnits d * dUnit d
    if bs.isEmpty then (none, s) else
      let one : Option Nat × State := match x with
        | none => (none, s)
        | some i => if dCount d (dNdim d - 1) ≤ i then (some 2, s)
            else s.writeAt io gang (innerOf d) (dBase d + i * dStride d (dNdim d - 1)) (bs.take n)
      match one with
      | (some f, s) => (some f, s)
      | (none, s) => writeIndexed io gang d r (bs.drop n) s

/-- A stream written whole; `gang` is the gang mode of the work item that writes it. -/
def writeStream (io : Io) (gang d : Nat) (idx : Option Nat) (bs : Bytes) (s : State) : Option Nat × State :=
  match dIndexed d, idx with
  | true, some i =>
    (match s.readIndex io d i with
    | (.error f, s) => (some f, s)
    | (.ok xs, s) => s.writeIndexed io gang d xs bs)
  | _, _ => s.writeAt io gang d (dBase d) bs

/-- Every dirty line of a tile's cache is written back and becomes clean (R67). -/
def flushCache (t : Nat) (s : State) : State :=
  let dirty := (s.tile t).cache.filter (·.dirty)
  let s := dirty.foldl (fun s l => s.portWrite l.addr l.data) s
  if dirty.isEmpty then s else s.setTile t fun x => { x with cache := x.cache.map fun l => { l with dirty := false } }

end State
end Sys2Proof.Machine
end

