-- ==== Sys2Proof/Machine/WorkItems.lean ====
section
/-! DEFINITION. The work item's fields (R100), format codes and pairs (R39, R101), and the slots of each opcode (R103). -/

namespace Sys2Proof.Machine

-- Fields (R100); `w` is the 1,024-bit work item

def wOpcode (w : Nat) : Nat := fld w 7 0
def wGang (w : Nat) : Nat := fld w 9 8
def wAFmt (w : Nat) : Nat := fld w 13 10
def wWFmt (w : Nat) : Nat := fld w 17 14
def wOutFmt (w : Nat) : Nat := fld w 21 18
def wFlush (w : Nat) : Bool := bitAt w 22
def wSaturate (w : Nat) : Bool := bitAt w 23
def wPinned (w : Nat) : Bool := bitAt w 24
def wPinTile (w : Nat) : Nat := fld w 42 32
def wReq (w : Nat) : Nat := fld w 54 43
def wStage (w : Nat) : Nat := fld w 63 55
/-- Descriptor-template number of slot `n`, none when unused. -/
def wSlot (w n : Nat) : Option Nat :=
  let t := fld w (79 + 16 * n) (64 + 16 * n)
  if t = 0xFFFF then none else some t
def wBaseSrc (w n : Nat) : Nat := fld w (258 + 3 * n) (256 + 3 * n)
def wLenFrom (w n : Nat) : Bool := bitAt w (292 + n)
/-- A Sluice queue field: valid and number. -/
def wInQ (w : Nat) : Option Nat := if bitAt w 317 then some (fld w 316 312) else none
def wOutQ (w : Nat) : Option Nat := if bitAt w 329 then some (fld w 328 324) else none
def wOutTile (w : Nat) : Nat := fld w 340 330
def wOutHopper (w : Nat) : Bool := bitAt w 341
def wOutTag (w : Nat) : Nat := fld w 345 342
/-- The signal waited for and its count. -/
def wWait (w : Nat) : Option (Nat × Nat) := if bitAt w 356 then some (fld w 355 352, fld w 383 360) else none
def wDone (w : Nat) : Option Nat := if bitAt w 388 then some (fld w 387 384) else none
def wImm (w n : Nat) : Nat := fld w (543 + 32 * n) (512 + 32 * n)
def wReservedOk (w : Nat) : Bool :=
  fld w 31 25 == 0 && fld w 311 304 == 0 && fld w 323 318 == 0 && fld w 351 346 == 0 && fld w 359 357 == 0 && fld w 511 389 == 0
/-- The record with immediate `n` replaced (R244). -/
def setImm (w n v : Nat) : Nat := w - wImm w n * 2 ^ (512 + 32 * n) + v % 2 ^ 32 * 2 ^ (512 + 32 * n)
/-- The slots a work item uses. -/
def wSlots (w : Nat) : List Nat := (List.range 12).filter fun n => (wSlot w n).isSome
def wUses (w n : Nat) : Bool := (wSlot w n).isSome

/-- A template runs once per request of a decode step (R284). -/
def perRequest (w : Nat) : Bool := bitAt (wImm w 15) 31
/-- A per-request template is for requests with a bound adapter alone (R284). -/
def adapterOnly (w : Nat) : Bool := perRequest w && bitAt (wImm w 15) 30

-- Formats (R38, R101)

/-- A block-scaled format. -/
def isMx (f : Nat) : Bool := decide (4 ≤ f) && decide (f ≤ 9)
def isIntFmt (f : Nat) : Bool := f == 0 || f == 1
/-- Bits of an element. -/
def fmtBits (f : Nat) : Nat :=
  match f with
  | 1 => 4 | 8 => 4 | 6 => 6 | 7 => 6 | 10 => 16 | 11 => 16 | 12 => 32 | 13 => 32 | _ => 8
/-- The operand pairs of R39: activation, then weight. -/
def pairOk (a w : Nat) : Bool :=
  (a == 0 && (w == 0 || w == 1)) || (a == 1 && w == 1) || ((a == 2 || a == 3) && (w == 2 || w == 3))
  || ([4, 5, 6, 7, 9].contains a && isMx w) || (a == 8 && w == 8) || (a == 10 && w == 10) || (a == 11 && w == 11)
/-- Both operands are 4-bit, so that a column adder takes 64 values of k at a time in two blocks (R31, R39). -/
def fourBit (a w : Nat) : Bool := (a == 1 && w == 1) || (a == 8 && w == 8)
/-- Output formats of the epilogue (R43); raw INT32 for integer operands alone. -/
def matrixOutOk (a o : Nat) : Bool := (decide (o ≤ 12) && o != 9) || (o == 13 && isIntFmt a)

-- Opcodes (R103)

def opBarrier : Nat := 0x01
def opYield : Nat := 0x03
def opDist : Nat := 0x12
def opTopk : Nat := 0x30
def opCoalesce : Nat := 0x50
def opNormalise : Nat := 0x60
def opPack : Nat := 0x66

/-- The slots that an opcode's row names: those required and those optional, for this work item; none for a code that is not
in the table (R103). -/
def opSlots (w : Nat) : Option (List Nat × List Nat) :=
  let scales := (if isMx (wAFmt w) then [5] else []) ++ (if isMx (wWFmt w) then [6] else [])
  let epilogue := if wOutFmt w = 13 then [] else [7]
  match wOpcode w with
  | 0x00 => some ([], [])
  | 0x01 => some ([], [0])
  | 0x02 => some ([], [])
  | 0x03 => some ([], [])
  | 0x10 => some ([0, 1, 8] ++ scales ++ epilogue, [5, 6, 7] ++ (if wGang w = 0 then [2, 3, 4, 9, 10, 11] else []))
  | 0x11 => some ([0, 1, 8] ++ scales ++ epilogue, [5, 6, 7])
  | 0x12 => some ([0, 1, 2, 8], [])
  | 0x20 => some ([0, 8], [])
  | 0x21 => some ([0, 1, 8], [])
  | 0x22 => some ([0, 1, 2, 8], [])
  | 0x23 => some ([0, 8], [])
  | 0x24 => some ([0, 1, 8], [])
  | 0x25 => some ([0, 8], [1])
  | 0x26 => some ([0, 8], [])
  | 0x27 => some ([0, 1, 8] ++ epilogue, [7])
  | 0x28 => some ([0, 8] ++ (if isMx (wOutFmt w) then [6] else []), [6])
  | 0x30 => some ([0, 8], [1, 2])
  | 0x31 => some ([0, 8], [])
  | 0x32 => some ([0, 8], [])
  | 0x33 => some ([0, 8], [1])
  | 0x34 => some ([0, 8], [])
  | 0x35 => some ([8], [0, 1, 2, 3])
  | 0x36 => some ([0, 8], [])
  | 0x40 => some ([0, 8], [])
  | 0x41 => some ([0, 8], [])
  | 0x42 => some ([0, 8], [])
  | 0x43 => some ([0, 8], [])
  | 0x44 => some ([0, 8], [])
  | 0x45 => some ([0], [])
  | 0x50 => some ([0, 8, 9, 10, 11], [])
  | 0x51 => some ([0, 8], [])
  | 0x52 => some ([0, 8], [])
  | 0x53 => some ([0, 8], [])
  | 0x60 => some ([0, 1, 8], [])
  | 0x61 => some ([0, 1, 8], [])
  | 0x62 => some ([0, 8], [])
  | 0x63 => some ([0, 1, 8], [])
  | 0x64 => some ([0, 1, 8], [])
  | 0x65 => some ([0, 1, 8], [])
  | 0x66 => some ([0, 1, 2, 8], [])
  | _ => none

/-- Slots that an opcode writes. -/
def outSlots (w : Nat) : List Nat :=
  (wSlots w).filter fun n => if wOpcode w = 0x01 then true else if wOpcode w = 0x28 then n == 6 || n == 8 else decide (8 ≤ n)
/-- Slots that an opcode reads. -/
def inSlots (w : Nat) : List Nat := (wSlots w).filter fun n => !((outSlots w).contains n)

/-- Every required slot is used, and no slot that the opcode does not name (R103); in Apart mode W slot 1 + j and output
slot 8 + j go together. -/
def slotsOk (w : Nat) : Bool :=
  match opSlots w with
  | none => false
  | some (must, may) =>
    must.all (wUses w) && (wSlots w).all (fun n => must.contains n || may.contains n)
    && (wOpcode w != 0x10 || [1, 2, 3].all fun j => wUses w (1 + j) == wUses w (8 + j))

/-- Score types of R167. -/
def scoreTypeOk (t : Nat) : Bool := decide (t ≤ 10)

/-- The fields of one work-item template that its opcode gives a range (R101, R103, R126, R167, R175 to R187, R203, R212,
R225, R232, R260). -/
def fieldsOk (w : Nat) : Bool :=
  let a := wAFmt w
  let o := wOutFmt w
  let i := wImm w
  decide (a ≤ 12) && decide (wWFmt w ≤ 12) && decide (o ≤ 13) &&
  (match wOpcode w with
   | 0x01 => decide (i 0 < 64) && decide (1 ≤ i 1) && decide (i 2 ≤ 5)
   | 0x02 => decide (i 0 < 16)
   | 0x10 => pairOk a (wWFmt w) && matrixOutOk a o && decide (1 ≤ i 0) && decide (1 ≤ i 1) && decide (1 ≤ i 2)
   | 0x11 => pairOk a (wWFmt w) && matrixOutOk a o
   | 0x12 => pairOk a (wWFmt w) && matrixOutOk a o
   | 0x30 => scoreTypeOk (i 1) && ((i 0 == 0 && (bitAt (i 15) 31 || fld (i 2) 15 0 != 0)) || inRange 1 (if fld (i 2) 15 0 != 0 && i 4 != 0 then 65536 else 4096) (i 0))
   | 0x31 => scoreTypeOk (i 1) && inRange 1 16777215 (i 0)
   | 0x32 => scoreTypeOk (i 1)
   | 0x33 => inRange 1 65536 (i 0)
   | 0x34 => decide (i 0 ≤ 3)
   | 0x35 => scoreTypeOk (i 1) && inRange 1 65536 (i 0)
   | 0x50 => (decide (i 0 < 512) || i 0 == 0xFFFF) && inRange 1 256 (fld (i 2) 15 0) && decide (i 3 < fld (i 2) 15 0)
   | 0x51 => (wInQ w).isSome && (o == 12 || o == 10) && [0, 1, 2, 10, 11, 12].contains a
   | 0x52 => (wInQ w).isSome && (o == 12 || o == 10) && [0, 1, 2, 10, 11, 12].contains a
   | 0x53 => (wInQ w).isSome && (o == 12 || o == 10) && [0, 1, 2, 10, 11, 12].contains a
   | 0x60 => (wInQ w).isSome && decide (i 0 ≤ 2)
   | 0x62 => i 0 != 1 && i 0 != 2 && decide (i 1 ≤ 2)
   | 0x66 => inRange 1 1048576 (i 0) && decide (i 1 ≤ 1)
   | _ => true)

end Sys2Proof.Machine
end

