-- ==== Sys2Proof/Machine/Arrays.lean ====
section
/-! DEFINITION. The arrays and the vector unit on element lists (R31 to R58): packing, the skewed operand layout, matrix
products with their epilogue, conversions, convolution, and the element-wise, row and pooling operations. -/

namespace Sys2Proof.Machine

-- Elements (R38)

def unpackFmt (f : Nat) (bs : Bytes) : List Nat := unpackBits (fmtBits f) bs

/-- The element format of a floating format code (R101). -/
def fmtOf (f : Nat) : FFmt :=
  match f with
  | 2 => e4m3 | 3 => e5m2 | 4 => e4m3 | 5 => e5m2 | 6 => e2m3 | 7 => e3m2 | 8 => e2m1 | 10 => bf16 | 11 => fp16 | _ => fp32

/-- The exact value of an element's code: MXINT8 is its integer times 2⁻⁶. -/
def elemVal (f code : Nat) : FVal :=
  if f = 9 then .fin false (signedOf 8 code) (-6)
  else if f = 0 || f = 1 || f = 13 then .fin false (signedOf (fmtBits f) code) 0
  else fdecode (fmtOf f) code

def elemInt (f code : Nat) : Int := signedOf (fmtBits f) code
/-- An element widened to FP32 (R45); an integer is rounded once (R43). -/
def elemF32 (f code : Nat) : W32 := vround true (elemVal f code)

-- Conversion from FP32 (R45, R46)

/-- One value converted: its code and the saturations counted. -/
def convOne (f : Nat) (x : W32) : Nat × Nat :=
  match f with
  | 0 => let r := f32ToInt 8 x; (unsignedOf 8 r.1, b01 r.2)
  | 1 => let r := f32ToInt 4 x; (unsignedOf 4 r.1, b01 r.2)
  | 12 => ((if f32IsNaN x then f32NaN else x).toNat, 0)
  | _ => let r := f32To (fmtOf f) x; (r.1, b01 r.2)

/-- Exponent of the largest power of two of an MX element format (R46). -/
def mxEmax (f : Nat) : Int :=
  match f with
  | 4 => 8 | 5 => 15 | 6 => 2 | 7 => 4 | 8 => 2 | _ => 0

/-- A block of values converted to an MX block: element codes, scale code, saturations counted (R46). -/
def mxBlock (f : Nat) (xs : List W32) : List Nat × Nat × Nat :=
  let vals := xs.map f32Dy
  if vals.any (·.isNone) then (xs.map fun _ => 0, 0xFF, 0)
  else
    let mags := vals.filterMap fun v => match v with
      | some d => if d.m = 0 then none else some ((Nat.log2 d.m.natAbs : Int) + d.e)
      | none => none
    match mags with
    | [] => (xs.map fun _ => 0, 0, 0)
    | a :: r =>
      let sc := max (-127) (min 127 (r.foldl max a - mxEmax f))
      let es := (xs.zip vals).map fun (x, v) => match v with
        | some d =>
          if f = 9 then
            -- the element maximum is 1.984375 either way, so the code -128 is never written (R38)
            let q := roundInt d.m (d.e - sc + 6)
            let c := max (-127) (min 127 q)
            (unsignedOf 8 c, b01 (decide (c ≠ q)))
          else
            let ff := fmtOf f
            let c := roundCode ff.prec ff.eminq d.m.natAbs 1 (d.e - sc)
            (fsigned ff (f32Val x).isNeg c ff.maxCode, b01 (decide (c > ff.maxCode)))
        | none => (0, 0)
      (es.map Prod.fst, (sc + 127).toNat, (es.map Prod.snd).sum)

/-- FP32 values written in a format: packed elements, MX scales, saturations counted. MX blocks run along the values. -/
def convMany (f : Nat) (xs : List W32) : Bytes × Bytes × Nat :=
  if isMx f then
    let bl := (chunkList 32 xs).map (mxBlock f)
    (packBits (fmtBits f) (bl.flatMap (·.1)), bl.map fun b => BitVec.ofNat 8 b.2.1, (bl.map fun b => b.2.2).sum)
  else
    let es := xs.map (convOne f)
    (packBits (fmtBits f) (es.map Prod.fst), [], (es.map Prod.snd).sum)

/-- Whether a conversion's saturations set `INT_SATURATED` (R45). -/
def intTarget (f : Nat) : Bool := f == 0 || f == 1

/-- What an operation gives: bytes by slot, completion bits (in place, R106), AUX, saturating conversions. -/
structure OpOut where
  writes : List (Nat × Bytes)
  flags : Nat := 0
  aux : Nat := 0
  conv : Nat := 0
  deriving DecidableEq, Repr

def cbSat : Nat := 2 ^ 16
def cbNan : Nat := 2 ^ 17
def cbTie : Nat := 2 ^ 18
def cbShort : Nat := 2 ^ 19
def cbEmpty : Nat := 2 ^ 20
def cbText : Nat := 2 ^ 21
def cbTrunc : Nat := 2 ^ 22
def cbDup : Nat := 2 ^ 23

/-- FP32 rows written in a format, each row from a byte boundary: the row's bytes joined. -/
def convRows (f : Nat) (rows : List (List W32)) : Bytes × Bytes × Nat :=
  let rs := rows.map (convMany f)
  (rs.flatMap (·.1), rs.flatMap (fun r => r.2.1), (rs.map fun r => r.2.2).sum)

/-- Rows written through an output slot in the output format, with the saturation bit. The E8M0 scales of a block-scaled format
follow all elements in the same stream (log 82). -/
def slotRows (slot f : Nat) (rows : List (List W32)) : OpOut :=
  let r := convRows f rows
  { writes := [(slot, r.1 ++ r.2.1)], flags := if intTarget f && r.2.2 != 0 then cbSat else 0, conv := r.2.2 }

/-- Values written to slot 8 in the output format. -/
def outRows (f : Nat) (rows : List (List W32)) : OpOut := slotRows 8 f rows

-- Matrix products (R39 to R45)

/-- One operand row or column along k: formats, codes, and its block scales when block-scaled. -/
structure Line where
  fmt : Nat
  codes : List Nat
  scales : List Nat := []
  deriving DecidableEq, Repr

/-- The exponent of a block's scale; 0 for a format without. -/
def Line.scale (l : Line) (b : Nat) : Option Int := if isMx l.fmt then e8m0Exp (l.scales.getD b 0xFF) else some 0

/-- The raw accumulator of one output element. -/
inductive Acc where
  | int (v : Int) (sat : Bool)
  | flt (x : W32)
  deriving DecidableEq, Repr

/-- The magnitude of a value. -/
def vabs : FVal → FVal
  | .fin _ m e => .fin false (Int.natAbs m) e
  | .inf _ => .inf false
  | .nan => .nan

/-- A product with its two block scales applied, exactly. -/
def scaledBy (scale : Option Int) (p : FVal) : FVal :=
  match scale with
  | some e => vmul p (.fin false 1 e)
  | none => .nan

/-- The bound of R52 for a sum of `nb` blocks: |ŝ − s| ≤ (γ(nb) + 2⁻³⁵) × A + nb × 2⁻¹⁴⁹, multiplied by (2²⁴ − nb) × 2³⁵; it is claimed
while nb < 2²³ and no NaN or infinity arises. `ps` are the scaled products. -/
def withinDotBound (nb : Nat) (got : W32) (ps : List FVal) : Bool :=
  match f32Val got, ps.foldl vadd (.fin false 0 0), (ps.map vabs).foldl vadd (.fin false 0 0) with
  | .fin _ m e, .fin _ ms es, .fin _ ma ea =>
    let d : Int := ((2 ^ 24 - nb : Nat) : Int) * 2 ^ 35
    match vadd (.fin false (((nb * 2 ^ 35 + (2 ^ 24 - nb) : Nat) : Int) * ma) ea) (.fin false (nb * d) (-149)) with
    | .fin _ mt et => decide (2 ^ 23 ≤ nb) || dyWithin ⟨m * d, e⟩ ⟨ms * d, es⟩ ⟨mt, et⟩
    | _ => true
  | _, _, _ => true

namespace State

/-- The dot product of two lines: INT32 with saturation (R41), or blocks of 32 summed by R42 and added in any order (R44). In the
4-bit class, whose columns add two blocks per step, an order that would leave the bound of R52 gives the exact product rounded once
(log 129). -/
def dot (a w : Line) (s : State) : Acc × State :=
  if isIntFmt a.fmt then
    let r := s.sumI32 (List.zipWith (fun x y => elemInt a.fmt x * elemInt w.fmt y) a.codes w.codes)
    (.int r.1.1 r.1.2, r.2)
  else
    let ps := List.zipWith (fun x y => vmul (elemVal a.fmt x) (elemVal w.fmt y)) a.codes w.codes
    let scale := fun b => match a.scale b, w.scale b with
      | some x, some y => some (x + y)
      | _, _ => none
    let r := s.sumF32 ((chunkList 32 ps).zipIdx.map fun (p, b) => blockSum p (scale b))
    let exact := if fourBit a.fmt w.fmt then ps.zipIdx.map fun (p, i) => scaledBy (scale (i / 32)) p else []
    (.flt (if withinDotBound (ceilDiv ps.length 64) r.1 exact || exact.isEmpty then r.1 else vround false (exact.foldl vadd (.fin false 0 0))), r.2)

end State

/-- The epilogue's value before conversion (R43); `none` scales for raw INT32. -/
def epilogue (acc : Acc) (sb : W32 × W32) : W32 :=
  let x := match acc with
    | .int v _ => f32OfInt v
    | .flt x => x
  f32Fma x sb.1 sb.2

/-- An accumulator entry's 32 bits. -/
def Acc.bits : Acc → W32
  | .int v _ => BitVec.ofInt 32 v
  | .flt x => x

def Acc.sat : Acc → Bool
  | .int _ b => b
  | .flt _ => false

/-- Rows of accumulators written out: raw INT32, or through the epilogue with each column's scale and bias. -/
def accOut (slot outFmt : Nat) (rows : List (List Acc)) (sb : List (W32 × W32)) : OpOut :=
  let sat := rows.any fun r => r.any Acc.sat
  if outFmt = 13 then
    { writes := [(slot, rows.flatMap fun r => r.flatMap fun a => match a with
        | .int v _ => leBytes 4 (unsignedOf 32 v)
        | .flt x => leBytes 4 x.toNat)], flags := if sat then cbSat else 0 }
  else
    let o := slotRows slot outFmt (rows.map fun r => List.zipWith epilogue r sb)
    { o with flags := if sat then cbSat else o.flags }

/-- Columns of a weight tensor of K × N elements: row by row of k, or along k block by block for a block-scaled format. -/
def weightCols (fmt k n : Nat) (bs scales : Bytes) : List Line :=
  let codes := unpackFmt fmt bs
  let kb := ceilDiv k 32
  (List.range n).map fun j => {
    fmt, codes := (List.range k).map fun i => if isMx fmt then codes.getD (j * (kb * 32) + i) 0 else codes.getD (i * n + j) 0
    scales := ((List.range kb).map fun b => (scales.getD (j * kb + b) 0xFF).toNat) }

/-- Bytes that a weight tensor takes. -/
def weightLen (fmt k n : Nat) : Nat := if isMx fmt then n * packedLen (fmtBits fmt) (ceilDiv k 32 * 32) else packedLen (fmtBits fmt) (k * n)

/-- Scale and bias pairs of the epilogue slot. -/
def scaleBias (bs : Bytes) : List (W32 × W32) :=
  (chunks 8 bs).map fun c => (BitVec.ofNat 32 (uAt c 0 4), BitVec.ofNat 32 (uAt c 4 4))

/-- Two operations' outputs together. -/
def OpOut.join (a b : OpOut) : OpOut :=
  { writes := a.writes ++ b.writes, flags := a.flags ||| b.flags, aux := a.aux + b.aux, conv := a.conv + b.conv }

/-- Whether a work item's activations lie four bits to a lane in two values of k per cell. -/
def skewFor (w : Nat) : Skew := skewOf (fmtBits (wAFmt w)) (wGang w) (fourBit (wAFmt w) (wWFmt w))

/-- The highest weight slot in use: array j's scales and epilogue pairs stand at place j − 1 whether or not the arrays before it have
weights (R35). -/
def lastTensor (w : Nat) : Nat := ((wSlots w).filter fun j => inRange 1 4 j).foldl max 0

/-- Bytes that each input slot of a GEMM delivers (R33, R38). -/
def gemmLen (w slot : Nat) : Nat :=
  let m := wImm w 0
  let n := wImm w 1
  let k := wImm w 2
  let sk := skewFor w
  match slot with
  | 0 => ceilDiv k sk.cover * sk.words m * sk.word
  | 5 => m * ceilDiv k 32
  | 6 => lastTensor w * n * ceilDiv k 32
  | 7 => lastTensor w * n * 8
  | _ => weightLen (wWFmt w) k n

/-- A matrix product on the arrays: its weight slot, the broadcast words, the codes of its rows and of its weight columns along k, and the
accumulators of its rows. -/
structure Product where
  slot : Nat
  words : Bytes
  rows : List (List Nat)
  cols : List (List Nat)
  accs : List (List Acc)
  deriving DecidableEq, Repr

-- The arrays' buffers (R31, R32)

/-- Blocks that a weight buffer holds: two of 2 KiB at 16-bit formats, else four of 1 KiB (R32). -/
def bufferBlocks (fmt : Nat) : Nat := if fmtBits fmt = 16 then 2 else 4

/-- The block that a pass would switch to. -/
def MacArray.nextBlock (n : Nat) (a : MacArray) : Nat := (a.active + 1) % n
/-- A weight block is filled from tile memory, complete, beside the active one (R32). -/
def MacArray.fill (n : Nat) (b : List (List Nat)) (a : MacArray) : MacArray := { a with blocks := insertKey (a.nextBlock n) b a.blocks }
/-- A pass switches to the next block, and only once that block is complete in the buffer (R32); the block that it leaves is free to be
filled. -/
def MacArray.switch (n : Nat) (a : MacArray) : MacArray :=
  let next := a.nextBlock n
  if a.blocks.any (·.1 == next) then { a with active := next, blocks := a.blocks.filter fun b => b.1 == next || b.1 != a.active } else a

/-- What array `q` does in a gang mode (R35): the product's weight slot it serves (any in the ganged modes), its first output column, the
quarter of k it reads, and whether column sums end in its accumulators. -/
def arrayRole (gang q : Nat) : Option Nat × Nat × Nat × Bool :=
  match gang with
  | 0 => (some (q + 1), 0, 0, true)
  | 1 => (none, q % 2 * 32, q / 2, 2 ≤ q)
  | 2 => (none, q * 32, 0, true)
  | _ => (none, 0, q, q == 3)
/-- Output columns of one pass in a gang mode (R35). -/
def gangCols (gang : Nat) : Nat := if gang = 1 then 64 else if gang = 2 then 128 else 32

/-- The passes of a product (R31, R34): the first row, column and value of k of each. A pass has 64 rows, and the accumulators hold one
pass's outputs, so k runs innermost; rows run inside columns (log 131). -/
def passesOf (m n k cols cover : Nat) : List (Nat × Nat × Nat) :=
  (List.range (ceilDiv n cols)).flatMap fun c => (List.range (ceilDiv m 64)).flatMap fun r => (List.range (ceilDiv k cover)).map fun b =>
    (64 * r, cols * c, cover * b)

/-- Array `q` through the passes of a product: weight blocks fill and switch, the last broadcast words stand in its row buffer, the last
row's elements in its operand buffers, and in an array that ends a chain the last pass's outputs in its accumulators. -/
def MacArray.runProduct (w q : Nat) (p : Product) (a : MacArray) : MacArray :=
  let role := arrayRole (wGang w) q
  if (role.1.getD p.slot) != p.slot then a
  else
    let four := fourBit (wAFmt w) (wWFmt w)
    let span := if four then 64 else 32
    let n := bufferBlocks (wAFmt w)
    let k := ((p.rows.headD []).length)
    let ps := passesOf p.rows.length p.cols.length k (gangCols (wGang w)) ((skewFor w).cover)
    let cell := fun (x : Nat × Nat × Nat) =>
      ((p.cols.drop (x.2.1 + role.2.1)).take 32).map fun c => (c.drop (x.2.2 + role.2.2.1 * span)).take span
    let b := ps.foldl (fun a x => (a.fill n (cell x)).switch n) a
    match ps.getLast? with
    | none => b
    | some x =>
      { b with
        words := p.words.drop (p.words.length - 2048)
        operands := ((p.rows.getLastD []).drop (x.2.2 + role.2.2.1 * span)).take span
        acc := if role.2.2.2 then (p.accs.drop x.1).map fun r => ((r.drop (x.2.1 + role.2.1)).take 32).map Acc.bits else b.acc }

namespace State

/-- The accumulators of one matrix product, row by row. -/
def multiply (slot : Nat) (words : Bytes) (rows cols : List Line) (s : State) : Product × State :=
  let r := s.mapFree (fun row s => mapFree (fun col s => s.dot row col) cols s) rows
  ({ slot, words, rows := rows.map (·.codes), cols := cols.map (·.codes), accs := r.1 }, r.2)

/-- The array buffers of tile `t` after its matrix products (R31, R32). -/
def keepArrays (t w : Nat) (ps : List Product) (s : State) : State :=
  s.setTile t fun y => { y with arrays := (List.range 4).foldl (fun l q =>
    insertKey q (ps.foldl (fun a p => a.runProduct w q p) (lookupD q l {})) l) y.arrays }

/-- The products of a GEMM, one for each weight slot in use: `get` gives each input slot's bytes. -/
def gemmProducts (w : Nat) (get : Nat → Bytes) (s : State) : List Product × State :=
  let m := wImm w 0
  let n := wImm w 1
  let k := wImm w 2
  let kb := ceilDiv k 32
  let rows := (unskew (skewFor w) m k (get 0)).zipIdx.map fun (codes, i) =>
    ({ fmt := wAFmt w, codes, scales := (slice (get 5) (i * kb) kb).map (·.toNat) } : Line)
  s.mapFree (fun j s => s.multiply j (get 0) rows (weightCols (wWFmt w) k n (get j) (slice (get 6) ((j - 1) * n * kb) (n * kb))))
    ((wSlots w).filter fun j => inRange 1 4 j)

/-- GEMM (R31 to R45) on tile `t`: each product through the epilogue to its output slot. -/
def gemmOp (t w : Nat) (get : Nat → Bytes) (s : State) : OpOut × State :=
  let n := wImm w 1
  let sb := scaleBias (get 7)
  let ps := s.gemmProducts w get
  ((ps.1.map fun p => accOut (7 + p.slot) (wOutFmt w) p.accs ((sb.drop ((p.slot - 1) * n)).take n)).foldl OpOut.join { writes := [] },
   ps.2.keepArrays t w ps.1)

end State

-- Convolution (R55 to R58)

/-- Geometry of a convolution: batch, padded extents and paddings, from the input descriptor. -/
structure ConvGeo where
  b : Nat
  h : Nat
  w : Nat
  padT : Nat
  padL : Nat
  padH : Nat
  padW : Nat
  deriving DecidableEq, Repr

def convGeo (d : Nat) : ConvGeo :=
  let n := dNdim d
  let cnt := fun i => if i < n then dCount d i else 1
  let lo := fun i => if dPad d then dPadLo d i else 0
  let hi := fun i => if dPad d then dPadHi d i else 0
  { b := cnt 3 * cnt 4, h := cnt 2, w := cnt 1, padT := lo 2, padL := lo 1, padH := cnt 2 + lo 2 + hi 2, padW := cnt 1 + lo 1 + hi 1 }

/-- Output positions along one axis (R56). -/
def convOut (padded dil k stride : Nat) : Nat := (padded - dil * (k - 1) - 1) / stride + 1

/-- The output positions of a convolution in raster order. -/
def convPositions (w : Nat) (g : ConvGeo) : List (Nat × Nat × Nat) :=
  let ho := convOut g.padH (wImm w 4) (wImm w 0) (wImm w 2)
  let wo := convOut g.padW (wImm w 5) (wImm w 1) (wImm w 3)
  (List.range g.b).flatMap fun b => (List.range ho).flatMap fun y => (List.range wo).map fun x => (b, y, x)

/-- Kernel offsets r, s as padded input coordinates of an output position. -/
def convTaps (w : Nat) (p : Nat × Nat × Nat) : List (Nat × Nat × Nat) :=
  (List.range (wImm w 0)).flatMap fun r => (List.range (wImm w 1)).map fun c =>
    (p.1, p.2.1 * wImm w 2 + r * wImm w 4, p.2.2 * wImm w 3 + c * wImm w 5)

/-- Bytes that each input slot of a CONV or DWCONV delivers. -/
def convLen (w d slot : Nat) : Nat :=
  let g := convGeo d
  let groups := wImm w 6
  let k := wImm w 0 * wImm w 1 * wImm w 7
  let ng := wImm w 8 / groups
  match slot with
  | 0 => g.b * g.padH * g.padW * packedLen (fmtBits (wAFmt w)) (groups * wImm w 7)
  | 5 => g.b * g.h * g.w * (groups * wImm w 7 / 32)
  | 6 => groups * ng * ceilDiv k 32
  | 7 => wImm w 8 * 8
  | _ => groups * weightLen (wWFmt w) k ng

/-- The activation row of an output position in a group, with the scales of its blocks: channels of one tap after another; a
padding tap is zeros, whose blocks have scale 1 (R56). `codes` are the delivered tensor's elements. -/
def convRow (w : Nat) (g : ConvGeo) (codes : Array Nat) (scales : Bytes) (group : Nat) (p : Nat × Nat × Nat) : Line :=
  let cg := wImm w 7
  let c := wImm w 6 * cg
  let taps := convTaps w p
  { fmt := wAFmt w
    codes := taps.flatMap fun t => (List.range cg).map fun i => codes.getD (((t.1 * g.padH + t.2.1) * g.padW + t.2.2) * c + group * cg + i) 0
    scales := taps.flatMap fun t => (List.range (cg / 32)).map fun i =>
      if g.padT ≤ t.2.1 ∧ t.2.1 < g.padT + g.h ∧ g.padL ≤ t.2.2 ∧ t.2.2 < g.padL + g.w then
        (scales.getD (((t.1 * g.h + (t.2.1 - g.padT)) * g.w + (t.2.2 - g.padL)) * (c / 32) + (group * cg) / 32 + i) 0xFF).toNat
      else 127 }

/-- The codes of the delivered tensor, its dimension-0 runs unpacked one by one. -/
def tensorCodes (fmt c : Nat) (bs : Bytes) : Array Nat :=
  ((chunks (packedLen (fmtBits fmt) c) bs).flatMap fun r => (unpackFmt fmt r).take c).toArray

namespace State

/-- CONV (R55 to R57) on tile `t`: one product per group, its skewed words built on the fly (R33), and each output row its groups'
columns in order. -/
def convOp (t w d : Nat) (get : Nat → Bytes) (s : State) : OpOut × State :=
  let g := convGeo d
  let groups := wImm w 6
  let k := wImm w 0 * wImm w 1 * wImm w 7
  let ng := wImm w 8 / groups
  let kb := ceilDiv k 32
  let codes := tensorCodes (wAFmt w) (groups * wImm w 7) (get 0)
  let wl := weightLen (wWFmt w) k ng
  let at' := convPositions w g
  let ps := s.mapFree (fun i s =>
    let rows := at'.map (convRow w g codes (get 5) i)
    let grid := (rows.map fun r => r.codes.toArray).toArray
    s.multiply 1 (skewWords (skewFor w) at'.length k fun a b => (grid.getD a #[]).getD b 0) rows
      (weightCols (wWFmt w) k ng (slice (get 1) (i * wl) wl) (slice (get 6) (i * ng * kb) (ng * kb)))) (List.range groups)
  let accs := at'.zipIdx.map fun (_, m) => ps.1.flatMap fun p => p.accs.getD m []
  (accOut 8 (wOutFmt w) accs (scaleBias (get 7)), ps.2.keepArrays t w ps.1)

end State

/-- One depthwise output (R58): INT8 in saturating INT32, floating by FMA in the order r, then s. A pair of which one alone is integer,
which R39 refuses only of MATRIX work items, is computed in FP32 (log 130). -/
def dwDot (a w : Line) : Acc :=
  if isIntFmt a.fmt && isIntFmt w.fmt then
    let r := (List.zipWith (fun x y => elemInt a.fmt x * elemInt w.fmt y) a.codes w.codes).foldl (fun (acc : Int × Bool) p =>
      let t := satInt 32 (acc.1 + p); (t.1, acc.2 || t.2)) (0, false)
    .int r.1 r.2
  else .flt ((List.zipWith (fun x y => (elemF32 a.fmt x, elemF32 w.fmt y)) a.codes w.codes).foldl (fun acc p => f32Fma p.1 p.2 acc) 0)

/-- DWCONV (R58). -/
def dwconvOp (w d : Nat) (get : Nat → Bytes) : OpOut :=
  let g := convGeo d
  let groups := wImm w 6
  let k := wImm w 0 * wImm w 1
  let ng := wImm w 8 / groups
  let codes := tensorCodes (wAFmt w) groups (get 0)
  let wl := weightLen (wWFmt w) k ng
  let cols := (List.range groups).map fun i => weightCols (wWFmt w) k ng (slice (get 1) (i * wl) wl) []
  let accs := (convPositions w g).map fun p => cols.zipIdx.flatMap fun (cs, gi) => cs.map fun c => dwDot (convRow w g codes [] gi p) c
  accOut 8 (wOutFmt w) accs (scaleBias (get 7))

-- The vector unit (R53, R54)

/-- An integer lane's result at a width: wrapped, or saturated on request with a mark (R53). -/
def laneInt (sat : Bool) (bits : Nat) (i : Int) : Int × Bool := if sat then satInt bits i else (signedOf bits (unsignedOf bits i), false)

/-- Integer lane results (R53), wrapped or saturated at the lane's width and written in the output format. The width is the integer
output format's own, and `lane` bits before a conversion to a floating one (log 83: R53 does not say which lane a work item takes, and
no format code names INT16). -/
def intOut (lane w : Nat) (rows : List (List Int)) : OpOut :=
  let o := wOutFmt w
  let whole := o == 13 || intTarget o
  let bits := if whole then fmtBits o else lane
  let rs := rows.map fun r => r.map (laneInt (wSaturate w) bits)
  let sat := if rs.any fun r => r.any Prod.snd then cbSat else 0
  if whole then { writes := [(8, rs.flatMap fun r => packBits bits (r.map fun x => unsignedOf bits x.1))], flags := sat }
  else
    let x := outRows o (rs.map fun r => r.map fun i => f32OfInt i.1)
    { x with flags := x.flags ||| sat }

/-- Rows of FP32 written, INT32 outputs as the nearest integers (R45). -/
def vecOut (w : Nat) (rows : List (List W32)) : OpOut :=
  if wOutFmt w = 13 then
    let rs := rows.map fun r => r.map (f32ToInt 32)
    { writes := [(8, rs.flatMap fun r => r.flatMap fun x => leBytes 4 (unsignedOf 32 x.1))]
      flags := if rs.any fun r => r.any Prod.snd then cbSat else 0 }
  else outRows (wOutFmt w) rows

/-- An integer lane operation by the numbers of `State.binary`; none for division. -/
def intBinary (fn : Nat) (a b : Int) : Option Int :=
  match fn % 6 with
  | 0 => some (a + b)
  | 1 => some (a - b)
  | 2 => some (a * b)
  | 3 => some (min a b)
  | 4 => some (max a b)
  | _ => none

namespace State

/-- EW_UNARY on rows of codes. -/
def ewUnaryOp (w : Nat) (rows : List (List Nat)) (s : State) : OpOut × State :=
  let r := s.mapFree (fun row s => mapFree (fun c s => s.unary (Config.unaryFn (wImm w 0)) (elemF32 (wAFmt w) c)) row s) rows
  (vecOut w r.1, r.2)

/-- EW_BINARY on rows of code pairs; integer operands stay in integer lanes but for division. -/
def ewBinaryOp (w : Nat) (rows : List (List (Nat × Nat))) (s : State) : OpOut × State :=
  let fn := Config.binaryFn (wImm w 0)
  if isIntFmt (wAFmt w) && isIntFmt (wWFmt w) && fn % 6 != 5 then
    (intOut 8 w (rows.map fun r => r.map fun p => (intBinary fn (elemInt (wAFmt w) p.1) (elemInt (wWFmt w) p.2)).getD 0), s)
  else
    let r := s.mapFree (fun row s => mapFree (fun (p : Nat × Nat) s => s.binary fn (elemF32 (wAFmt w) p.1) (elemF32 (wWFmt w) p.2)) row s) rows
    (vecOut w r.1, r.2)

/-- A sum of a REDUCE: its term list reduced by operation 0 sum, 1 mean, 2 norm (the root of the sum of squares). -/
def reduceTerms (fn : Nat) (xs : List W32) (s : State) : W32 × State :=
  match fn % 3 with
  | 0 => s.sumF32 xs
  | 1 => let r := s.sumF32 xs; r.2.vdiv r.1 (f32OfInt xs.length)
  | _ => let r := s.sumF32 (xs.map fun x => f32Mul x x); (f32Sqrt r.1, r.2)

/-- REDUCE of the lines along the axis: integers sum in INT32 lanes, everything else in FP32. -/
def reduceOp (w : Nat) (lines : List (List Nat)) (s : State) : OpOut × State :=
  let fn := Config.reduceFn (wImm w 0)
  if isIntFmt (wAFmt w) && fn % 3 = 0 then
    if wSaturate w then
      let r := s.mapFree (fun l s => s.sumI32 (l.map (elemInt (wAFmt w)))) lines
      let o := intOut 32 w [r.1.map Prod.fst]
      ({ o with flags := o.flags ||| (if r.1.any Prod.snd then cbSat else 0) }, r.2)
    else (intOut 32 w [lines.map fun l => signedOf 32 (unsignedOf 32 (l.map (elemInt (wAFmt w))).sum)], s)
  else
    let r := s.mapFree (fun l s => s.reduceTerms fn (l.map (elemF32 (wAFmt w)))) lines
    (vecOut w [r.1], r.2)

/-- NORM of one row (R54): the layer norm subtracts the mean; ε is added before the reciprocal square root. -/
def normRow (layer : Bool) (eps : W32) (gain shift : List W32) (xs : List W32) (s : State) : List W32 × State :=
  let n := f32OfInt xs.length
  let m := if layer then (let t := s.sumF32 xs; t.2.vdiv t.1 n) else (0, s)
  let ys := if layer then xs.map fun x => f32Sub x m.1 else xs
  let q := m.2.sumF32 (ys.map fun y => f32Mul y y)
  let v := q.2.vdiv q.1 n
  let r := v.2.vrsqrt (f32Add v.1 eps)
  (List.zipWith (fun y (g : W32 × W32) => f32Fma (f32Mul y r.1) g.1 g.2) ys (gain.zip shift), r.2)

def normOp (w : Nat) (rows : List (List Nat)) (gs : List W32) (s : State) : OpOut × State :=
  let n := (rows.headD []).length
  let r := s.mapFree (fun row s => s.normRow (Config.normLayer (wImm w 0)) (BitVec.ofNat 32 (wImm w 1)) (gs.take n) (gs.drop n)
    (row.map (elemF32 (wAFmt w)))) rows
  (vecOut w r.1, r.2)

/-- SOFTMAX of one row (R54): the row's maximum is subtracted first. -/
def softmaxRow (xs : List W32) (s : State) : List W32 × State :=
  match xs with
  | [] => ([], s)
  | x :: r =>
    let top := r.foldl f32Max x
    let es := s.mapFree (fun y s => s.unary 3 (f32Sub y top)) xs
    let d := es.2.sumF32 es.1
    mapFree (fun e s => s.vdiv e d.1) es.1 d.2

def softmaxOp (w : Nat) (rows : List (List Nat)) (mask : Option (List (List Nat))) (s : State) : OpOut × State :=
  let vals := rows.map fun r => r.map (elemF32 (wAFmt w))
  let vals := match mask with
    | some ms => List.zipWith (fun r m => List.zipWith (fun x c => f32Add x (elemF32 (wWFmt w) c)) r m) vals ms
    | none => vals
  let r := s.mapFree (fun row s => s.softmaxRow row) vals
  (vecOut w r.1, r.2)

/-- POOL2D over the delivered tensor. -/
def pool2dOp (w d : Nat) (bs : Bytes) (s : State) : OpOut × State :=
  let f := Config.poolForm (wImm w 0)
  let g := convGeo d
  let c := dCount d 0
  let codes := tensorCodes (wAFmt w) c bs
  let kh := max 1 f.2.1
  let kw := max 1 f.2.2.1
  let pos := (List.range g.b).flatMap fun b => (List.range (convOut g.padH 1 kh (max 1 f.2.2.2.1))).flatMap fun y =>
    (List.range (convOut g.padW 1 kw (max 1 f.2.2.2.2))).map fun x => (b, y * max 1 f.2.2.2.1, x * max 1 f.2.2.2.2)
  let r := s.mapFree (fun (p : Nat × Nat × Nat) s => mapFree (fun ch s =>
    let xs := (List.range kh).flatMap fun i => (List.range kw).map fun j =>
      elemF32 (wAFmt w) (codes.getD (((p.1 * g.padH + (p.2.1 + i)) * g.padW + (p.2.2 + j)) * c + ch) 0)
    if f.1 then (let t := s.sumF32 xs; t.2.vdiv t.1 (f32OfInt xs.length))
    else match xs with
      | x :: r => (r.foldl f32Max x, s)
      | [] => (0, s)) (List.range c) s) pos
  (vecOut w r.1, r.2)

end State

/-- EW_FMA (R53): FP32 fused; integer lanes multiply and add. -/
def ewFmaOp (w : Nat) (rows : List (List (Nat × Nat × Nat))) : OpOut :=
  if isIntFmt (wAFmt w) && isIntFmt (wWFmt w) then
    intOut 8 w (rows.map fun r => r.map fun p => elemInt (wAFmt w) p.1 * elemInt (wWFmt w) p.2.1 + elemInt (wWFmt w) p.2.2)
  else vecOut w (rows.map fun r => r.map fun p => f32Fma (elemF32 (wAFmt w) p.1) (elemF32 (wWFmt w) p.2.1) (elemF32 (wWFmt w) p.2.2))

/-- CONVERT (R45, R46): MX targets write their scales through slot 6. -/
def convertOp (w : Nat) (rows : List (List Nat)) : OpOut :=
  if wOutFmt w = 13 then vecOut w (rows.map fun r => r.map (elemF32 (wAFmt w)))
  else
    let r := convRows (wOutFmt w) (rows.map fun r => r.map (elemF32 (wAFmt w)))
    { writes := (8, r.1) :: (if isMx (wOutFmt w) then [(6, r.2.1)] else [])
      flags := if intTarget (wOutFmt w) && r.2.2 != 0 then cbSat else 0, conv := r.2.2 }

end Sys2Proof.Machine
end

