-- ==== Sys2Proof/Machine/Link.lean ====
section
/-! DEFINITION. Reset and start-up (R397 to R402, R421, R427, R461), the link and what arrives on it beneath MWP (R322 to
R333). -/

namespace Sys2Proof.Machine

namespace State

/-- What a reset leaves (R397, R427, R461): everything volatile is lost; fuses and flash stay, a header erased by a write
in progress included; FAULT_N stays asserted through a reset (R465); the TAP is not reset by RESET_N (R463). -/
def afterReset (s : State) : State :=
  { State.reset with
    pending := s.pending, out := s.out, free := s.free, fuses := s.fuses
    flash := { s.flash with writeA := none, writeB := none }
    pins := { s.pins with resetLow := true, thermtrip := false, thermLatched := false, xspiReleased := true } }

/-- RESET_N_ASSERT (R461). -/
def doResetNAssert (s : State) : State := s.afterReset

/-- SUPPLY_REMOVAL (R427): every volatile state is lost; the pins fall with the supply. -/
def doSupplyRemoval (s : State) : State :=
  let r := s.afterReset
  { r with pins := {} }

/-- The slots in the order start-up tries them (R399): the valid header with the greater IMAGE_SEQ first, A when equal. -/
def slotOrder (f : Flash) : List Nat :=
  match headerOk f.slotA, headerOk f.slotB with
  | true, true => if imageSeq f.slotA < imageSeq f.slotB then [1, 0] else [0, 1]
  | true, false => [0]
  | false, true => [1]
  | false, false => []

def slotBytes (f : Flash) (b : Nat) : Bytes := if b == 0 then f.slotA else f.slotB

/-- The first slot that verifies (R398 step 4, R389). -/
def bootSlot (s : State) : Option (Nat × Verified) :=
  (slotOrder s.flash).findSome? fun b => (verifyImage s.fuses (slotBytes s.flash b)).map fun v => (b, v)

/-- The flash as start-up finds it: the board may have programmed it while RESET_N was low (R397). -/
def boardFlash (r : StartReport) (f : Flash) : Flash := { f with slotA := r.flashA.getD f.slotA, slotB := r.flashB.getD f.slotB }

/-- The owner's key as start-up reads it from the slots (R26, R399, R401): of a slot whose SECURITY section holds the key of the current
owner slot. -/
def slotKey (fuses : Fuses) (f : Flash) : Option Bytes :=
  ([f.slotA, f.slotB].filterMap fun img => ((parseSecurity (imageSection img 4)).toOption).map fun x => x.1.ownerKey).find?
    fun k => some (Config.sha384 k) == fuses.owners.getLast?

/-- The fuses after start-up (R389, R398): as verification of the slot that boots leaves them. -/
def startFuses (r : StartReport) (s : State) : Fuses :=
  if s.pins.resetLow && !(r.strapTest || !r.fusesOk || !r.romOk) then
    match ({ s with flash := boardFlash r s.flash } : State).bootSlot with
    | some (_, v) => v.fuses
    | none => s.fuses
  else s.fuses

/-- Sub-ports of the port mode in force, down until their links train. -/
def freshSubs (s : State) : State :=
  { s with subs := (List.range s.cfg.port.subs).map fun i => (i, {}), trained := (s.cfg.port.mode, s.cfg.port.pmd) }

/-- The failed state of start-up (R402, R465). -/
def failStart (s : State) : State :=
  let s := { s with boot := { s.boot with service := 3, millpond := true }, pins := { s.pins with faultN := true } }
  s.freshSubs.announce 1

/-- Recovery (R401): sub-port 0 alone, default port settings, M2 zeros. -/
def enterRecovery (r : StartReport) (s : State) : State :=
  let s := { s with cfg := {}, boot := { s.boot with service := 2, m1 := zeros 48, m2 := zeros 48, m3 := zeros 48, imageSeq := 0 } }
  if r.hbmTrained && r.failedTile.isNone then s.freshSubs else s.failStart

/-- Step 8 of R398: functions start, the power state of POWER is entered, the spreads and P-level take effect (R438,
R439). -/
def enterService (s : State) : State :=
  let v := s.cfg.mode.vals s.fuses.part
  let p := s.cfg.power
  let running := if p.initState == 0 then 0xFF else 0x83
  let s := { s with
    boot := { s.boot with service := 1, millpond := false }
    power := { s.power with
      state := p.initState, gate := p.initGate % 2 ^ s.cfg.pools.length, cap := v.cap, arraysClocked := p.initState == 0
      pLevel := if p.initState == 0 then v.pLevel else 4, spreadArith := p.arithSpread, spreadMesh := p.meshSpread }
    fns := { s.fns with running }
    twin := { s.twin with state := 0 } }
  let s := if p.initState == 0 && v.pLevel != 4 then s.emit (.avs v.pLevel) else s
  (s.listPeers.refreshCatalogue {}).startWork running

/-- What the failed state takes from an image of which a section fails step 5 (R402): the sections that it serves `INSPECT` under and that
are sound by themselves. -/
def partialCfg (img : Bytes) : RunCfg :=
  let d : RunCfg := {}
  { d with
    port := (parsePort (imageSection img 0)).toOption.getD d.port
    security := ((parseSecurity (imageSection img 4)).toOption.map (·.1)).getD d.security
    peers := (parsePeers (imageSection img 5)).toOption.getD d.peers }

/-- Steps 5 to 8 of R398 for the verified image of a slot. -/
def bootImage (r : StartReport) (b : Nat) (v : Verified) (s : State) : State :=
  let img := slotBytes s.flash b
  let s := { s with
    fuses := v.fuses
    boot := { s.boot with
      slot := b, fellBack := (slotOrder s.flash).head? != some b, imageSeq := imageSeq img, fwSvn := v.fwSvn
      m1 := Config.sha384 (imageSection img 15), m2 := Config.sha384 (img.take (uAt img 28 4)), m3 := zeros 48 } }
  match parseImage s.fuses.part img with
  | .error _ => { s with cfg := partialCfg img }.failStart
  | .ok c =>
    let s := { s with cfg := c }
    let s := s.freshSubs
    if r.hbmTrained && r.failedTile.isNone then s.enterService else s.failStart

/-- RESET_N_RELEASE (R398, R461): the straps are sampled and start-up runs. It acts only while RESET_N is low. -/
def doResetNRelease (r : StartReport) (s : State) : State :=
  if s.pins.resetLow then
    let fuses := s.startFuses r
    let s := { s with
      pins := { s.pins with resetLow := false, faultN := false, xspiReleased := false, mgmtAddr := 0x58 + r.mgmtAddr % 8, extestDrive := none }
      flash := boardFlash r s.flash }
    if r.strapTest || !r.fusesOk || !r.romOk then
      { s with boot := { s.boot with halted := true }, pins := { s.pins with faultN := true } }
    else
      let s := { s with boot := { s.boot with m0 := Config.romDigest, ownerKey := slotKey fuses s.flash } }
      let c := s.random 32
      let s := { c.2 with boot := { c.2.boot with challenge := c.1 } }
      let s := match s.bootSlot with
        | none => s.enterRecovery r
        | some (b, v) => s.bootImage r b v
      if r.entropyOk then s else s.deviceEvent { cause := 0x35, unit := 7 }
  else s

-- The link

def setSub (s : State) (sub : Nat) (f : SubPort → SubPort) : State :=
  { s with subs := s.subs.map fun p => if p.1 == sub then (sub, f p.2) else p }
def sub? (s : State) (sub : Nat) : Option SubPort := (s.subs.find? (·.1 == sub)).map (·.2)

/-- A hello leaves a sub-port (R332). -/
def helloOn (sub : Nat) (s : State) : State :=
  match s.sub? sub with
  | none => s
  | some p =>
    if s.inService && s.works fnPort && p.up then
      (s.setSub sub fun p => { p with helloAt := s.portTicks }).sendHello sub
    else s

/-- LINK_UP (R398). -/
def doLinkUp (sub : Nat) (s : State) : State :=
  if s.portLive && (s.sub? sub).isSome then (s.setSub sub fun p => { p with up := true }).helloOn sub else s

/-- PORT_LINK_DOWN (R446): a CORRECTED event; no peer entry changes (R336). -/
def doPortLinkDown (sub : Nat) (s : State) : State :=
  match s.sub? sub with
  | some p =>
    if p.up then (s.setSub sub fun p => { p with up := false }).correctedEvent { cause := 0x14, unit := 4, unitIndex := sub } fnPort
    else s
  | none => s

/-- A big-endian 16-bit field of a published header (R9). -/
def be16 (bs : Bytes) (off : Nat) : Nat := leNat (slice bs off 2).reverse

/-- What a frame's checks decide (R324, R325, R328): dropped under a counter (its offset in the sub-port's block), ignored,
passed on, or passed on as an MWP datagram of some bytes. -/
inductive Verdict where
  | drop (ctr : Nat)
  | ignore
  | pass
  | mwp (bytes : Nat)
  deriving DecidableEq, Repr

/-- The verdict on an IPv6 or IPv4 packet (R328): UDP to an own address on MWP_PORT or to the discovery group, ND, and echo requests to
an own address or a group; every other packet is dropped. -/
def ipVerdict (c : PortCfg) (sub : Nat) (v6 : Bool) (p : Bytes) : Verdict :=
  let dst := if v6 then slice p 24 16 else slice p 16 4
  let u := p.drop (if v6 then 40 else 20)
  let udp := if (c.owns sub v6 dst && be16 u 2 == c.mwpPort) || dst == c.group v6 then .mwp (be16 u 4 - 8) else .drop 0x20
  let echo := if c.owns sub v6 dst || isGroup dst then .pass else .drop 0x20
  if v6 then
    let nh := uAt p 6 1
    if nh == 17 then udp
    else if nh == 58 && uAt u 0 1 == 128 then echo
    else if nh == 58 && [133, 134, 135, 136, 137].contains (uAt u 0 1) then .pass
    else .drop 0x20
  else
    let proto := uAt p 9 1
    if uAt p 0 1 != 0x45 || be16 p 6 % 0x4000 != 0 then .drop 0x20
    else if proto == 17 then udp
    else if proto == 1 && uAt u 0 1 == 8 then echo
    else .drop 0x20

/-- The verdict on a frame. -/
def frameVerdict (c : PortCfg) (f : Frame) : Verdict :=
  let t0 := be16 f.bytes 12
  let tagged := t0 == 0x8100
  let vid := if tagged then be16 f.bytes 14 % 4096 else 0
  let type := if tagged then be16 f.bytes 16 else t0
  let body := f.bytes.drop (if tagged then 18 else 14)
  if !f.fcsOk || f.fecUncorrectable != 0 then .ignore
  else if f.bytes.length > 9216 then .drop 0x10
  else if type == 0x88CC then .pass
  else if type == 0x8808 then (if be16 body 0 == 0x0101 then .pass else .ignore)
  else if (if c.vlan == 0 then vid != 0 else !(tagged && vid == c.vlan)) then .drop 0x18
  else if type == 0x0806 then .pass
  else if type == 0x86DD then ipVerdict c f.sub true body
  else if type == 0x0800 then ipVerdict c f.sub false body
  else .drop 0x20

/-- ETH_FRAME_RX (R324): FEC counts, the frame's verdict, the receive buffer and PFC (R326). -/
def doEthFrameRx (f : Frame) (s : State) : State :=
  match s.sub? f.sub with
  | none => s
  | some p =>
    if !s.portLive || !p.up then s else
      let s := (s.count (subCtr f.sub 0x00) f.fecCorrected).count (subCtr f.sub 0x08) f.fecUncorrectable
      match frameVerdict s.cfg.port f with
      | .drop c => s.count (subCtr f.sub c) 1
      | .ignore => s
      | .pass => s
      | .mwp n =>
        if p.rxBytes + n > 4194304 then s.count (subCtr f.sub 0x28) 1
        else
          let xoff := s.cfg.port.pfc == 1 && !p.xoffSent && decide (3145728 < p.rxBytes + n)
          let s := s.setSub f.sub fun p => { p with rxBytes := p.rxBytes + n, xoffSent := p.xoffSent || xoff }
          if xoff then (s.emit (.pfc f.sub true)).count (subCtr f.sub 0x30) 1 else s

/-- Transmission on PCP resumes: what the pause held back leaves in order. -/
def resume (sub : Nat) (s : State) : State :=
  match s.sub? sub with
  | none => s
  | some p =>
    let s := s.setSub sub fun p => { p with pauseQuanta := 0, held := [] }
    { s with out := s.out ++ p.held }

/-- PFC_FRAME_RX (R326): transmission on PCP stops for the quanta given; zero quanta resume it. -/
def doPfcFrameRx (sub enable quanta : Nat) (s : State) : State :=
  if s.portLive && s.cfg.port.pfc == 1 && bitAt enable s.cfg.port.pcp then
    if quanta = 0 then s.resume sub else s.setSub sub fun p => { p with pauseQuanta := quanta }
  else s

/-- PFC_PAUSE_EXPIRY (R326). -/
def doPfcPauseExpiry (sub : Nat) (s : State) : State :=
  match s.sub? sub with
  | some p => if 0 < p.pauseQuanta then s.resume sub else s
  | none => s

/-- LLDP_FRAME_RX (R333): the link partner's identities are recorded; no peer state changes. -/
def doLldpFrameRx (sub : Nat) (chassis portId : Bytes) (s : State) : State :=
  if s.portLive then s.setSub sub fun p => { p with lldpChassis := fit 32 chassis, lldpPort := fit 32 portId } else s

/-- An address is one of a sub-port's own (R327). -/
def ownsAddr (s : State) (sub : Nat) (v6 : Bool) (a : Bytes) : Bool := s.cfg.port.owns sub v6 a

/-- NEIGHBOR_RESOLUTION_RX (R327): a solicitation for an own address is answered, and its sender is resolved by it (PRESUMED, log entry
149); an answer resolves a neighbour. -/
def doNeighborResolutionRx (n : Neighbor) (s : State) : State :=
  if s.portLive && (s.sub? n.sub).isSome then
    if n.request then
      if s.ownsAddr n.sub n.v6 n.target then
        (s.neighborIs n.sub n.sender n.senderMac).transmit n.sub
          (s.cfg.port.wrap n.sub n.senderMac n.sender (.neighbor n.sub n.v6 true n.target (macOf n.sub)))
      else s
    else s.neighborIs n.sub n.target n.senderMac
  else s

/-- ECHO_REQUEST_RX (R328). -/
def doEchoRequestRx (sub : Nat) (src : Endpoint) (v6 : Bool) (data : Bytes) (s : State) : State :=
  if s.portLive && (s.sub? sub).isSome then
    if data.length ≤ 1024 then s.emitOn sub (.echo sub src v6 data) else s.count (subCtr sub 0x20) 1
  else s

/-- LLDP_TIMER (R333): every LLDP_S the sub-port sends its identities, with the device index as the system name. -/
def doLldpTimer (sub : Nat) (s : State) : State :=
  match s.sub? sub with
  | some p =>
    if s.portLive && p.up then
      let s := s.atLeast (p.lldpAt + ticksOfMs (1000 * s.cfg.port.lldpS))
      (s.setSub sub fun p => { p with lldpAt := s.portTicks }).emit
        (.lldp sub Config.lldpChassis (macBytes (macOf sub)) s.cfg.peers.selfIndex)
    else s
  | none => s

/-- HELLO_TIMER (R332): every HELLO_MS the sub-port sends a signed hello. -/
def doHelloTimer (sub : Nat) (s : State) : State :=
  match s.sub? sub with
  | some p =>
    if s.inService && s.works fnPort && p.up then
      (s.atLeast (p.helloAt + ticksOfMs s.cfg.peers.helloMs)).helloOn sub
    else s
  | none => s

end State
end Sys2Proof.Machine
end

