-- ==== Sys2Proof/Machine/Sessions.lean ====
section
/-! DEFINITION. Opening and closing sessions (R351, R376 to R387): the handshake messages, the attestation report, and the
ACK that opens a session. -/

namespace Sys2Proof.Machine

/-- The report state of an object (R380): 0 held, 1 current, 2 released. -/
def reportState (o : Obj) : Nat := if o.state == 2 then 1 else if o.state == 4 then 2 else 0

/-- A report object entry (R380). -/
def reportEntry (o : Obj) : Bytes :=
  record 16 [(0, o.kind), (8, reportState o), (16, o.id), (32, o.version), (80, o.mark)] ++ fit 48 o.digest

/-- IKM and PRK of a handshake (R384). -/
def handshakePrk (rI rR kem ec : Bytes) : Bytes := Config.hkdfExtract (rI ++ rR) (fit 32 kem ++ fit 48 ec)

/-- The handshake key of a side (R384). -/
def handshakeKey (prk th1 : Bytes) (responder : Bool) : Bytes :=
  Config.hkdfExpand prk ((if responder then lblHsR else lblHsI) ++ th1) 32

/-- Cleartext bytes of an ACCEPT payload: session, random, ciphertext, point, sealed length. -/
def acceptClear : Nat := 1705
/-- Cleartext bytes of a CONFIRM payload: session, random, sealed length. -/
def confirmClear : Nat := 40

/-- What the sealed part of an ACCEPT holds (R383): the chains as sent, the report, the signature. -/
structure AcceptBody where
  chains : Bytes
  report : Bytes
  sig : Bytes
  deriving DecidableEq, Repr

/-- The sealed part of an ACCEPT, taken apart; none when its lengths do not add up. -/
def acceptBody (p : Bytes) : Option AcceptBody :=
  let l1 := uAt p 0 4
  let l2 := uAt p (4 + l1) 4
  let chains := 8 + l1 + l2
  let r := uAt p chains 4
  if p.length == chains + 4 + r + 4723 then
    some { chains := p.take chains, report := slice p (chains + 4) r, sig := p.drop (chains + 4 + r) }
  else none

/-- What a CONFIRM proves: a host with its permissions, or the listed device with an index. -/
inductive Proven where
  | host (perms : Nat)
  | device (d : PeerCfg) (key : Bytes)
  deriving DecidableEq, Repr

namespace State

/-- The enrolled owner's key: of the running copy, else what start-up read of it (R26, R399, R401). -/
def enrolledKey (s : State) : Option Bytes :=
  if s.cfg.security.ownerKey != [] then some s.cfg.security.ownerKey else s.boot.ownerKey

/-- The private halves of the wrap key, and the WRAP_KEY of the report (R375, R380). -/
def wrapPair (s : State) : Bytes × Bytes :=
  Config.wrapSecret (s.fuses.owners.getLast?.getD (zeros 48)) s.boot.fwSvn s.boot.debugFull
def wrapKey (s : State) : Bytes := fit 1568 (Config.kemPublic s.wrapPair.1) ++ fit 97 (Config.ecPublic s.wrapPair.2)

/-- The attestation report (R380), signed by the Alias key. -/
def report (s : State) (nonce : Bytes) : Bytes :=
  let objs := s.objects.filter (·.state != 0)
  let p := leBytes 4 0x54545441 ++ leBytes 2 1 ++ leBytes 1 s.cfg.peers.selfIndex
    ++ leBytes 1 (b01 s.boot.debugStatus + 2 * b01 s.boot.debugFull) ++ leBytes 4 s.boot.fwSvn ++ leBytes 4 s.cfg.security.imageSvn
    ++ leBytes 4 (s.fuses.owners.length - 1) ++ leBytes 4 objs.length ++ nonce ++ fit 48 (s.fuses.owners.getLast?.getD [])
    ++ fit 48 s.boot.m0 ++ fit 48 s.boot.m1 ++ fit 48 s.boot.m2 ++ fit 48 s.boot.m3 ++ s.wrapKey ++ objs.flatMap reportEntry
  p ++ fit 4723 (Config.hybridSign (Config.aliasKey s.boot.m1 s.boot.m2) (Config.sha384 p))

/-- A delivered message outside a session that a command names. -/
def plainTaken? (s : State) (type sub : Nat) (src : Endpoint) (payload : Bytes) : Option Delivered :=
  s.delivered.find? fun d => d.session == 0 && d.type == type && d.sub == sub && d.src == src && d.frags.flatten == payload

/-- A SESSION_CLOSE outside a session refuses a handshake (R386). -/
def refuseHandshake (sub : Nat) (dst : Endpoint) (sid reason : Nat) (s : State) : State :=
  s.sendPlain sub dst 4 (leBytes 4 sid ++ leBytes 4 reason)

/-- The listed device a hello came from, by the address it came from. -/
def deviceAt (s : State) (src : Endpoint) : Option Nat :=
  (s.peers.find? fun p => p.2.role != 0 && p.2.host == some src).map (·.2.devIndex)

/-- Device handshakes are taken in service with PORT running (R401, R402, R414). -/
def takesDevices (s : State) : Bool := s.boot.service == 1 && bitAt s.fns.running 0

/-- The lowest unused session id from a starting draw on: not 0, and not held. -/
def freshSession (s : State) (start : Nat) : Nat :=
  let used := s.sessions.flatMap (fun q => [q.id, q.wire]) ++ s.handshakes.map (·.session)
  ((List.range (used.length + 2)).map fun i => (start + i) % (2 ^ 32 - 1) + 1).find? (fun i => !(used.contains i)) |>.getD 1

/-- The handshake that answers an INIT (R383, R384): a fresh session id and random, the key agreement with the initiator's keys, and the
ACCEPT with the report when it was asked for. -/
def answerHandshake (s : State) (sub : Nat) (src : Endpoint) (payload : Bytes) : Handshake :=
  let draw := fun (i n : Nat) => fit n (Config.entropy (s.free + i) n)
  let rI := slice payload 4 32
  let sid := s.freshSession (leNat (draw 3 4))
  let kem := Config.kemEncaps (slice payload 36 1568) (draw 1 32)
  let prk := handshakePrk rI (draw 0 32) kem.2 (Config.ecdh (draw 2 48) (slice payload 1604 97))
  let rep := if bitAt (uAt payload 0 4) 0 then s.report rI else []
  let chains := Config.ownChains s.boot.m1 s.boot.m2
  let clear := leBytes 4 sid ++ draw 0 32 ++ fit 1568 kem.1 ++ fit 97 (Config.ecPublic (draw 2 48))
    ++ leBytes 4 (chains.length + 4 + rep.length + 4723 + 16)
  let th1 := Config.sha384 (payload ++ clear)
  let body := chains ++ leBytes 4 rep.length ++ rep ++ fit 4723 (Config.hybridSign Config.deviceKey th1)
  { id := s.nextHandshake, initiator := false, sub, peer := src, dev := 0, session := sid, randomI := rI, randomR := draw 0 32
    initPayload := payload, acceptPayload := clear ++ Config.gcmSeal (handshakeKey prk th1 true) (zeros 12) [] body, prk
    started := s.portTicks, lastSent := s.portTicks, interval := ticksOfMs 10 }

/-- SESSION_INIT (R383, R384, R386): refused at a limit, answered again when its RANDOM_I is held, or answered with
SESSION_ACCEPT after a new key agreement. -/
def doSessionInit (sub : Nat) (src : Endpoint) (payload : Bytes) (s : State) : State :=
  match s.plainTaken? 1 sub src payload with
  | none => s
  | some d =>
    if !s.portLive then s else
      let s := s.untake d
      let flags := uAt payload 0 4
      let device := bitAt flags 1
      let higher := match s.deviceAt src with
        | some i => decide (s.cfg.peers.selfIndex ≤ i)
        | none => false
      let rI := slice payload 4 32
      if payload.length != 1701 || decide (4 ≤ flags) then s.count (mwpCtr 0x408) 1
      else if device && (higher || !s.takesDevices) then s.count (mwpCtr 0x408) 1
      else match s.handshakes.find? fun h => !h.initiator && h.peer == src && h.randomI == rI with
        | some h => s.sendPlain sub src 2 h.acceptPayload
        | none =>
          if decide (1024 ≤ s.sessions.length) || decide (64 ≤ (s.handshakes.filter fun h => !h.initiator).length) then
            s.refuseHandshake sub src 0 1
          else if s.boot.service == 2 && s.fuses.owners.isEmpty then (s.count (mwpCtr 0x418) 1).refuseHandshake sub src 0 2
          else
            let h := s.answerHandshake sub src payload
            let s : State := { s with free := s.free + 4, handshakes := s.handshakes ++ [h], nextHandshake := s.nextHandshake + 1 }
            s.sendPlain sub src 2 h.acceptPayload

/-- The device opens a handshake toward a listed device (R383, R385). -/
def startHandshake (dev sub : Nat) (dst : Endpoint) (s : State) : State :=
  let a := s.random 32
  let b := a.2.random 64
  let c := b.2.random 48
  let s := c.2
  let init := leBytes 4 2 ++ a.1 ++ fit 1568 (Config.kemPublic b.1) ++ fit 97 (Config.ecPublic c.1)
  let h : Handshake := {
    id := s.nextHandshake, initiator := true, sub, peer := dst, dev, randomI := a.1, initPayload := init
    kemSecret := b.1, ecSecret := c.1, started := s.portTicks, lastSent := s.portTicks, interval := ticksOfMs 10 }
  let s : State := { s with handshakes := s.handshakes ++ [h], nextHandshake := s.nextHandshake + 1 }
  s.sendPlain sub dst 1 init

/-- A handshake is discarded with its secrets and the session it was opening (R386, R387); its device's entry, if it was
joining, is LOST (R335). -/
def discardHandshake (h : Handshake) (s : State) : State :=
  let s : State := { s with
    handshakes := s.handshakes.filter (·.id != h.id)
    sessions := s.sessions.filter fun q => q.opened || !(h.initiator && q.peer == h.peer && q.wire == h.session) }
  match s.entryOfDevice h.dev with
  | some (i, e) => if e.state == 2 && (h.initiator || e.host == some h.peer) then s.partnerGone i 4 else s
  | none => s

/-- The session of an entry that is JOINING or LIVE stands: the entry is LIVE; a twin of this device's ordering number is paired, one of
the other is counted (R335, R340, R342). -/
def entryLive (i : Nat) (d : PeerCfg) (s : State) : State :=
  let other := ((s.entry? i).map (·.otherPart)).getD false
  let s := s.setEntry i fun e => { e with state := 3, since := s.portTicks }
  if d.role == 1 && s.isTwinPartner d.index && bitAt s.fns.running 7 then
    if other then s.count (mwpCtr 0x438) 1 else s.pairOpens
  else s

/-- A session with a listed device opens (R335): the entry holds it. An entry that is JOINING or LIVE is LIVE under it; any other waits
for the matching hello that makes it JOINING. -/
def deviceJoins (sid : Nat) (d : PeerCfg) (isA : Bool) (s : State) : State :=
  match s.entryOfDevice d.index with
  | none => s
  | some (i, e) =>
    let replaced := e.session != 0 && e.session != sid
    let s := if replaced then s.dropSession e.session else s
    let s := if replaced && s.isTwinPartner d.index then s.enterAlone else s
    let s := s.setEntry i fun e => { e with
      session := sid, lastHeard := s.portTicks, rtt := 0, heardOn := [], sentAt := [], otherPart := isA != (s.fuses.part == .a) }
    if e.state == 2 || e.state == 3 then s.entryLive i d else s

/-- A local number for a session: its id on the wire, unless another session here has it. -/
def localId (s : State) (wire : Nat) : Nat :=
  if s.sessions.any (·.id == wire) then
    ((List.range (s.sessions.length + 1)).map (2 ^ 32 + ·)).find? (fun i => !(s.sessions.any (·.id == i))) |>.getD 0
  else wire

/-- The PRK that an ACCEPT leads its initiator to (R384). -/
def acceptPrk (h : Handshake) (payload : Bytes) : Bytes :=
  handshakePrk h.randomI (slice payload 4 32) (Config.kemDecaps h.kemSecret (slice payload 36 1568))
    (Config.ecdh h.ecSecret (slice payload 1604 97))

/-- The listed device that an ACCEPT proves itself to come from, and whether it is of part A (R381, R383 to R385): its lengths add up,
its sealed part opens, its chains verify, its key is the listed one, its signature verifies. -/
def acceptedBy (s : State) (h : Handshake) (payload : Bytes) : Option (PeerCfg × Bool) :=
  let th1 := Config.sha384 (h.initPayload ++ payload.take acceptClear)
  let ok := payload.length == acceptClear + uAt payload 1701 4 && uAt payload 0 4 != 0
  let body := if ok then
      (Config.gcmOpen (handshakeKey (acceptPrk h payload) th1 true) (zeros 12) [] (payload.drop acceptClear)).bind acceptBody
    else none
  match body, s.cfg.peers.devices.find? (·.index == h.dev) with
  | some b, some p => (match Config.chainVerify b.chains with
    | some (key, isA, _) =>
      if b.report == [] && Config.sha384 key == p.digest && Config.hybridVerify key th1 b.sig then some (p, isA) else none
    | none => none)
  | _, _ => none

/-- The CONFIRM that answers an ACCEPT (R383, R384): the device's key and its signature over the handshake, sealed. -/
def confirmFor (h : Handshake) (payload : Bytes) : Bytes :=
  let th1 := Config.sha384 (h.initPayload ++ payload.take acceptClear)
  let cclear := payload.take 4 ++ h.randomI ++ leBytes 4 (4 + 2689 + 4723 + 16)
  let th2 := Config.sha384 (h.initPayload ++ payload ++ cclear)
  let sealedBody := leBytes 4 1 ++ fit 2689 Config.deviceKey ++ fit 4723 (Config.hybridSign Config.deviceKey th2)
  cclear ++ Config.gcmSeal (handshakeKey (acceptPrk h payload) th1 false) (zeros 12) [] sealedBody

/-- An initiator's handshake once its ACCEPT has proved the listed device: it waits for the first ACK, and keeps its CONFIRM. -/
def acceptedHandshake (h : Handshake) (payload : Bytes) (isA : Bool) (now : Nat) : Handshake :=
  { h with
    session := uAt payload 0 4, randomR := slice payload 4 32, acceptPayload := payload, confirmPayload := confirmFor h payload
    kemSecret := [], ecSecret := [], prk := acceptPrk h payload, started := now, lastSent := now, interval := ticksOfMs 10, partnerA := isA }

/-- The session that an accepted handshake opens when its first ACK comes (R384, R385). -/
def openingSession (h : Handshake) (id sub : Nat) (payload : Bytes) (d : PeerCfg) (now : Nat) : Session :=
  { id, wire := uAt payload 0 4, peer := h.peer, sub, weInitiated := true, host := false, perms := 0, dev := d.index, role := d.role + 1
    prk := acceptPrk h payload, th2 := Config.sha384 (h.initPayload ++ payload ++ (confirmFor h payload).take confirmClear)
    lastHeard := now, opened := false, windowAt := now }

/-- SESSION_ACCEPT (R383 to R385): the initiator verifies chains, identity and signature, and answers SESSION_CONFIRM. -/
def doSessionAccept (sub : Nat) (src : Endpoint) (payload : Bytes) (s : State) : State :=
  match s.plainTaken? 2 sub src payload with
  | none => s
  | some d =>
    if !s.portLive then s else
      let s := s.untake d
      match s.handshakes.find? fun h => h.initiator && h.peer == src && h.acceptPayload == [] with
      | none => s
      | some h =>
        match s.acceptedBy h payload with
        | none => (s.count (mwpCtr 0x418) 1).discardHandshake h
        | some (p, isA) =>
          let h' := acceptedHandshake h payload isA s.portTicks
          let q := openingSession h (s.localId (uAt payload 0 4)) sub payload p s.portTicks
          let s : State := { s with handshakes := s.handshakes.map (fun x => if x.id == h.id then h' else x), sessions := s.sessions ++ [q] }
          s.sendPlain sub src 3 (confirmFor h payload)

/-- What the sealed part of a CONFIRM proves (R381, R386, R401), or none. -/
def provenBy (s : State) (device : Bool) (th2 body : Bytes) : Option Proven :=
  let rest := body.drop 4
  let key := rest.take 2689
  if uAt body 0 4 == 0 && !device && body.length == 4 + 7420 + 4723 then
    let perms := uAt rest 2689 4
    let epoch := uAt rest 2693 4
    let recovery := s.boot.service == 2
    match s.enrolledKey with
    | none => none
    | some owner =>
      if Config.hybridVerify owner (Config.sha384 (rest.take 2697)) (slice rest 2697 4723) && decide (perms < 32)
          && (recovery || decide (s.cfg.security.minEpoch ≤ epoch)) && (!recovery || bitAt perms 4)
          && Config.hybridVerify key th2 (rest.drop 7420) then some (.host perms) else none
  else if uAt body 0 4 == 1 && device && body.length == 4 + 2689 + 4723 then
    match s.cfg.peers.devices.find? fun d => d.digest == Config.sha384 key with
    | none => none
    | some d =>
      if s.takesDevices && decide (d.index < s.cfg.peers.selfIndex) && Config.hybridVerify key th2 (rest.drop 2689) then
        some (.device d key) else none
  else none

/-- What a CONFIRM proves in its handshake (R383, R386), or none. -/
def confirmedBy (s : State) (h : Handshake) (payload : Bytes) : Option Proven :=
  let th1 := Config.sha384 (h.initPayload ++ h.acceptPayload.take acceptClear)
  let th2 := Config.sha384 (h.initPayload ++ h.acceptPayload ++ payload.take confirmClear)
  if payload.length == confirmClear + uAt payload 36 4 && slice payload 4 32 == h.randomI then
    (Config.gcmOpen (handshakeKey h.prk th1 false) (zeros 12) [] (payload.drop confirmClear)).bind
      (s.provenBy (bitAt (uAt h.initPayload 0 4) 1) th2)
  else none

/-- The session that a proven CONFIRM opens, before what it proved is entered (R384). -/
def confirmedSession (h : Handshake) (sub : Nat) (payload : Bytes) (now : Nat) : Session :=
  { id := h.session, wire := h.session, peer := h.peer, sub, weInitiated := false, host := true, perms := 0, dev := 0, role := 0
    prk := h.prk, th2 := Config.sha384 (h.initPayload ++ h.acceptPayload ++ payload.take confirmClear), lastHeard := now, windowAt := now }

/-- SESSION_CONFIRM (R386): the session opens, and its first sealed datagram is an ACK message with SEQ 1 (R385); or the
handshake is discarded, counted and closed with REASON 2. -/
def doSessionConfirm (sub : Nat) (src : Endpoint) (payload : Bytes) (s : State) : State :=
  match s.plainTaken? 3 sub src payload with
  | none => s
  | some d =>
    if !s.portLive then s else
      let s := s.untake d
      match s.handshakes.find? fun h => !h.initiator && h.peer == src && h.session == uAt payload 0 4 with
      | none => s
      | some h =>
        let proven := s.confirmedBy h payload
        let s : State := { s with handshakes := s.handshakes.filter (·.id != h.id) }
        let q := confirmedSession h sub payload s.portTicks
        if decide (1024 ≤ s.sessions.length) && proven.isSome then s.refuseHandshake sub src h.session 1
        else match proven with
        | none =>
          let s := (s.count (mwpCtr 0x418) 1).refuseHandshake sub src h.session 2
          match s.deviceAt src with
          | some dev => s.discardHandshake { h with dev }
          | none => s
        | some (.host perms) =>
          let s : State := { s with
            sessions := s.sessions ++ [{ q with perms }]
            peers := s.peers.map fun p =>
              if p.2.role == 0 && p.2.host == some src && p.2.state != 0 then
                (p.1, { p.2 with session := h.session, state := if p.2.state == 2 then 3 else p.2.state })
              else p }
          s.sendAck h.session
        | some (.device p key) =>
          let s : State := { s with sessions := s.sessions ++ [{ q with host := false, dev := p.index, role := p.role + 1 }] }
          (s.sendAck h.session).deviceJoins h.session p (Config.keyIsA key)

/-- SESSION_CLOSE (R351, R386): within its session it ends the session; outside one it refuses a handshake. -/
def doSessionClose (src : Endpoint) (sid : Nat) (payload : Bytes) (s : State) : State :=
  match s.delivered.find? fun d => d.session == sid && d.type == 4 && d.src == src && d.frags.flatten == payload with
  | none => s
  | some d =>
    let s := s.untake d
    if !s.portLive || payload.length != 8 then s
    else if sid == 0 then
      match s.handshakes.find? fun h => h.peer == src && (h.session == uAt payload 0 4 || h.initiator) with
      | some h => s.discardHandshake h
      | none => s
    else match s.session? sid with
      | some q => if uAt payload 0 4 == q.wire then s.dropSession sid else s
      | none => s

/-- HANDSHAKE_RESEND (R386): the last handshake message leaves again, unchanged, and its interval doubles up to 1 s. -/
def doHandshakeResend (i : Nat) (s : State) : State :=
  match s.handshakes.find? fun h => h.id == i && h.initiator with
  | none => s
  | some h =>
    let s := s.atLeast (h.lastSent + h.interval)
    let h' : Handshake := { h with lastSent := s.portTicks, interval := min (2 * h.interval) (ticksOfMs 1000) }
    let s : State := { s with handshakes := s.handshakes.map fun x => if x.id == i then h' else x }
    if h.confirmPayload == [] then s.sendPlain h.sub h.peer 1 h.initPayload else s.sendPlain h.sub h.peer 3 h.confirmPayload

/-- HANDSHAKE_TIMEOUT (R386): its next message has not arrived within 2 s. -/
def doHandshakeTimeout (i : Nat) (s : State) : State :=
  match s.handshakes.find? (·.id == i) with
  | none => s
  | some h => (s.atLeast (h.started + ticksOfMs 2000)).discardHandshake h

/-- CLOSE_ACK_TIMEOUT (R351). -/
def doCloseAckTimeout (sid : Nat) (s : State) : State :=
  match (s.session? sid).bind (·.closing) with
  | some (t, _) => (s.atLeast (t + ticksOfMs 2000)).dropSession sid
  | none => s

/-- ACK (R352, R385): the first one from a responder opens the session for its initiator. -/
def doAck (m : Msg) (s : State) : State :=
  match s.taken? 5 m, s.session? m.session with
  | some d, some q =>
    if !s.portLive then s else
      let s := s.untake d
      let s := if q.opened then s else
        let s := s.withSession q.id fun q => { q with opened := true }
        match s.handshakes.find? fun h => h.initiator && h.peer == q.peer && h.session == q.wire,
            s.cfg.peers.devices.find? (·.index == q.dev) with
        | some h, some p =>
          let s : State := { s with handshakes := s.handshakes.filter (·.id != h.id) }
          s.deviceJoins q.id p h.partnerA
        | _, _ => s
      s.ackEffect m
  | _, _ => s

end State
end Sys2Proof.Machine
end

