-- ==== Sys2Proof/Machine/Durable.lean ====
section
/-! DEFINITION. What every durable write shares: its object and order token (R343), remembered outcomes (R345), mirroring
(R343, R344, R370), its reply (R358), tenant blobs (R391, R392), and background zeroing (R394). -/

namespace Sys2Proof.Machine

/-- Kind (R380) and id of the object that a durable write changes (R343, R363, R364). -/
def writeObject (type : Nat) (p : Bytes) : Nat × Nat :=
  match type with
  | 0x20 => let x := uAt p 24 4; (if bitAt x 9 then 6 else 5, fld x 8 0)
  | 0x21 => let x := uAt p 12 4; (if bitAt x 9 then 6 else 5, fld x 8 0)
  | 0x22 => let x := uAt p 12 4; (if bitAt x 9 then 6 else 5, fld x 8 0)
  | 0x23 => (8, uAt p 20 4 % 512)
  | 0x28 => (7, uAt p 8 4 % 16)
  | 0x29 => (7, uAt p 8 4 % 16)
  | 0x30 => (2, fld (uAt p 0 32) 127 118)
  | 0x31 => (1, fld (uAt p 0 32) 127 118)
  | 0x32 => (3, fld (uAt p 0 32) 127 118)
  | _ => (4, fld (uAt p 0 32) 127 118)

/-- The session that stands for the partner: in a write that a MIRROR brought, whose `msgId` is its mirror sequence, and in one
that a syncing partner forwarded, whose `msgId` is 0. -/
def mirrorSession : Nat := 0
/-- A MIRROR brought the write, with the values the partner gave it (R343). -/
def Write.brought (w : Write) : Bool := w.session == mirrorSession && w.msgId != 0
/-- The partner forwarded the write while it catches up (R342). -/
def Write.fromSyncing (w : Write) : Bool := w.session == mirrorSession && w.msgId == 0

namespace State

/-- A TWIN message to the partner (R370). -/
def sendTwin (op kind obj seq wid : Nat) (body : Bytes) (s : State) : State :=
  match s.sessionOfDevice s.cfg.twin.partner with
  | some sid => s.sendMessage sid 0x78 0 false (record 32 [(0, op), (8, kind), (16, obj), (32, seq), (96, wid)] ++ body)
  | none => s

/-- This twin holds an object's order token (R343): TWIN_A holds every token at pairing; alone, a twin holds them all. -/
def holdsToken (s : State) (kind obj : Nat) : Bool :=
  s.twin.state != 2 || ((s.cfg.twin.role == 1) != s.twin.moved.contains (kind, obj))

/-- The outcomes of the last 65,536 WRITE_IDs are remembered by each twin (R345). -/
def remember (wid : Nat) (o : Outcome) (s : State) : State :=
  if s.cfg.twin.role = 0 then s else { s with twin := { s.twin with outcomes := ((wid, o) :: s.twin.outcomes).take 65536 } }

/-- An applied write goes to the partner with the values it was given (R343); `wait` when its host waits for the partner too. -/
def mirrorWrite (w : Write) (o : Outcome) (assigned : Bytes) (wait : Bool) (s : State) : State :=
  let seq := s.twin.mirrorOut
  let w' := if wait then w else { w with session := 0 }
  let s : State := { s with twin := { s.twin with mirrorOut := seq + 1, mirrored := s.twin.mirrored ++ [(seq, w', o)] } }
  s.sendTwin 3 w.kind w.obj seq w.writeId (w.payload ++ assigned)

/-- An object waits to be copied to the partner (R342): writes to it go with its copy. -/
def copyDue (s : State) (w : Write) : Bool := s.twin.syncTodo.any fun t => (t.1 == w.kind || t.1 == w.kind + 16) && t.2.1 == w.obj

/-- The answer APPLIED to a write that the partner sent (R370). -/
def sendApplied (w : Write) (o : Outcome) (s : State) : State :=
  s.sendTwin 4 w.kind w.obj w.msgId w.writeId (leBytes 2 o.status ++ leBytes 2 o.reason)

/-- The host whose write this twin forwarded is answered (R342, R344). -/
def answerForwarded (wid : Nat) (o : Outcome) (s : State) : State :=
  let hs := s.twin.forwarded.filter (·.writeId == wid)
  let s : State := { s with twin := { s.twin with forwarded := s.twin.forwarded.filter (·.writeId != wid) } }
  hs.foldl (fun (s : State) h => s.endWrite h o) s

/-- The application of a durable write has ended (R344, R345, R358, R378): a write brought by the partner is answered
APPLIED; one of a host is mirrored while the pair stands, and answered when both have applied it. While this twin catches its
partner up, writes are answered at once and mirrored after the copy of their object (R342). -/
def answerWrite (w : Write) (o : Outcome) (assigned : Bytes) (mirror : Bool) (s : State) : State :=
  let s := s.remember w.writeId o
  let s := if o.status = 0 then s.extendM3 1 w.payload else s
  if w.brought then (s.sendApplied w o).answerForwarded w.writeId o
  else
    let goes := mirror && o.status == 0 && s.cfg.twin.role != 0
    if goes && s.twin.state == 2 then
      let s := s.mirrorWrite w o assigned true
      if w.fromSyncing then s.sendApplied w o else s
    else
      let s := if goes && s.twin.syncing && !(s.copyDue w) then s.mirrorWrite w o assigned false else s
      if w.fromSyncing then s.sendApplied w o else s.endWrite w o

/-- A write to a table version, or a hot set, whose application has begun and not ended. -/
def tableWaits (s : State) (f : Write → Bool) : Bool :=
  s.tables.any (fun v => v.waiting.any f)
  || s.tableRuns.any fun r => r.waiting.any f || (r.installing.map Prod.fst).any f

/-- A write whose application has begun and not ended (R358). -/
def writePending (s : State) (wid : Nat) : Bool :=
  let f := fun (w : Write) => w.writeId == wid
  s.twin.mirrored.any (fun m => m.2.1.session != 0 && f m.2.1) || s.twin.waiting.any f || s.twin.forwarded.any f
  || s.removals.any (fun r => f r.1) || s.tableWaits f || s.loads.any fun l => (l.final.map Prod.fst).any f

/-- A durable write is being applied: it waits for copies, an install, zeroing or the partner (R396). -/
def writesApplying (s : State) : Bool :=
  s.twin.mirrored.any (fun m => m.2.1.session != mirrorSession) || !s.removals.isEmpty || s.tableWaits fun _ => true

/-- A background slot zeroises one range that awaits it (R394); a removal whose ranges are all zero is answered. -/
def doBgZeroise (s : State) : State :=
  match s.zeroing with
  | [] => s
  | r :: rest =>
    let s : State := { s with zeroing := rest, mem := Memory.clear s.mem r.1 r.2 }
    let rem := s.removals.map fun x => (x.1, x.2.filter (· != r))
    let done := rem.filter (·.2.isEmpty)
    let s : State := { s with removals := rem.filter (!·.2.isEmpty) }
    done.foldl (fun s x => s.answerWrite x.1 {} [] true) s

-- Tenant blobs (R391, R392)

/-- Bytes of a blob's header. -/
def blobHead : Nat := 1792

/-- The plaintext of a tenant blob: refused MALFORMED when its layout breaks R391, AUTH by R392. -/
def openBlob (s : State) (kind id version : Nat) (blob : Bytes) : Except Outcome Bytes :=
  let n := uAt blob 16 8
  let segs := ceilDiv n 1048576
  if uAt blob 0 4 != 0x424F4C42 || uAt blob 4 2 != 1 || !(allZero (slice blob 1737 55)) || blob.length != blobHead + n + 16 * segs then
    .error refMalformed
  else if uAt blob 6 2 != kind || uAt blob 8 4 != id || uAt blob 12 4 != version || slice blob 24 48 != fit 48 ownDigest then .error refAuth
  else
    let shared := Config.kemDecaps s.wrapPair.1 (slice blob 72 1568) ++ Config.ecdh s.wrapPair.2 (slice blob 1640 97)
    let key := Config.hkdfExpand (Config.hkdfExtract (slice blob 24 48) shared) (lblBlob ++ blob.take 24) 32
    let body := blob.drop blobHead
    let parts := (List.range segs).map fun j =>
      Config.gcmOpen key (leBytes 12 j) (blob.take 24) (slice body (j * 1048592) (min 1048576 (n - j * 1048576) + 16))
    if parts.all (·.isSome) then .ok (parts.flatMap fun p => p.getD []) else .error refAuth

end State
end Sys2Proof.Machine
end

