-- ==== Sys2Proof/Machine/Bolter.lean ====
section
/-! DEFINITION. The Bolter (R167 to R181, R187, R189): keys, candidate order, lists, and every selection, sort and merge as
a function of its inputs. -/

namespace Sys2Proof.Machine

-- Keys (R167, R168)

/-- A score type's input is floating. -/
def scoreFloat (ty : Nat) : Bool := ty ≤ 3 || ty == 9 || ty == 10
/-- Lower scores are better. -/
def scoreLow (ty : Nat) : Bool := ty == 1 || ty == 3 || ty == 5 || ty == 7 || ty == 10
/-- Bytes of one score. -/
def scoreBytes (ty : Nat) : Nat := if ty == 2 || ty == 3 || ty == 9 || ty == 10 then 2 else 4

/-- h(f) of R167. -/
def orderKey (f : W32) : Nat :=
  let f := if f == 0x80000000#32 then 0#32 else f
  if f.msb then (~~~f).toNat else (f ||| 0x80000000#32).toNat

/-- A raw score as the 32 bits that an entry keeps: FP32 for floating types, the raw bits otherwise (R169). -/
def scoreOf (ty raw : Nat) : W32 :=
  if ty == 2 || ty == 3 then bf16ToF32 raw
  else if ty == 9 || ty == 10 then toF32From fp16 raw
  else BitVec.ofNat 32 raw

/-- The key of a score; none for a NaN (R167, R168). -/
def keyOf (ty : Nat) (score : W32) : Option Nat :=
  if scoreFloat ty then
    if f32IsNaN score then none
    else some (if scoreLow ty then 0xFFFFFFFF - orderKey score else orderKey score)
  else some (match ty with
    | 4 => (score ^^^ 0x80000000#32).toNat
    | 5 => (score ^^^ 0x7FFFFFFF#32).toNat
    | 7 => (~~~score).toNat
    | _ => score.toNat)

/-- The score whose key is given, by inverting R167 (R176). -/
def unkey (ty key : Nat) : W32 :=
  let k : W32 := BitVec.ofNat 32 key
  if scoreFloat ty then
    let h := if scoreLow ty then ~~~k else k
    if h.msb then h &&& 0x7FFFFFFF#32 else ~~~h
  else match ty with
    | 4 => k ^^^ 0x80000000#32
    | 5 => k ^^^ 0x7FFFFFFF#32
    | 7 => ~~~k
    | _ => k

/-- The worst score of a type (R171). -/
def worstScore (ty : Nat) : W32 :=
  if scoreFloat ty then (if scoreLow ty then 0x7F800000#32 else 0xFF800000#32)
  else match ty with
    | 4 => 0x80000000#32
    | 5 => 0x7FFFFFFF#32
    | 7 => 0xFFFFFFFF#32
    | _ => 0

-- Lists (R169 to R172)

/-- A list: its K, score type, valid entries in candidate order, and the header's counts and flags. -/
structure SelList where
  k : Nat
  type : Nat
  cands : List Cand
  tieLeft : Nat := 0
  nans : Nat := 0
  dups : Nat := 0
  flags : Nat := 0
  deriving DecidableEq, Repr

/-- Result flags (R372). -/
def flTie : Nat := 4
def flShort : Nat := 8
def flDup : Nat := 16
def flPartial : Nat := 32
def flNan : Nat := 256

/-- Candidate order (R170): descending key, ascending id; equals keep their order. -/
def candLe (a b : Cand) : Bool := decide (b.key < a.key) || (a.key == b.key && decide (a.id ≤ b.id))
def candSort (l : List Cand) : List Cand := sortBy candLe l

/-- The key of the last valid entry; 0 for none. -/
def SelList.lastKey (l : SelList) : Nat := (l.cands.getLast?.map (·.key)).getD 0

/-- Entry fields. -/
def Cand.side (c : Cand) : Bool := bitAt c.src 63
def Cand.stamp (c : Cand) : Nat := fld c.src 47 0
def Cand.dev (c : Cand) : Nat := fld c.src 55 48

def candEncode (c : Cand) : Bytes := leBytes 8 c.src ++ leBytes 4 c.score ++ leBytes 4 c.key ++ leBytes 8 c.id
def candDecode (bs : Bytes) : Cand := { src := uAt bs 0 8, score := uAt bs 8 4, key := uAt bs 12 4, id := uAt bs 16 8 }

/-- A filler entry (R171). -/
def filler (ty : Nat) : Cand := { id := 2 ^ 64 - 1, key := 0, score := (worstScore ty).toNat }

/-- The header of a list (R169). -/
def listHeader (l : SelList) : Bytes :=
  record 32 [(0, 0x5453494C), (32, l.type), (64, l.flags), (80, satTo 16 l.tieLeft), (96, l.k), (128, l.cands.length), (160, l.lastKey),
    (192, satTo 32 l.nans), (224, satTo 32 l.dups)]

/-- A list as written: header, valid entries, filler up to K. -/
def listBytes (l : SelList) : Bytes :=
  listHeader l ++ (l.cands ++ List.replicate (l.k - l.cands.length) (filler l.type)).flatMap candEncode

/-- A list as read (R180): the first COUNT entries. -/
def listRead (bs : Bytes) : SelList :=
  let h := leNat (bs.take 32)
  { k := fld h 127 96, type := fld h 35 32
    cands := (chunks 24 (slice bs 32 (24 * fld h 159 128))).map candDecode
    tieLeft := fld h 95 80, nans := fld h 223 192, dups := fld h 255 224, flags := fld h 79 64 }

/-- The best k of some entries that stand in source order: kept in candidate order with the ties left out (R170, R172). -/
def selectBest (k : Nat) (cs : List Cand) : List Cand × Nat :=
  let all := candSort cs
  let kept := all.take k
  let last := (kept.getLast?.map (·.key)).getD 0
  (kept, ((all.drop k).filter (·.key == last)).length)

/-- The scores of a list as candidates in source order, and how many are NaN. `ids` and `srcs` stand beside the scores. -/
def candidates (ty : Nat) (raw ids srcs : List Nat) : List Cand × Nat :=
  let cs := raw.zipIdx.map fun (r, i) => (keyOf ty (scoreOf ty r)).map fun key =>
    ({ id := ids.getD i i, key, score := (scoreOf ty r).toNat, src := srcs.getD i 0 } : Cand)
  (cs.filterMap id, (cs.filter Option.isNone).length)

/-- TOPK of one list (R175). -/
def topkList (k ty : Nat) (raw ids srcs : List Nat) : SelList :=
  let c := candidates ty raw ids srcs
  let b := selectBest k c.1
  { k, type := ty, cands := b.1, tieLeft := b.2, nans := c.2
    flags := (if b.2 = 0 then 0 else flTie) + (if c.1.length < k then flShort else 0) + (if c.2 = 0 then 0 else flNan) }

/-- KTH of one list: its record, SHORT, NAN_SEEN (R176). -/
def kthRecord (k ty : Nat) (raw : List Nat) : Bytes × Bool × Bool :=
  let c := candidates ty raw [] []
  let keys := c.1.map (·.key)
  match (candSort c.1)[k - 1]? with
  | some x => (leBytes 4 x.key ++ leBytes 4 (unkey ty x.key).toNat ++ leBytes 4 (keys.filter fun n => decide (x.key < n)).length
      ++ leBytes 4 (keys.filter (· == x.key)).length, false, c.2 != 0)
  | none => (leBytes 4 0 ++ leBytes 4 (worstScore ty).toNat ++ leBytes 4 keys.length ++ leBytes 4 0, true, c.2 != 0)

/-- ARGMAX of one list: its record, SHORT, NAN_SEEN (R177). -/
def argmaxRecord (ty : Nat) (raw : List Nat) : Bytes × Bool × Bool :=
  let c := candidates ty raw [] []
  match candSort c.1 with
  | x :: _ => (leBytes 8 x.id ++ leBytes 4 x.key ++ leBytes 4 x.score, false, c.2 != 0)
  | [] => (leBytes 8 (2 ^ 64 - 1) ++ leBytes 4 0 ++ leBytes 4 (worstScore ty).toNat, true, c.2 != 0)

/-- SORT (R178): records of 16 bytes by ascending key, stable. -/
def sortRecords (kv : List (Nat × Nat)) : Bytes :=
  (sortBy (fun (a b : Nat × Nat) => decide (a.1 ≤ b.1)) kv).flatMap fun p => leBytes 4 p.1 ++ zeros 4 ++ leBytes 8 p.2

/-- Byte `j` of a number, 0 the lowest. -/
def byteOf (n j : Nat) : Nat := n / 256 ^ j % 256

/-- Counts of byte `j` among numbers whose higher bytes equal those of the prefix. -/
def binsOf (j pre : Nat) (ns : List Nat) : List Nat :=
  (List.range 256).map fun b => (ns.filter fun n => n / 256 ^ (j + 1) == pre / 256 ^ (j + 1) && byteOf n j == b).length

/-- HIST (R179). -/
def histBytes (pass pre : Nat) (keys : List Nat) : Bytes := (binsOf (3 - pass) (pre % 2 ^ 32) keys).flatMap fun n => leBytes 4 (satTo 32 n)

-- Duplicates and merging (R173, R180)

/-- One copy wins over another of the same id (R173, tests 1 to 4); equals keep the earlier. -/
def dupWins (a b : Cand) : Bool :=
  if a.side != b.side then a.side
  else if a.stamp != b.stamp then decide (b.stamp < a.stamp)
  else if a.key != b.key then decide (b.key < a.key)
  else decide (a.dev < b.dev)

/-- One copy of each id is kept; the number removed. Entries come in input order, then position. -/
def dedup (cs : List Cand) : List Cand × Nat :=
  let kept := cs.foldl (fun (acc : List Cand) c =>
    match acc.find? (·.id == c.id) with
    | some x => if dupWins c x then c :: acc.filter (·.id != c.id) else acc
    | none => c :: acc) []
  (kept, cs.length - kept.length)

/-- MERGE (R180). -/
def mergeLists (k ty : Nat) (ins : List SelList) : SelList :=
  let d := dedup (ins.flatMap (·.cands))
  let b := selectBest k d.1
  let last := (b.1.getLast?.map (·.key)).getD 0
  let tie := b.2 + ((ins.filter fun l => l.cands.length != 0 && l.lastKey == last).map (·.tieLeft)).sum
  let dups := (ins.map (·.dups)).sum + d.2
  let kept := fun (f : Nat) => if ins.any fun l => l.flags &&& f != 0 then f else 0
  { k, type := ty, cands := b.1, tieLeft := satTo 16 tie, nans := satTo 32 (ins.map (·.nans)).sum, dups := satTo 32 dups
    flags := (if tie = 0 then 0 else flTie) + (if b.1.length < k then flShort else 0) + (if d.2 = 0 then kept flDup else flDup)
      + kept flPartial + kept flNan }

-- The rounds of a selection collective (R189)

/-- What a member counts in a round: its valid keys (rounds 1 to 4), or the ids of the keys equal to K* (rounds 5 to 12). -/
def roundBins (d : Decision) (cs : List Cand) : List Nat :=
  if d.round ≤ 4 then binsOf (4 - d.round) d.key (cs.map (·.key))
  else binsOf (12 - d.round) d.id ((cs.filter (·.key == d.key)).map (·.id))

/-- Entries that a final decision selects, in source order. -/
def decided (d : Decision) (cs : List Cand) : List Cand :=
  match d.kind with
  | 1 => cs
  | 2 => cs.filter fun c => decide (d.key ≤ c.key)
  | _ => cs.filter fun c => decide (d.key < c.key) || (c.key == d.key && decide (c.id ≤ d.id))

/-- The first bin of a scan where the running count reaches `need`, and what came before it. -/
def scanBins (need : Nat) : List (Nat × Nat) → Nat → Nat × Nat × Nat
  | [], acc => (0, acc, 0)
  | (b, n) :: r, acc => if need ≤ acc + n || r.isEmpty then (b, acc, n) else scanBins need r (acc + n)

/-- The root's decision on a round's sums, and the count certainly kept afterwards. -/
def decide' (k : Nat) (d : Decision) (bins : List Nat) (valid certain : Nat) : Decision × Nat :=
  let at' := bins.zipIdx.map fun (n, b) => (b, n)
  if d.round = 1 && decide (valid < k) then ({ kind := 1, round := 13 }, valid)
  else if d.round ≤ 4 then
    let r := scanBins (k - certain) at'.reverse 0
    let key := d.key + r.1 * 256 ^ (4 - d.round)
    let g := certain + r.2.1
    if g + r.2.2 = k then ({ kind := 2, round := 13, key }, k)
    else ({ kind := 0, round := d.round + 1, key, tie := if d.round = 4 then r.2.2 - (k - g) else 0 }, g)
  else
    let r := scanBins (k - certain) at' 0
    let id := d.id + r.1 * 256 ^ (12 - d.round)
    let g := certain + r.2.1
    if g + r.2.2 = k || d.round = 12 then ({ d with kind := 3, round := 13, id := id + (256 ^ (12 - d.round) - 1) }, g)
    else ({ d with round := d.round + 1, id }, g)

/-- The list that member 0 writes (R189): the entries by member, best k, ties left out from the decision. `partial'` says that
a peer was lost, `full` how many entries there should be. -/
def groupList (k ty : Nat) (d : Decision) (nans : Nat) (partial' : Bool) (cs : List Cand) : SelList :=
  let kept := (candSort cs).take k
  { k, type := ty, cands := kept, tieLeft := satTo 16 d.tie, nans
    flags := (if d.tie = 0 then 0 else flTie) + (if kept.length < k then flShort else 0) + (if nans = 0 then 0 else flNan)
      + (if partial' then flPartial else 0) }

end Sys2Proof.Machine
end

