-- ==== Sys2Proof/Machine/Plans.lean ====
section
/-! DEFINITION. Plan images (R107 to R112): reading one, and the checks of `LOAD_PLAN` in the order of R114. -/

namespace Sys2Proof.Machine

-- The header (R107)

/-- The plan header's fields that the checks name; `h` is the 512-bit header. -/
def phScratchDev (h : Nat) : Nat := fld h 447 400
def phScratch (h : Nat) : Nat := fld h 399 352
def phOffRegions (h : Nat) : Nat := fld h 351 320
def phOffConst (h : Nat) : Nat := fld h 319 288
def phOffDesc (h : Nat) : Nat := fld h 287 256
def phOffWi (h : Nat) : Nat := fld h 255 224
def phOffStages (h : Nat) : Nat := fld h 223 192
def phConstBytes (h : Nat) : Nat := fld h 191 160
def phRegions (h : Nat) : Nat := fld h 159 144
def phDescs (h : Nat) : Nat := fld h 143 128
def phItems (h : Nat) : Nat := fld h 127 112
def phStages (h : Nat) : Nat := fld h 111 96
def phBytes (h : Nat) : Nat := fld h 95 64
def phId (h : Nat) : Nat := fld h 63 48

/-- The sections that a header locates: offset and bytes. -/
def planSections (h : Nat) : List (Nat × Nat) :=
  [(phOffStages h, 32 * phStages h), (phOffWi h, 128 * phItems h), (phOffDesc h, 64 * phDescs h),
   (phOffConst h, phConstBytes h), (phOffRegions h, 16 * phRegions h)]

/-- No two of some ranges meet; empty ranges meet nothing. -/
def disjoint : List (Nat × Nat) → Bool
  | [] => true
  | r :: rest => rest.all (fun q => r.2 == 0 || q.2 == 0 || !(State.meets r.1 r.2 q.1 q.2)) && disjoint rest

/-- The header check of R107 for an image of `total` bytes loaded under an id. -/
def planHeaderOk (h id total : Nat) : Bool :=
  fld h 31 0 == 0x4E414C50 && fld h 47 32 == 1 && fld h 511 448 == 0 && phId h == id && decide (phId h ≤ 255)
  && phBytes h == total && decide (phBytes h ≤ 268435456)
  && inRange 1 512 (phStages h) && decide (1 ≤ phItems h) && decide (1 ≤ phDescs h) && decide (phRegions h ≤ 1024)
  && (planSections h).all (fun r => r.1 % 128 == 0 && decide (r.1 + r.2 ≤ phBytes h))
  && disjoint ((0, 64) :: planSections h)
  && phScratch h % 128 == 0 && phScratchDev h % 128 == 0 && decide (phScratchDev h ≤ phScratch h)

/-- Records of `k` bytes from an offset of an image, as numbers. -/
def recordsAt (img : Bytes) (off k n : Nat) : List Nat :=
  let part := img.drop off
  (List.range n).map fun i => uAt part (k * i) k

-- Region marks (R112)

def rmMark (r : Nat) : Nat := fld r 100 99
def rmBaseSrc (r : Nat) : Nat := fld r 98 96
def rmLength (r : Nat) : Nat := fld r 95 48
def rmOffset (r : Nat) : Nat := fld r 47 0

/-- The range that a region mark names, as far as the load knows it: the class of ranges that share a base, its start and its length. An
absolute range and one of the constants section are both known; `const` is where that section stands (R102, R112). -/
def regionRange (const r : Nat) : Nat × Nat × Nat :=
  if rmBaseSrc r = 2 then (0, const + rmOffset r, rmLength r) else (rmBaseSrc r, rmOffset r, rmLength r)

/-- The first region mark that breaks R112: reserved codes, alignment, or overlap with an earlier mark. -/
def regionFault (const : Nat) (rs : List Nat) : Option Nat :=
  rs.zipIdx.findSome? fun (r, i) =>
    let a := regionRange const r
    if fld r 127 101 != 0 || rmMark r == 3 || decide (4 < rmBaseSrc r) || rmLength r % 128 != 0 || rmOffset r % 128 != 0
        || (rs.take i).any (fun q => let b := regionRange const q; b.1 == a.1 && State.meets b.2.1 b.2.2 a.2.1 a.2.2)
    then some i else none

-- Stages (R108, R109, R250)

def stageOfEntry (e : Nat) : Stage :=
  { kind := fld e 2 0, repeats := bitAt e 3, preds := [fld e 16 8, fld e 25 17, fld e 34 26, fld e 43 35].filter (· != 0x1FF)
    wiFirst := fld e 63 48, wiCount := fld e 79 64, cycles := fld e 111 80, footprint := fld e 178 160
    minCols := fld e 199 192, object := fld e 215 200 }

/-- A stage object code that is not reserved and lies in its kind's range (R109, R250). -/
def objectOk (stores : List Nat) (o : Nat) : Bool :=
  o == 0xFFFF || decide (o ≤ 0x1FF) || inRange 0x1000 0x100F o || o == 0x10FF || inRange 0x2000 0x200F o
  || (inRange 0x3000 0x303F o && stores.contains (o % 16)) || o == 0x4000 || o == 0x4100

/-- The first stage that breaks R108 or R109. -/
def stageFault (stores : List Nat) (nItems : Nat) (es : List Nat) : Option Nat :=
  es.zipIdx.findSome? fun (e, i) =>
    let s := stageOfEntry e
    if fld e 255 216 != 0 || fld e 191 179 != 0 || fld e 47 44 != 0 || fld e 7 4 != 0 || decide (5 < s.kind)
        || !(inRange 1 64 s.minCols) || s.preds.any (fun p => decide (i ≤ p)) || decide (nItems < s.wiFirst + s.wiCount)
        || (if s.kind = 0 then s.wiCount != 0 || decide (15 < s.object) else !(objectOk stores s.object))
    then some i else none

-- Descriptors (R69, R73, R78, R79)

/-- The conditions of R78 that do not depend on the target, without the index stream. -/
def descOk (d : Nat) : Bool :=
  let n := dNdim d
  fld d 511 462 == 0 && decide (dEsize d ≤ 5) && dHint d != 3 && dRingSlots d != 1 && inRange 1 5 n
  && (List.range 5).all (fun i => if i < n then dCount d i != 0 else fld d (72 * i + 119) (72 * i + 48) == 0)
  && (!(dTranspose d) || (decide (2 ≤ n) && decide (dCount d 0 ≤ 64) && decide (dCount d 1 ≤ 64) && decide (dEsize d ≤ 2)))
  && (!(dDecompress d) || (!(dIndexed d) && !(dTranspose d)))
  && (!(dPad d) || decide (3 ≤ n))

/-- The index stream's conditions (R79). -/
def indexDescOk (d x : Nat) : Bool :=
  descOk x && dNdim x == 1 && dEsize x == dIndexWidth d + 2 && !(dIndexed x) && !(dDecompress x) && !(dTranspose x) && !(dPad x)

/-- The conditions of R78 that depend on a target. -/
def targetOk (d : Nat) (isHbm isOwn : Bool) : Bool :=
  (isOwn || !(dTranspose d || dSkew d)) && (isHbm || !(dDecompress d)) && !(isHbm && decide (2 ≤ dRingSlots d))

/-- The stage that a template belongs to. -/
def stageOfItem (stages : List Stage) (i : Nat) : Nat :=
  (stages.findIdx? fun s => decide (s.wiFirst ≤ i) && decide (i < s.wiFirst + s.wiCount)).getD 512

/-- The tile that a pinned template runs on, with the pools in force (R101). -/
def pinnedTile (s : State) (stages : List Stage) (i w : Nat) : Option Nat :=
  if wPinned w then ((stages[stageOfItem stages i]?).bind (State.bindStage s.cfg.pools)).map fun p => s.poolTile p (wPinTile w) else none

/-- The target that a slot's `BASE_SRC` fixes at load: HBM, the tile's own memory; none where a handle decides. An absolute
address of a tile is the tile's own memory for a work item that is pinned to it. -/
def fixedTarget (own : Option Nat) (src d : Nat) : Option (Bool × Bool) :=
  if inRange 1 4 src then some (true, false)
  else if src = 7 then some (false, true)
  else if src = 0 then some (inHbm (dBase d), match targetOf (dBase d) with
    | .tile t => own == some t
    | _ => false)
  else none

/-- The model regions that a slot reads (R102): through `BASE_SRC` 3 or an adapter stage's 4. -/
def regionsRead (models : List Model) (src d : Nat) : List Region :=
  if src = 3 then models.filterMap fun m => m.regions[fld d 47 36]? else []

/-- A `STREAM` region is read into a ring of at least three slots alone, by a work item that moves its slot 0 into one (R305), and a region
held coded by no indexed or transposed stream (R304). `w` is the work item, `n` the slot. -/
def weightsOk (models : List Model) (descs : List Nat) (w n : Nat) : Bool :=
  match (wSlot w n).bind (descs[·]?) with
  | none => true
  | some d =>
    (regionsRead models (wBaseSrc w n) d).all fun r =>
      !(r.coded && (dIndexed d || dTranspose d)) &&
      (r.hint != 0 || !((inSlots w).contains n) || (inRange 0x40 0x44 (wOpcode w) && (match (wSlot w 8).bind (descs[·]?) with
        | some e => decide (2 ≤ dRingSlots e)
        | none => false)))

/-- The first descriptor template that breaks R69, R78, R79 or the weight-window rule of R304. -/
def descFault (s : State) (models : List Model) (stages : List Stage) (items descs : List Nat) : Option Nat :=
  let uses := items.zipIdx.flatMap fun (w, j) => (wSlots w).filterMap fun n => (wSlot w n).map fun t => (t, w, n, pinnedTile s stages j w)
  descs.zipIdx.findSome? fun (d, i) =>
    let own := descOk d && (!(dIndexed d) || (match descs[dIndexDesc d]? with
      | some x => indexDescOk d x
      | none => false))
    let mine := uses.filter (·.1 == i)
    if own && mine.all (fun u =>
        (match fixedTarget u.2.2.2 (wBaseSrc u.2.1 u.2.2.1) d with
          | some t => targetOk d t.1 t.2
          | none => true) && weightsOk models descs u.2.1 u.2.2.1)
    then none else some i

-- Work items (R100 to R103, R187, R203)

/-- The stages that a template belongs to; stages may name one template. -/
def stagesOf (stages : List Stage) (i : Nat) : List Nat :=
  (List.range stages.length).filter fun st => (stages[st]?).any fun s => decide (s.wiFirst ≤ i) && decide (i < s.wiFirst + s.wiCount)

/-- The templates of a stage that a test selects, by index. -/
def matesIn (stages : List Stage) (items : List Nat) (st : Nat) (sel : Nat → Bool) : List Nat :=
  match stages[st]? with
  | some s => ((List.range s.wiCount).map (s.wiFirst + ·)).filter fun j => (items[j]?).any sel
  | none => []

/-- A member of a selection or coalescing group (R187, R203). -/
def inGroup (w : Nat) : Bool := wOpcode w == opCoalesce || (wOpcode w == opTopk && wImm w 2 != 0)

/-- Bytes that a stream delivers when its counts stand as they are (R73, R75, R79). -/
def streamLen (descs : List Nat) (d : Nat) : Nat :=
  let dim := fun (i : Nat) => (if dPad d then dPadLo d i + dPadHi d i else 0) + dCount d i
  let outer := dNdim d - 1
  let count := fun (i : Nat) => if dIndexed d && i == outer then ((descs[dIndexDesc d]?).map fun x => dCount x 0).getD 0 else dim i
  (((List.range (dNdim d)).drop (if dPacked d then 1 else 0)).map count).foldl (· * ·) (dUnit d)

/-- Scores in a TOPK's stream (R187); 0 where a handle decides its length. -/
def scoresOf (descs : List Nat) (w : Nat) : Nat :=
  match (wSlot w 0).bind (descs[·]?) with
  | some d => if wLenFrom w 0 then 0 else streamLen descs d / scoreBytes (wImm w 1)
  | none => 0

/-- A slot names an area of the request's scratch below its device area (R113, R203). -/
def inPlanScratch (dev : Nat) (descs : List Nat) (w n : Nat) : Bool :=
  match (wSlot w n).bind (descs[·]?) with
  | some d =>
    let reach := fun (neg : Bool) => (((List.range (dNdim d)).drop (if dPacked d then 1 else 0)).map fun i =>
      let far := ((dCount d i : Int) - 1) * dStride d i
      if neg then min far 0 else max far 0).sum
    wBaseSrc w n == 1 && decide (0 ≤ (dBase d : Int) + reach true) && decide ((dBase d : Int) + reach false + dUnit d ≤ dev)
  | none => false

/-- A member of a selection or coalescing group fits its group in every stage that it belongs to (R187, R203). `dev` is where the device
area starts in the scratch. -/
def memberOk (dev : Nat) (stages : List Stage) (items descs : List Nat) (i : Nat) : Bool :=
  match (items[i]?).filter inGroup with
  | some w =>
    let g := fld (wImm w 2) 15 0
    let select := wOpcode w == opTopk
    wPinned w && decide (wImm w 3 < g)
    && (if select then inRange 2 2048 g && wUses w 1 && decide (scoresOf descs w ≤ 16777215)
        else [8, 9, 10, 11].all fun n => inPlanScratch dev descs w n)
    && (stagesOf stages i).all fun st =>
      let mates := matesIn stages items st fun x => inGroup x && wOpcode x == wOpcode w && fld (wImm x 2) 31 16 == fld (wImm w 2) 31 16
      let others := (mates.filter (· != i)).filterMap (items[·]?)
      mates.length == g
      && others.all (fun x => fld (wImm x 2) 15 0 == g && wImm x 3 != wImm w 3 && wPinTile x != wPinTile w)
      && (if select then
            others.all (fun x => wImm x 0 == wImm w 0 && wImm x 1 == wImm w 1 && wImm x 4 == wImm w 4)
              && decide ((((items[i]?).toList ++ others).map (scoresOf descs)).sum ≤ 4294967295)
          else ((stages[st]?).map (·.kind)) == some 2
            && others.all fun x => (wSlot x 10).bind (descs[·]?) == (wSlot w 10).bind (descs[·]?))
  | none => true

/-- The first work-item template that breaks R100 to R103 or its group's rules. -/
def itemFault (dev : Nat) (stages : List Stage) (items descs : List Nat) : Option Nat :=
  items.zipIdx.findSome? fun (w, i) =>
    if wReservedOk w && wReq w == 0 && wStage w == 0 && slotsOk w && fieldsOk w
        && (wSlots w).all (fun n => match wSlot w n with
          | some t => decide (t < descs.length) && (wBaseSrc w n != 5 || (wInQ w).isSome)
          | none => true)
        && memberOk dev stages items descs i
    then none else some i

/-- The geometry of a CONV or DWCONV (R55, R58): its immediates and its input descriptor. `IMM8` is C_out; a value of 0, which R55 does not
exclude in words, is refused as no output channels at all (log 133). -/
def convOk (w d : Nat) : Bool :=
  let i := wImm w
  let kh := i 0
  let kw := i 1
  let y := if 3 ≤ dNdim d then dCount d 2 else 1
  let x := if 2 ≤ dNdim d then dCount d 1 else 1
  let pad := fun n => if dPad d then dPadLo d n + dPadHi d n else 0
  (inRange 1 16 kh && inRange 1 16 kw || kh == 1 && inRange 1 64 kw)
  && inRange 1 8 (i 2) && inRange 1 8 (i 3) && inRange 1 8 (i 4) && inRange 1 8 (i 5)
  && inRange 1 65535 (i 6) && inRange 1 65535 (i 7) && i 6 * i 7 == dCount d 0 && decide (1 ≤ i 8) && i 8 % i 6 == 0
  && inRange 1 65535 y && inRange 1 65535 x
  && decide (i 4 * (kh - 1) + 1 ≤ y + pad 2) && decide (i 5 * (kw - 1) + 1 ≤ x + pad 1)
  && (!(isMx (wAFmt w)) || i 7 % 32 == 0)
  && (wOpcode w != 0x27 || (i 7 == 1 && decide (i 8 ≤ 4 * i 6)))

/-- The first convolution template that breaks R55 or R58. -/
def convFault (items descs : List Nat) : Option Nat :=
  items.zipIdx.findSome? fun (w, i) =>
    if wOpcode w = 0x11 || wOpcode w = 0x27 then
      match (wSlot w 0).bind (descs[·]?) with
      | some d => if convOk w d then none else some i
      | none => some i
    else none

-- Signals and barriers (R119, R127)

/-- The signals that a work item names. -/
def signalsOf (w : Nat) : List Nat :=
  (match wWait w with | some (g, _) => [g] | none => []) ++ (match wDone w with | some g => [g] | none => [])
  ++ (if wOpcode w = 0x02 then [wImm w 0] else [])

/-- The stages before each stage, directly or not, in stage order. -/
def ancestors : List Stage → List (List Nat)
  | ss => ss.foldl (fun acc s => acc ++ [s.preds ++ s.preds.flatMap fun p => acc.getD p []]) []

/-- The first template under R119 or R127: one whose stage can run beside a lower one that names its signal; a barrier whose
work items do not number N, or share a tile. -/
def sharingFault (stages : List Stage) (items : List Nat) : Option Nat :=
  let anc := ancestors stages
  let names := stages.map fun s => (((items.drop s.wiFirst).take s.wiCount).flatMap signalsOf).eraseDups
  items.zipIdx.findSome? fun (w, i) =>
    let sts := stagesOf stages i
    let shared := sts.any fun st => (signalsOf w).any fun g =>
      ((List.range st).filter fun j => !((anc.getD st []).contains j)).any fun j => (names.getD j []).contains g
    let barrier := wOpcode w == opBarrier && sts.any fun st =>
      let mates := matesIn stages items st fun x => wOpcode x == opBarrier && wImm x 0 == wImm w 0
      mates.length != wImm w 1 || mates.any fun j => j != i && (items[j]?).any fun x => wPinned x && wPinned w && wPinTile x == wPinTile w
    if shared || barrier then some i else none

-- Fit into the pools in force (R71, R111, R214)

/-- The first stage whose footprint exceeds its pool's limit (`foot`), or whose pool has another shape. -/
def poolFault (pools : List PoolCfg) (stages : List Stage) (items : List Nat) (foot : Bool) : Option Nat :=
  stages.zipIdx.findSome? fun (s, i) =>
    match (State.bindStage pools s).bind (pools[·]?) with
    | none => if foot || s.kind = 0 then none else some i
    | some p =>
      if foot then (if p.footLimit < s.footprint then some i else none)
      else if p.cols < s.minCols || ((items.drop s.wiFirst).take s.wiCount).any (fun w =>
          (wPinned w && decide (p.tiles ≤ wPinTile w)) || ((wOutQ w).isSome && !(wOutHopper w) && decide (p.tiles ≤ wOutTile w)))
      then some i else none

/-- A plan image read and checked (R114): the plan, or the refusal reason with the failing entry. `base` is where the image
stands in HBM, `key` tells the image apart. -/
def checkPlan (s : State) (img : Bytes) (id base key total : Nat) : Except (Nat × Nat) Plan :=
  let h := uAt img 0 64
  if !(planHeaderOk h id total) then .error (1, 0) else
    let regions := recordsAt img (phOffRegions h) 16 (phRegions h)
    let entries := recordsAt img (phOffStages h) 32 (phStages h)
    let items := recordsAt img (phOffWi h) 128 (phItems h)
    let descs := recordsAt img (phOffDesc h) 64 (phDescs h)
    let stages := entries.map stageOfEntry
    let models := s.models.filter (·.obj.state == 2)
    match regionFault (base + phOffConst h) regions with
    | some i => .error (0x0A, i)
    | none =>
    match stageFault (s.cfg.stores.map (·.id)) items.length entries with
    | some i => .error (2, i)
    | none =>
    match descFault s models stages items descs with
    | some i => .error (4, i)
    | none =>
    match itemFault (phScratchDev h) stages items descs with
    | some i => .error (3, i)
    | none =>
    match convFault items descs with
    | some i => .error (5, i)
    | none =>
    match sharingFault stages items with
    | some i => .error (8, i)
    | none =>
    match poolFault s.cfg.pools stages items true with
    | some i => .error (6, i)
    | none =>
    match poolFault s.cfg.pools stages items false with
    | some i => .error (7, i)
    | none => .ok {
        obj := { kind := 1, id, key, base, bytes := total, state := 2 }
        stages, items, descs, regions, offConst := base + phOffConst h, scratchBytes := phScratch h, scratchDev := phScratchDev h }

/-- Whether every current plan reads a model's regions as R304 asks. -/
def plansTakeModel (s : State) (m : Model) : Bool :=
  (s.plans.filter (·.obj.state == 2)).all fun p => p.items.all fun w => (wSlots w).all fun n => weightsOk [m] p.descs w n

end Sys2Proof.Machine
end

