-- ==== Sys2Proof/Machine/Loads.lean ====
section
/-! DEFINITION. The loads of models, plans, adapters and grammars in chunks, their removal and abandonment (R114, R115, R241 to
R243, R274, R291, R301 to R304, R363, R391, R394). -/

namespace Sys2Proof.Machine

/-- Message type of a load, its object kind (R380), and the function it needs (R410). -/
def loadType : LoadKind → Nat
  | .model => 0x30 | .plan => 0x31 | .adapter => 0x32 | .grammar => 0x33
def loadObjKind (type : Nat) : Nat := match type with | 0x30 => 2 | 0x31 => 1 | 0x32 => 3 | _ => 4
def loadFn (type : Nat) : Nat := match type with | 0x30 => fnPools | 0x31 => fnPools | 0x32 => fnServe | _ => fnText

-- The load header (R363)

def lhFinal (h : Nat) : Bool := bitAt h 64
def lhWrapped (h : Nat) : Bool := bitAt h 65
def lhRemove (h : Nat) : Bool := bitAt h 66
def lhForModel (h : Nat) : Nat := fld h 117 112
def lhId (h : Nat) : Nat := fld h 127 118
def lhOverrides (h : Nat) : Nat := fld h 143 128
def lhVersion (h : Nat) : Nat := fld h 175 144
def lhTotal (h : Nat) : Nat := fld h 215 176
def lhOffset (h : Nat) : Nat := fld h 255 216

/-- The header taken alone (R10, R363). -/
def loadHeaderOk (type : Nat) (p : Bytes) : Bool :=
  let h := uAt p 0 32
  decide (32 ≤ p.length) && fld h 111 67 == 0
  && (lhOverrides h == 0 || (type == 0x30 && lhFinal h && decide (lhOverrides h ≤ 4096) && decide (32 + 8 * lhOverrides h ≤ p.length)))
  && (type == 0x32 || (lhVersion h == 0 && lhForModel h == 0))
  && decide (lhId h ≤ (match type with | 0x30 => 63 | 0x32 => 1023 | _ => 255))
  && (!(lhRemove h) || p.length == 32)

/-- Spans cover every byte below `total`: `next` is the first byte not yet covered, `fuel` the spans left to use. -/
def covered (total : Nat) : Nat → Nat → List (Nat × Nat) → Bool
  | 0, next, _ => decide (total ≤ next)
  | k + 1, next, spans =>
    if total ≤ next then true
    else match spans.find? (fun s => decide (s.1 ≤ next) && decide (next < s.1 + s.2)) with
      | some s => covered total k (s.1 + s.2) spans
      | none => false

-- Models (R274, R301 to R304)

/-- A region as its image entry gives it, after overrides. -/
structure RegionEntry where
  offset : Nat
  length : Nat
  decoded : Nat
  hint : Nat
  noCompress : Bool
  grist : Bool
  isSliced : Bool
  reserved : Bool
  deriving DecidableEq, Repr

def regionEntry (e : Nat) : RegionEntry :=
  { offset := fld e 47 0, length := fld e 95 48, decoded := fld e 143 96, hint := fld e 164 160, noCompress := bitAt e 165
    grist := bitAt e 166, isSliced := bitAt e 167, reserved := fld e 255 184 != 0 || fld e 159 144 != 0 }

/-- A hint override replaces two fields of its region (R303); none when it breaks R10 or names no region. -/
def override (rs : List RegionEntry) (o : Nat) : Option (List RegionEntry) :=
  let i := fld o 15 0
  if fld o 63 22 != 0 || decide (rs.length ≤ i) then none
  else some (rs.modify i fun r => { r with hint := fld o 20 16, noCompress := bitAt o 21 })

/-- Reads of a region's stored bytes out of its image. -/
def regionRd (img : Bytes) (r : RegionEntry) : Nat → Nat → Bytes := fun o n => slice (slice img r.offset r.length) o n

/-- One region alone is well formed (R301, R302, R307, R308). -/
def regionOk (img : Bytes) (r : RegionEntry) : Bool :=
  !r.reserved && decide (r.hint ≤ 3) && r.offset % 128 == 0 && decide (r.offset + r.length ≤ img.length)
  && decide (r.length ≤ 2 ^ 36) && decide (r.decoded ≤ 2 ^ 36)
  && (!r.grist || match gristHead (regionRd img r) r.decoded with
    | some g => gristIndexOk (regionRd img r) g r.length
    | none => false)

/-- The bytes of a region as held (R302): decoded when it is raw in service, coded otherwise; none when a block fails. -/
def regionHeld (img : Bytes) (r : RegionEntry) : Option Bytes :=
  if r.grist && r.noCompress then
    (gristHead (regionRd img r) r.decoded).bind fun g => gristDecode (regionRd img r) g
  else some (slice img r.offset r.length)

/-- The bytes that `PIN_TILE` regions take in a tile's context (R302) on a pool of `nt` tiles. -/
def contextBytes (nt : Nat) (rs : List RegionEntry) : Nat :=
  (rs.filter (·.hint == 1)).foldl (fun at' r =>
    alignUp at' 128 + (if r.isSliced then alignUp (ceilDiv r.decoded nt) 128 else r.decoded)) 0

/-- The least tiles of a pool in force: the sliced layout that a load is checked against. -/
def leastTiles (pools : List PoolCfg) : Nat := ((pools.filter fun p => !(p.has 0)).map PoolCfg.tiles).foldl min 2048

/-- A model header alone is well formed (R274, R301). -/
def modelHeaderOk (h : Nat) (id total : Nat) : Bool :=
  fld h 31 0 == 0x4C444F4D && fld h 47 32 == 1 && fld h 511 384 == 0 && fld h 223 208 == 0 && fld h 63 60 == 0 && fld h 55 54 == 0
  && fld h 53 48 == id && fld h 319 256 == total && fld h 255 224 % 128 == 0 && inRange 1 4096 (fld h 207 192)
  && decide (fld h 255 224 + 32 * fld h 207 192 ≤ total)
  && inRange 1 1024 (fld h 79 64) && inRange 1 512 (fld h 95 80)
  && inRange 64 1048576 (fld h 127 96) && fld h 127 96 % 64 == 0 && inRange 64 4096 (fld h 143 128) && fld h 143 128 % 64 == 0
  && decide (fld h 159 144 ≤ 4096) && inRange 1 256 (fld h 175 160) && decide (fld h 191 176 ≤ 32768) && fld h 191 176 % 128 == 0

/-- The regions of an image after overrides, or the refusal (R304). The context layout does not bind an adapter. -/
def imageRegions (nt : Nat) (img : Bytes) (id total : Nat) (over' : List Nat) (isModel : Bool) : Except Outcome (List RegionEntry) :=
  let h := uAt img 0 64
  if !(modelHeaderOk h id total) then .error refMalformed
  else
    let es := (recordsAt img (fld h 255 224) 32 (fld h 207 192)).map regionEntry
    match over'.foldl (fun acc o => acc.bind fun rs => override rs o) (some es) with
    | none => .error refMalformed
    | some rs =>
      if !(rs.all (regionOk img)) then .error refMalformed
      else if !(disjoint ((0, 64) :: (fld h 255 224, 32 * rs.length) :: rs.map fun r => (r.offset, r.length)))
          || rs.any (fun r => r.isSliced && r.hint != 1) || rs.any (fun r => !r.grist && r.length != r.decoded)
          || (isModel && decide (fld h 191 176 < contextBytes nt rs)) then .error { status := stUnknown, reason := 0x10D }
      else .ok rs

-- Grammars (R241 to R243)

/-- The allowed tokens of a mask as one number with bit t for token t; none when its runs do not sum to V, a reserved bit
is set, or a run word lies beyond the image (R242, R243). -/
def runMask (v : Nat) (rd : Nat → Nat → Bytes) : Nat → Nat → Nat → Option Nat
  | 0, _, _ => none
  | k + 1, off, at' =>
    let w := uAt (rd off 4) 0 4
    let n := fld w 17 0 + 1
    if (rd off 4).length != 4 || fld w 30 18 != 0 || decide (v < at' + n) then none
    else
      let here := if bitAt w 31 then (2 ^ n - 1) * 2 ^ at' else 0
      if at' + n = v then some here else (runMask v rd k (off + 4) (at' + n)).map (· + here)

/-- Entry fields of a grammar state (R241). -/
def gsNext (e : Nat) : Nat := fld e 127 108
def gsHasDefault (e : Nat) : Bool := bitAt e 107
def gsAccept (e : Nat) : Bool := bitAt e 105
def gsEmpty (e : Nat) : Bool := bitAt e 104

/-- The mask of a state, its transitions as (token, next). -/
def stateMask (v offMasks : Nat) (rd : Nat → Nat → Bytes) (e : Nat) : Option Nat :=
  let off := offMasks + fld e 31 0
  if bitAt e 103 then some (leNat (rd off (ceilDiv v 8)) % 2 ^ v) else runMask v rd v off 0
def stateTrans (offTrans : Nat) (rd : Nat → Nat → Bytes) (e : Nat) : List (Nat × Nat) :=
  (List.range (fld e 95 64)).map fun i =>
    let t := uAt (rd (offTrans + fld e 63 32 + 8 * i) 8) 0 8
    (fld t 17 0, fld t 63 44)

/-- Ascending without repeats. -/
def ascending : List Nat → Bool
  | a :: b :: r => decide (a < b) && ascending (b :: r)
  | _ => true

/-- The checks of R243 on one state. -/
def stateOk (v nStates total offMasks offTrans : Nat) (rd : Nat → Nat → Bytes) (e : Nat) : Bool :=
  let n := fld e 95 64
  let inMask := decide (offMasks + fld e 31 0 + (if bitAt e 103 then ceilDiv v 8 else 4) ≤ total)
  let inTrans := decide (offTrans + fld e 63 32 < total) && decide (offTrans + fld e 63 32 + 8 * n ≤ total)
  fld e 106 106 == 0 && fld e 102 96 == 0 && inMask && inTrans &&
  match stateMask v offMasks rd e with
  | none => false
  | some m =>
    let ts := stateTrans offTrans rd e
    gsEmpty e == (m == 0)
    && (List.range n).all (fun i => fld (uAt (rd (offTrans + fld e 63 32 + 8 * i) 8) 0 8) 43 18 == 0)
    && ts.all (fun t => decide (t.1 < v) && bitAt m t.1 && decide (t.2 < nStates)) && ascending (ts.map (·.1))
    && (if gsHasDefault e then decide (gsNext e < nStates)
        else (List.range v).all fun t => !(bitAt m t) || ts.any (·.1 == t))

/-- A grammar image read and checked (R241 to R243). -/
def checkGrammar (s : State) (img : Bytes) (id base key : Nat) : Except Outcome Grammar :=
  let h := uAt img 0 64
  let rd := fun o n => slice img o n
  let ns := fld h 107 84
  let offStates := fld h 159 128
  let offTrans := fld h 191 160
  let offMasks := fld h 223 192
  if fld h 31 0 != 0x4D415247 || fld h 47 32 != 0 || fld h 63 48 != 1 || fld h 71 64 != 0 || fld h 511 256 != 0 || fld h 79 72 != id
      || !(inRange 1 1048576 ns) || fld h 255 224 != img.length || decide (img.length < offStates + 16 * ns)
      || decide (img.length ≤ offTrans) || decide (img.length ≤ offMasks) then .error refMalformed
  else match s.cfg.toks.find? (·.id == fld h 83 80) with
    | none => .error { status := stUnknown, reason := 0x10D }
    | some tok =>
      let es := recordsAt img offStates 16 ns
      if decide (ns ≤ fld h 127 108) || !(es.all (stateOk tok.vocab ns img.length offMasks offTrans rd)) then
        .error { status := stUnknown, reason := 0x10D }
      else .ok {
        obj := { kind := 4, id, key, base, bytes := img.length, state := 2 }
        tokeniser := tok.id, states := ns, vocab := tok.vocab, start := fld h 127 108, offStates, offMasks, offTrans }

namespace State

/-- The plaintext of a finished load (R391). -/
def loadImage (s : State) (l : Load) : Except Outcome Bytes :=
  let raw := s.readMem l.base l.total
  if s.hasBadLine l.base l.total then .error refCheck
  else if l.wrapped then s.openBlob (loadObjKind l.type) l.id (if l.type == 0x32 then l.version else 0) raw else .ok raw

/-- An object's digest is taken over its plaintext, models with their overrides (R379). -/
def withDigest (o : Obj) (img extra : Bytes) : Obj := { o with digest := Config.sha384 (img ++ extra) }

/-- The image's place is kept and holds its plaintext. -/
def keepImage (l : Load) (img : Bytes) (s : State) : State :=
  let s := s.clearMem l.base l.total
  let s := s.writeMem l.base img
  { s with used := (l.base, img.length) :: s.used.erase (l.base, l.total) }

/-- Images of an id that are current no longer are. -/
def supersede (o : Obj) : Obj := if o.state == 2 then { o with state := 3 } else o

/-- A plan's FINAL (R114, R115). -/
def finishPlan (l : Load) (img : Bytes) (s : State) : State × Outcome :=
  if 256 ≤ s.plans.length then (s, { status := stUnknown, reason := 9 })
  else
    let k := s.newKey
    match checkPlan s img l.id l.base k.1 img.length with
    | .error e => (s, { status := stUnknown, reason := e.1, detail := e.2 })
    | .ok p =>
      let s := k.2.keepImage l img
      let s : State := { s with plans := s.plans.map (fun x => if x.obj.id == l.id then { x with obj := supersede x.obj } else x)
        ++ [{ p with obj := withDigest p.obj img [] }] }
      (s.bumpObjects.reap, {})

/-- Regions placed in HBM as held (R301, R302): one range, each region from a 4 KiB boundary. -/
def placeRegions (img : Bytes) (rs : List RegionEntry) (s : State) : Option ((Nat × Nat × List Region) × State) :=
  match rs.foldl (fun acc r => acc.bind fun a => (regionHeld img r).map fun b => a ++ [(r, b)]) (some ([] : List (RegionEntry × Bytes))) with
  | none => none
  | some held =>
    let total := (held.map fun x => alignUp x.2.length 4096).sum
    match s.alloc total 4096 with
    | none => none
    | some (base, s) =>
      let s := (held.foldl (fun a x => (a.1 + alignUp x.2.length 4096, a.2.writeMem a.1 x.2)) (base, s)).2
      let regions := (held.foldl (fun a x => (a.1 + alignUp x.2.length 4096, a.2 ++ [{
        base := a.1, held := x.2.length, decoded := x.1.decoded, hint := x.1.hint, coded := x.1.grist && !x.1.noCompress
        isSliced := x.1.isSliced : Region }])) (base, ([] : List Region))).2
      some ((base, total, regions), s)

/-- The staging of a load's image is given back at once: its plaintext never was an object. -/
def dropStaging (l : Load) (s : State) : State :=
  { s.clearMem l.base l.total with used := s.used.erase (l.base, l.total) }

/-- A model's FINAL (R274, R301 to R304). -/
def finishModel (l : Load) (img over' : Bytes) (s : State) : State × Outcome :=
  if 64 ≤ s.models.length then (s, refLimit)
  else
    let h := uAt img 0 64
    match imageRegions (leastTiles s.cfg.pools) img l.id img.length (words64 over') true with
    | .error o => (s, o)
    | .ok rs =>
      if !(rs.all fun r => (regionHeld img r).isSome) then (s, refMalformed)
      else match (s.dropStaging l).placeRegions img rs with
        | none => (s, refNoMemory)
        | some ((base, bytes, regions), s') =>
          let k := s'.newKey
          let m : Model := {
            obj := withDigest { kind := 2, id := l.id, key := k.1, base, bytes, state := 2 } img over'
            tokeniser := fld h 59 56, layers := fld h 79 64, kvTokenBytes := 128 * fld h 95 80, ctxMax := fld h 127 96
            chunk := fld h 143 128, piggyback := fld h 159 144, batchMax := fld h 175 160, ctxTileBytes := fld h 191 176, regions }
          if plansTakeModel s m then
            let s : State := k.2
            let s : State := { s with models := s.models.map (fun x => if x.obj.id == l.id then { x with obj := supersede x.obj } else x) ++ [m] }
            (s.bumpObjects.reap, {})
          else (s, { status := stUnknown, reason := 0x10D })

/-- An adapter's FINAL (R291). -/
def finishAdapter (l : Load) (img : Bytes) (s : State) : State × Outcome :=
  if 1024 ≤ s.adapters.length then (s, refLimit)
  else if s.adapters.any fun a => a.obj.id == l.id && decide (l.version ≤ a.obj.version) then (s, refOrder)
  else if (s.model? l.forModel).isNone then (s, refNotHeld)
  else match imageRegions (leastTiles s.cfg.pools) img l.forModel img.length [] false with
    | .error o => (s, o)
    | .ok rs =>
      if !(rs.all fun r => (regionHeld img r).isSome) then (s, refMalformed)
      else match (s.dropStaging l).placeRegions img rs with
        | none => (s, refNoMemory)
        | some ((base, bytes, regions), s) =>
          let k := s.newKey
          let a : Adapter := {
            obj := withDigest { kind := 3, id := l.id, version := l.version, key := k.1, base, bytes, state := 2 } img []
            model := l.forModel, regions }
          let s : State := k.2
          let s : State := { s with adapters := s.adapters.map (fun x => if x.obj.id == l.id then { x with obj := supersede x.obj } else x) ++ [a] }
          (s.bumpObjects.reap, {})

/-- A grammar's FINAL (R241 to R243). -/
def finishGrammar (l : Load) (img : Bytes) (s : State) : State × Outcome :=
  if 256 ≤ s.grammars.length then (s, refLimit)
  else if 1073741824 < img.length then (s, refMalformed)
  else
    let k := s.newKey
    match checkGrammar s img l.id l.base k.1 with
    | .error o => (s, o)
    | .ok g =>
      let s := k.2.keepImage l img
      let s : State := { s with grammars := s.grammars.map (fun x => if x.obj.id == l.id then { x with obj := supersede x.obj } else x)
        ++ [{ g with obj := withDigest g.obj img [] }] }
      (s.bumpObjects.reap, {})

/-- A load whose every byte and FINAL chunk have arrived ends with its checks (R363); a refused one takes no memory. -/
def finishLoad (l : Load) (w : Write) (over' : Bytes) (s : State) : State :=
  let s : State := { s with loads := s.loads.filter fun x => !(x.type == l.type && x.id == l.id) }
  let r := match s.loadImage l with
    | .error o => (s, o, ([] : Bytes))
    | .ok img =>
      let r := match l.type with
        | 0x30 => s.finishModel l img over'
        | 0x31 => s.finishPlan l img
        | 0x32 => s.finishAdapter l img
        | _ => s.finishGrammar l img
      (r.1, r.2, img)
  let s := if r.2.1.status = 0 then r.1 else r.1.release l.base l.total
  -- a wrapped image is mirrored once, as plaintext (R392)
  let w := if l.wrapped then
      let h := uAt w.payload 0 32
      { w with payload := record 32 [(0, fld h 63 0), (64, 1), (112, fld h 117 112), (118, lhId h), (128, lhOverrides h), (144, lhVersion h), (176, r.2.2.length)]
        ++ r.2.2 ++ over' }
    else w
  s.answerWrite w r.2.1 [] true

/-- The object that a REMOVE names is removed (R115, R274, R291, R394): no later request finds it; its memory is freed when
nothing is bound to it. -/
def removeObject (type id : Nat) (s : State) : List (Nat × Nat) × State :=
  let hit := fun (o : Obj) => o.id == id && o.state != 4
  let gone := fun (o : Obj) => if hit o then { o with state := 4 } else o
  let held : List Obj := match type with
    | 0x30 => s.models.map Model.obj
    | 0x31 => s.plans.map Plan.obj
    | 0x32 => s.adapters.map Adapter.obj
    | _ => s.grammars.map Grammar.obj
  let ranges := (held.filter hit).map fun o => (o.base, o.bytes)
  let s : State := match type with
    | 0x30 => { s with models := s.models.map fun x => { x with obj := gone x.obj } }
    | 0x31 => { s with plans := s.plans.map fun x => { x with obj := gone x.obj } }
    | 0x32 => { s with adapters := s.adapters.map fun x => { x with obj := gone x.obj } }
    | _ => { s with grammars := s.grammars.map fun x => { x with obj := gone x.obj } }
  (ranges, if ranges.isEmpty then s else s.bumpObjects.reap)

/-- A load message applied (R363): its outcome, none while the FINAL reply waits for data or a removal for zeroing. -/
def applyLoad (w : Write) (s : State) : State × Option Outcome :=
  let h := uAt w.payload 0 32
  let id := lhId h
  let cur := s.loads.find? fun l => l.type == w.type && l.id == id
  if !(loadHeaderOk w.type w.payload) then (s, some refMalformed)
  else if lhRemove h then
    let s' := match cur with
      | some l => s.abandonLoad l
      | none => s
    let part := match cur with
      | some l => [(l.base, l.total)]
      | none => []
    let r := s'.removeObject w.type id
    if r.1.isEmpty && part.isEmpty then (s, some refNotHeld)
    else ({ r.2 with removals := r.2.removals ++ [(w, r.1 ++ part)] }, none)
  else
    let over' := w.payload.drop (w.payload.length - 8 * lhOverrides h)
    let chunk := (w.payload.drop 32).take (w.payload.length - 32 - 8 * lhOverrides h)
    let total := lhTotal h
    let fits := match cur with
      | some l => l.session == w.session && l.total == total && l.version == lhVersion h && l.forModel == lhForModel h && l.wrapped == lhWrapped h
      | none => true
    if !fits || decide (total < lhOffset h + chunk.length) || total == 0 then (s, some refMalformed)
    else
      let placed : Option (Load × State) := match cur with
        | some l => some (l, s)
        | none => (s.alloc total 4096).map fun (a : Nat × State) =>
            let l : Load := { type := w.type, id, session := w.session, total, version := lhVersion h, forModel := lhForModel h
                              wrapped := lhWrapped h, base := a.1, got := [], lastChunk := s.portTicks }
            (l, { a.2 with loads := a.2.loads ++ [l] })
      match placed with
      | none => (s, some (if w.type == 0x31 then { status := stUnknown, reason := 9 } else refNoMemory))
      | some (l, s) =>
        let s := s.storeHbm none 0 (l.base + lhOffset h) chunk
        -- an earlier FINAL chunk that waits is answered for its receipt; the newer one carries the outcome
        let s := match l.final, lhFinal h with
          | some (v, _), true => s.answerWrite v {} [] false
          | _, _ => s
        let l := { l with
          got := l.got ++ [(lhOffset h, chunk.length)], lastChunk := s.portTicks
          final := if lhFinal h then some (w, over') else l.final }
        let s : State := { s with loads := s.loads.map fun x => if x.type == l.type && x.id == l.id then l else x }
        match l.final with
        | some (v, o) =>
          if covered l.total (l.got.length + 1) 0 l.got then
            let s := if lhFinal h then s else s.answerWrite w {} [] (!l.wrapped)
            (s.finishLoad l v o, none)
          else (s, if lhFinal h then none else some {})
        | none => (s, some {})

/-- LOAD_ABANDON_TIMEOUT (R363): 60 s by PORT_TICKS without a chunk. -/
def doLoadAbandonTimeout (kind : LoadKind) (id : Nat) (s : State) : State :=
  match s.loads.find? fun l => l.type == loadType kind && l.id == id with
  | some l => (s.atLeast (l.lastChunk + ticksOfMs 60000)).abandonLoad l
  | none => s

end State
end Sys2Proof.Machine
end

