-- ==== Sys2Proof/Machine/Hopper.lean ====
section
/-! DEFINITION. The Hopper's queues: relocation (R102, R109), instantiation and dispatch of a stage (R116, R119, R127, R188,
R244, R284, R286), refills (R120, R272) and stealing (R121 to R123). -/

namespace Sys2Proof.Machine

namespace State

/-- A stage run of a request. -/
def stageRun? (q : Request) (st : Nat) : Option StageRun := q.stages.find? (·.stage == st)

/-- A stage's predecessors on the request's path, in the order PRED0 to PRED3. -/
def predsOn (pl : Plan) (q : Request) (st : Nat) : List Nat :=
  match pl.stages[st]? with
  | some x => x.preds.filter fun p => q.stages.any (·.stage == p)
  | none => []

/-- Whether an item belongs to a stage of a request. -/
def ofStage (r order st : Nat) (i : Item) : Bool := i.req == r && i.reqOrder == order && i.stage == st

/-- A completion belongs to a stage of a request. -/
def recordOf (r order st : Nat) (c : Completion) : Bool :=
  fld c.record 63 52 == r && c.reqOrder == order && fld c.record 51 43 == st

/-- Work items of a stage that have not completed (R116). -/
def stageBusy (s : State) (r order st : Nat) : Bool :=
  s.pools.any (fun p => p.2.queue.any (ofStage r order st) || p.2.overflow.any (ofStage r order st))
  || s.tiles.any (fun t => t.2.queue.any (ofStage r order st) || (match t.2.running with
      | some x => ofStage r order st x.item
      | none => false) || t.2.closing.any fun c => ofStage r order st c.x.item)
  || s.completions.any (recordOf r order st)
  || s.handoffs.any fun h => h.req == r && h.reqOrder == order && h.hand.stage == st

-- Relocation (R102, R109, R292)

/-- A stage's object or one of its parts, as BASE_SRC 4 names it: the base of part `part`. -/
def objectBase (s : State) (q : Request) (x : StageRun) (obj part : Nat) : Option Nat :=
  if obj < 0x200 then
    ((q.tables.find? fun b => b.1 == 5 && b.2.1 == obj).bind fun b =>
      s.tables.find? fun v => v.table == obj && v.version == b.2.2).bind fun v => if part = 0 then some v.base else none
  else if obj / 0x100 = 0x10 then
    let tok := if obj = 0x10FF then q.tokeniser else some (obj % 16)
    (tok.bind fun k => s.textImages.find? (·.1 == k)).bind fun (y : Nat × Nat × Nat × Nat) =>
      match part with
      | 0 => some y.2.1
      | 1 => some y.2.2.1
      | 2 => some y.2.2.2
      | _ => none
  else if obj / 0x100 = 0x20 then
    ((s.corpora.find? (·.id == obj % 16)).bind (·.current)).bind fun v =>
      match part with
      | 0 => some v.ids
      | 1 => some v.fine
      | _ => none
  else if obj / 0x100 = 0x30 then (if part = 0 then x.list else none)
  else if obj = 0x4100 then
    if part = 0 then (q.grammar.bind fun g => s.grammarKey? g.2).map (·.obj.base) else none
  else none

/-- The region of a model or adapter that a template's BASE selects, with the offset in it. -/
def regionBase (rs : List Region) (b : Nat) : Option Nat := rs[fld b 47 36]?.map fun r => r.base + fld b 35 0

/-- The relocated BASE of a slot as far as the Hopper relocates it; `d` is the descriptor whose BASE is relocated, `h` the stage
input handle that the slot names. None when what it names does not exist. -/
def slotBase (s : State) (q : Request) (pl : Plan) (x : StageRun) (w n d : Nat) (h : Option Nat) : Option Nat :=
  match wBaseSrc w n with
  | 1 => some (q.scratch + dBase d)
  | 2 => some (pl.offConst + dBase d)
  | 3 => (q.model.bind fun m => s.modelKey? m.2).bind fun m => regionBase m.regions (dBase d)
  | 4 =>
    let obj := ((pl.stages[x.stage]?).map (·.object)).getD 0xFFFF
    if obj = 0x4000 || (bitAt (wImm w 15) 31 && bitAt (wImm w 15) 30) then
      (q.adapter.bind fun a => s.adapterVer? a.1 a.2).bind fun a => regionBase a.regions (dBase d)
    else (s.objectBase q x obj (fld (dBase d) 47 40)).map (· + fld (dBase d) 39 0)
  | 6 => h.map fun a => handleAddr a + fld (dBase d) 39 0
  | _ => some (dBase d)

/-- A count taken from a handle (R102): bytes ÷ the outermost stride, 0 where that is not possible. -/
def countFrom (d h : Nat) : Nat :=
  let st := dStride d (dNdim d - 1)
  if st ≤ 0 then 0 else handleBytes h / st.toNat

/-- The record with the fields and immediates that the Hopper fills in (R100, R244, R286). -/
def fillItem (q : Request) (r st w : Nat) : Nat :=
  let w := w + r * 2 ^ 43 + st * 2 ^ 55
  match wOpcode w with
  | 0x65 => setImm (setImm w 0 ((q.grammar.map (·.1)).getD 0)) 1 q.grammarState
  | 0x36 => setImm (setImm (setImm (setImm (setImm (setImm w 0 q.temperature.toNat) 1 q.topK) 2 q.topP.toNat) 3 q.seed) 4
      (q.seed / 2 ^ 32)) 5 q.newTokens
  -- a per-request TOPK or a selection group, as its check at the load asks (R286)
  | 0x30 => if wImm w 0 = 0 then setImm w 0 (if q.topK = 0 then 4096 else q.topK) else w
  | _ => w

/-- A template instantiated for a request's stage (R102, R116). -/
def makeItem (s : State) (q : Request) (r : Nat) (pl : Plan) (x : StageRun) (tmpl : Nat) (shared : Bool) : Item :=
  let w := pl.items.getD tmpl 0
  let slots := wSlots w
  let handle := fun (n : Nat) => if wBaseSrc w n = 6 then
      ((wSlot w n).bind (pl.descs[·]?)).bind fun d => x.inputs[fld (dBase d) 47 40]? else none
  let descs := slots.filterMap fun n =>
    ((wSlot w n).bind (pl.descs[·]?)).bind fun d => (s.slotBase q pl x w n d (handle n)).bind fun b =>
      let d' := setBase d b
      if wLenFrom w n then
        if wBaseSrc w n = 5 then some (n, d') else (handle n).map fun h => (n, setCount d' (dNdim d - 1) (countFrom d h))
      else some (n, d')
  let index := slots.filterMap fun n =>
    ((wSlot w n).bind (pl.descs[·]?)).bind fun d => if dIndexed d then
      (pl.descs[dIndexDesc d]?).bind fun e => (s.slotBase q pl x w n e (handle n)).map fun b => (n, setBase e b) else none
  { req := r, reqOrder := q.order, stage := x.stage, template := tmpl, plan := pl.obj.key, pool := x.pool
    wi := fillItem q r x.stage w, descs, indexDescs := index
    inHandles := slots.filterMap fun n => (handle n).map fun h => (n, h), isShared := shared }

-- Queues (R20, R116)

/-- Work items enter a pool's queue; those that find no free entry wait, and each wait is counted. -/
def pushItems (p : Nat) (is : List Item) (s : State) : State :=
  let room := 8192 - (s.pool p).queue.length
  let room := if (s.pool p).overflow.isEmpty then room else 0
  ((s.enterQueue p (is.take room)).setPool p fun x => { x with overflow := x.overflow ++ is.drop room }).count
    (poolCtr p 0x30) (is.drop room).length

/-- Barrier numbers and groups (opcode, number) that some templates name. -/
def barriersOf (ws : List Nat) : List (Nat × Nat × Nat) :=
  (ws.filterMap fun w => if wOpcode w = opBarrier then some (wImm w 0, wImm w 1, wImm w 2) else none).eraseDups
def groupsOf (ws : List Nat) : List (Nat × Nat × Nat × Nat) :=
  (ws.filterMap fun w =>
    if wOpcode w = opCoalesce || (wOpcode w = opTopk && wImm w 2 != 0) then
      some (fld (wImm w 2) 31 16 + (if wOpcode w = opCoalesce then 65536 else 0), fld (wImm w 2) 15 0, wImm w 0, wImm w 4)
    else none).eraseDups

/-- A selection slot for a group; `group` tells apart the coalescing groups by 65,536. -/
def newSelect (q : Request) (r st : Nat) (g : Nat × Nat × Nat × Nat) : SelectSlot :=
  { req := r, reqOrder := q.order, stage := st, group := g.1, size := g.2.1, k := g.2.2.1, collective := g.2.2.2 }

/-- Slots for the barriers and groups of some instantiated work items of a stage; none when too few are free (R127, R188). -/
def takeSlots (q : Request) (r st p : Nat) (ws : List Nat) (s : State) : Option State :=
  let bs := barriersOf ws
  let gs := groupsOf ws
  let x := s.pool p
  if 64 < x.barriers.length + bs.length || 16 < x.selects.length + gs.length then none
  else if bs.isEmpty && gs.isEmpty then some s
  else some (s.setPool p fun x => { x with
    barriers := x.barriers ++ bs.map fun b => { req := r, stage := st, number := b.1, need := b.2.1, op := b.2.2 }
    selects := x.selects ++ gs.map (newSelect q r st) })

/-- The signals that some templates name become 0 (R116). -/
def zeroSignals (r : Nat) (ws : List Nat) (s : State) : State :=
  let gs := ws.flatMap signalsOf
  if gs.isEmpty then s else
    s.setReq r fun q => { q with signals := q.signals.zipIdx.map fun (v, i) => if gs.contains i then 0 else v }

/-- The current base version of the corpus that a stage object names (R109): 0 for any other object. -/
def corpusVersion (s : State) (obj : Nat) : Nat :=
  if obj / 0x100 = 0x20 then ((s.corpora.find? (·.id == obj % 16)).map (·.version)).getD 0 else 0

/-- The templates of a stage as (index, record). -/
def stageItems (pl : Plan) (st : Nat) : List (Nat × Nat) :=
  match pl.stages[st]? with
  | some x => (List.range x.wiCount).map fun i => (x.wiFirst + i, pl.items.getD (x.wiFirst + i) 0)
  | none => []

/-- A stage finds too few free slots for `nb` barriers and `ng` groups; the wait is counted once, by what is missing (R127, R188). -/
def blockStage (r st p nb ng : Nat) (s : State) : State :=
  let x := s.pool p
  if x.blocked.contains (r, st) then s
  else
    let s := s.setPool p fun x => { x with blocked := x.blocked ++ [(r, st)] }
    let s := if 64 < x.barriers.length + nb then s.count (poolCtr p 0x38) 1 else s
    if 16 < x.selects.length + ng then s.count (poolCtr p 0x40) 1 else s

/-- A ready stage's work items enter its pool's queue, unless it waits for barrier or selection slots (R116, R127, R188). A
stage of the bound adapter has none in a request without one (R292). -/
def dispatch (r st : Nat) (s : State) : State :=
  match s.req? r with
  | none => s
  | some q =>
    match s.planOf q, stageRun? q st with
    | some pl, some x =>
      let ts := stageItems pl st
      let obj := ((pl.stages[st]?).map (·.object)).getD 0xFFFF
      let ts := if obj = 0x4000 && q.adapter.isNone then [] else ts
      let ws := ts.map Prod.snd
      let filled := ws.map (fillItem q r st)
      match s.takeSlots q r st x.pool filled with
      | none => s.blockStage r st x.pool (barriersOf filled).length (groupsOf filled).length
      | some s =>
        let s := s.zeroSignals r ws
        let s := s.pushItems x.pool (ts.map fun t => s.makeItem q r pl x t.1 false)
        let s := s.setPool x.pool fun p => { p with blocked := p.blocked.filter (· != (r, st)) }
        s.setReq r fun q => { q with stages := q.stages.map fun y => if y.stage == st then { y with dispatched := true, version := s.corpusVersion obj } else y }
    | _, _ => s

-- Refills (R120, R272)

/-- Tile time is charged to a class of a pool (R272): the time itself is open, since no rule fixes how long work takes. -/
def chargeShare (p c : Nat) (s : State) : State :=
  let f := s.freeNat
  (f.2.setPool p fun x => { x with deficits := insertKey c (lookupD c x.deficits 0 - (f.1 : Int)) x.deficits }).count (poolCtr p (0x400 + 8 * c)) f.1

/-- Share weight of a class (R272). -/
def classWeight (s : State) (c : Nat) : Nat := (lookupD c s.cfg.mode.classes (1, 0)).1

/-- The weights in force in a pool: those it still holds from before a change, else the configured ones. -/
def poolWeight (s : State) (p c : Nat) : Nat :=
  let ws := (s.pool p).weights
  max 1 (lookupD c ws (s.classWeight c))

/-- A pool takes changed share weights at the first refill after a stage boundary, or at once with no stage running or queued
(R272). -/
def adoptWeights (p : Nat) (s : State) : State :=
  let x := s.pool p
  if x.newWeights && x.boundary then s.setPool p fun x => { x with weights := [], newWeights := false }
  else s

/-- A stage has completed in a pool, which so has passed a stage boundary (R272); a Wheel pool, which has no refills, takes changed weights
then. -/
def passBoundary (p : Nat) (s : State) : State :=
  let s := s.setPool p fun x => { x with boundary := true }
  if ((s.poolCfg? p).map fun c => c.has 0).getD false then s.adoptWeights p else s

/-- Whether an item can go to a tile now (R119, R120); one with IN_Q waits on the tile for its handles (R85). -/
def itemReady (s : State) (t : Nat) (i : Item) : Bool :=
  (!(wPinned i.wi) || s.poolTile i.pool (wPinTile i.wi) == t) && s.signalled i

/-- The request order of R272: priority, least remaining budget, earlier admission. -/
def before (s : State) (a b : Item) : Bool :=
  match s.req? a.req, s.req? b.req with
  | some x, some y =>
    if x.priority != y.priority then decide (y.priority < x.priority)
    else match x.deadline, y.deadline with
      | some d, some e => if d != e then decide (d < e) else decide (x.order ≤ y.order)
      | some _, none => true
      | none, some _ => false
      | none, none => decide (x.order ≤ y.order)
  | _, _ => true

/-- The share class that an item is charged to. -/
def itemClass (s : State) (i : Item) : Nat := ((s.req? i.req).map (·.shareClass)).getD 0

/-- The class that a refill serves: the cursor walks the classes and adds to the deficits as it goes (R272). A class whose ready work is
all pinned to other tiles (`mine` has none of it) is passed over with its deficit as it was (log 142). -/
def pickClass (s : State) (p : Nat) (ready mine : List Nat) : Nat → List (Nat × Int) → Nat → Option Nat × List (Nat × Int) × Nat
  | 0, d, c => (none, d, c)
  | k + 1, d, c =>
    if !(ready.contains c) then pickClass s p ready mine k (d.filter (·.1 != c)) ((c + 1) % 64)
    else if !(mine.contains c) then pickClass s p ready mine k d ((c + 1) % 64)
    else
      let v := lookupD c d 0
      if v ≤ 0 then pickClass s p ready mine k (insertKey c (v + (s.poolWeight p c * 4096 : Nat)) d) ((c + 1) % 64)
      else (some c, d, c)

/-- A queue entry goes to a tile's local queue. -/
def giveItem (t : Nat) (i : Item) (s : State) : State :=
  let s := s.setPool i.pool fun p => { p with queue := p.queue.erase i }
  (s.setTile t fun x => { x with queue := x.queue ++ [i], idle := false }).drainOverflow i.pool

/-- Up to `k` ready work items of a class, one at a time in request order. -/
def giveClass (p t c : Nat) : Nat → State → State
  | 0, s => s
  | k + 1, s =>
    match sortBy s.before ((s.pool p).queue.filter fun i => s.itemReady t i && s.itemClass i == c) with
    | [] => s
    | i :: _ => giveClass p t c k (s.giveItem t i)

/-- The Hopper answers a tile that asks for work (R120, R272): up to 8 ready work items, or nothing, which leaves a tile with an
empty queue idle (R122). -/
def refill (t : Nat) (s : State) : State :=
  match s.poolOf t with
  | none => s
  | some p =>
    let s := s.adoptWeights p
    let ready := (((s.pool p).queue.filter s.signalled).map s.itemClass).eraseDups
    let mine := (((s.pool p).queue.filter (s.itemReady t)).map s.itemClass).eraseDups
    if mine.isEmpty then
      if (s.tile t).queue.isEmpty then s.setTile t fun x => { x with idle := true, steal := 0, woken := false } else s
    else
      let x := s.pool p
      let worst := (mine.map fun c => ((-(lookupD c x.deficits 0)).toNat) / (s.poolWeight p c * 4096) + 2).foldl max 0
      let r := s.pickClass p ready mine (64 * (worst + 1)) x.deficits x.cursor
      let s := s.setPool p fun x => { x with deficits := r.2.1, cursor := r.2.2 }
      match r.1 with
      | some c => s.giveClass p t c 8
      | none => s

/-- A tile that may take part: of an active pool that is not a Wheel pool (R18). -/
def workTile (s : State) (t : Nat) : Bool :=
  match s.poolOf t with
  | some p => s.poolActive p && !(((s.poolCfg? p).map fun c => c.has 0).getD true) && s.works fnPools
  | none => false

/-- TILE_REFILL_REQUEST (R120): a tile whose local queue holds fewer than 8 entries asks. -/
def doTileRefillRequest (t : Nat) (s : State) : State :=
  if s.workTile t && decide ((s.tile t).queue.length < 8) then s.refill t else s

-- Stealing (R121 to R123)

/-- Manhattan distance (R20). -/
def distance (s : State) (a b : Nat) : Nat :=
  let d := fun (x y : Nat) => (x - y) + (y - x)
  d (s.tileCol a) (s.tileCol b) + d (s.tileRow a) (s.tileRow b)

/-- The candidates of a thief in order. -/
def stealOrder (s : State) (t : Nat) : List Nat :=
  match s.poolOf t with
  | none => []
  | some p =>
    sortBy (fun a b => decide (s.distance t a < s.distance t b) || (s.distance t a == s.distance t b && decide (a ≤ b)))
      ((s.poolTiles p).filter (· != t))

/-- An entry can be stolen (R121). -/
def stealable (i : Item) : Bool := !(wPinned i.wi) && (wInQ i.wi).isNone && wOpcode i.wi != opBarrier

/-- STEAL_TAKE (R122, R123): the thief's next candidate answers a take with min(⌈n ÷ 2⌉, 4) stealable entries from its tail;
after every group of four a thief that has work stops. -/
def doStealTake (thief victim : Nat) (s : State) : State :=
  let x := s.tile thief
  if s.workTile thief && x.idle && (s.stealOrder thief)[x.steal]? == some victim then
    let n := ((s.tile victim).queue.filter stealable).length
    let k := min (ceilDiv n 2) 4
    let got := (((s.tile victim).queue.filter stealable).drop (n - k))
    let s := s.setTile victim fun v => { v with queue := v.queue.filter fun i => !(got.contains i) }
    s.setTile thief fun v =>
      let q := v.queue ++ got
      let last := (v.steal + 1) % 4 == 0 || decide ((s.stealOrder thief).length ≤ v.steal + 1)
      { v with queue := q, steal := v.steal + 1, idle := !(last && !q.isEmpty) }
  else s

/-- A tile whose stealing round found nothing asks again: at its timeout, or when the Hopper wakes it (R122). -/
def askAgain (t : Nat) (s : State) : State :=
  if s.workTile t && (s.tile t).idle && (s.tile t).queue.isEmpty then s.refill t else s

/-- A thief has sent its takes to every candidate. -/
def roundOver (s : State) (t : Nat) : Bool := decide ((s.stealOrder t).length ≤ (s.tile t).steal)

def doIdleTileTimeout (t : Nat) (s : State) : State := if s.roundOver t then s.askAgain t else s
/-- HOPPER_WAKE (R122): a wake that was sent acts on a tile that waits for it; one that comes during the round is found when the round is
over, and a tile that has work again takes no notice. -/
def doHopperWake (t : Nat) (s : State) : State :=
  let x := s.tile t
  if !x.woken then s
  else if x.idle && !(s.roundOver t) then s
  else (s.setTile t fun y => { y with woken := false }).askAgain t

end State
end Sys2Proof.Machine
end

