-- ==== Sys2Proof/Machine/Exec.lean ====
section
/-! DEFINITION. Running work items on tiles: start with relocation and checks (R36, R82 to R86, R99, R102, R120, R274), input
and output streams, rings (R80, R81), output handles and completion records (R83, R86, R105, R106), and the flow of handles,
credits, Leat payloads and remote reads (R85, R88 to R90, R95). -/

namespace Sys2Proof.Machine

namespace State

-- Streams of a running item

/-- The HBM range of a region mark or model region (R112). -/
def markRange (s : State) (q : Request) (pl : Plan) (x : StageRun) (m : Nat) : Option (Nat × Nat) :=
  let w := packed [(256, rmBaseSrc m)]
  (s.slotBase q pl x w 0 (rmOffset m) none).map fun b => (b, rmLength m)

/-- Where a running item's stream engine works, with the ranges whose lines it may allocate: marks 1 and 2 (R66, R112), but no
model region whose hint is not CACHE (R302). -/
def ioFor (s : State) (t : Nat) (i : Item) : Io :=
  let none' : Io := { tile := t, pool := i.pool, req := i.req }
  match s.req? i.req, s.planKey? i.plan with
  | some q, some pl =>
    let x := (stageRun? q i.stage).getD { stage := i.stage, pool := i.pool }
    let allow := (pl.regions.filter fun m => rmMark m == 1 || rmMark m == 2).filterMap (s.markRange q pl x)
    let model := (q.model.bind fun m => s.modelKey? m.2).map (·.regions)
    { none' with allow, deny := ((model.getD []).filter fun r => r.hint != 2).map fun r => (r.base, r.held) }
  | _, _ => none'

/-- The descriptor of a slot of a running item. -/
def slotDesc (x : Running) (n : Nat) : Nat := lookupD n x.slots 0

/-- A slot's stream read whole: what was fetched for it, or its stream. -/
def readSlot (io : Io) (x : Running) (n : Nat) (s : State) : Except Nat Bytes × State :=
  match x.fetched.find? (·.1 == n) with
  | some f => (.ok f.2, s)
  | none => s.readStream io (slotDesc x n) ((x.index.find? (·.1 == n)).map Prod.snd)

/-- Several slots read, each to its bytes. -/
def readSlots (io : Io) (x : Running) : List Nat → State → Except Nat (List (Nat × Bytes)) × State
  | [], s => (.ok [], s)
  | n :: r, s =>
    match readSlot io x n s with
    | (.error f, s) => (.error f, s)
    | (.ok b, s) =>
      match readSlots io x r s with
      | (.ok bs, s) => (.ok ((n, b) :: bs), s)
      | e => e

/-- Bytes written through an output slot (R76, R79, R99, R104); a fault stops further output. -/
def writeSlot (io : Io) (x : Running) (n : Nat) (bs : Bytes) (s : State) : Option Nat × State :=
  s.writeStream io (wGang x.item.wi) (slotDesc x n) ((x.index.find? (·.1 == n)).map Prod.snd) bs

/-- The address and length of what `n` bytes written through a descriptor span (R83). -/
def spanOf (d gang n : Nat) : Nat × Nat :=
  if dSkew d then
    let ps := skewed d gang (zeros n)
    let hi := (ps.map fun p => p.1 + (p.2.length : Int)).foldl max 0
    (dBase d, hi.toNat)
  else
    let unit := max 1 (dUnit d)
    let offs := ((streamOffsets d none).filterMap id).take (ceilDiv n unit)
    match offs with
    | [] => (dBase d, 0)
    | o :: r =>
      let lo := r.foldl min o
      let hi := r.foldl max o
      ((dBase d + lo : Int).toNat, (hi - lo).toNat + min unit n)

-- Ending a work item

/-- The handles that name an output's bytes (R83): an HBM output longer than one handle names takes several. -/
def handlesFor (s : State) (d gang n tag : Nat) : List Nat :=
  let sp := spanOf d gang n
  if n = 0 || sp.2 = 0 then []
  else match tileOf sp.1 with
    | some (t, off) => [tileHandle t off sp.2 (s.gen t (off / 4096)) tag]
    | none => (List.range (ceilDiv sp.2 4194176)).map fun i => hbmHandle (sp.1 + 4194176 * i) (min 4194176 (sp.2 - 4194176 * i)) tag

/-- A completion record (R106). -/
def recordFor (x : Running) (fault flags aux : Nat) : Nat :=
  packed [(0, satTo 16 aux), (24, fault), (27, x.item.template), (43, x.item.stage), (52, x.item.req)] + flags

/-- What has entered the mesh's control class gets the next number, by which flits from one source to one destination keep their order
(R93). -/
def sendNext (s : State) : State := { s with meshNext := s.meshNext + 1 }

/-- A handle leaves for a Sluice queue with a credit when an entry there is free, else it waits for one (R85). -/
def sendHandle (src dst queue : Nat) (e : QEntry) (run : Nat) (s : State) : State :=
  let y := s.tile dst
  let n := (lookupD queue y.sluice []).length + lookupD queue y.reserved 0
  let waits := s.sluiceFlights.any fun f => f.src == src && f.dst == dst && f.queue == queue && !f.credit
  let credit := decide (n < 64) && !waits
  let s : State := { s with sluiceFlights := s.sluiceFlights ++ [{ src, dst, queue, entry := e, run, credit, sent := s.meshNext }] }
  if credit then (s.setTile dst fun y => { y with reserved := insertKey queue (lookupD queue y.reserved 0 + 1) y.reserved }).sendNext else s

/-- Handles of a work item leave for the Hopper or its Sluice queue (R105, R117); `from'` numbers the first among its hand-offs.
Those of an ended request are discarded (R87). -/
def postHandles (t : Nat) (x : Running) (from' : Nat) (hs : List Nat) (s : State) : State :=
  let w := x.item.wi
  if !(wOutHopper w) && (wOutQ w).isNone then s
  else if (s.live? x.item.req x.item.reqOrder).isNone && !x.item.isShared then s.releaseBuffers hs
  else if wOutHopper w then
    { s with handoffs := s.handoffs ++ hs.zipIdx.map fun (h, i) =>
        { req := x.item.req, reqOrder := x.item.reqOrder, run := x.run, opcode := wOpcode w
          hand := { stage := x.item.stage, template := x.item.template, order := from' + i, handle := h } } }
  else
    let dst := s.poolTile x.item.pool (wOutTile w)
    hs.foldl (fun s h => s.sendHandle t dst ((wOutQ w).getD 0) { handle := h, req := x.item.req, reqOrder := x.item.reqOrder } x.run) s

/-- Whether an item is of the template whose handles come last in its stage's output, as R117 numbers them. -/
def lastProducer (s : State) (i : Item) : Bool :=
  match s.planKey? i.plan with
  | some pl =>
    let on := ((s.req? i.req).map (·.adapter.isSome)).getD false
    (((stageItems pl i.stage).filter fun t => (wOutHopper t.2 || (wOutQ t.2).isSome) && (on || !(adapterOnly t.2))).getLast?.map Prod.fst) == some i.template
  | none => true

/-- A work item's output handles leave: LAST marks the last of its stage's output for the request, POISON all after a fault (R83,
R86). -/
def sendHandles (t : Nat) (x : Running) (hs : List Nat) (poison : Bool) (s : State) : State :=
  let last := s.lastProducer x.item
  let hs := hs.zipIdx.map fun (h, i) => if last && i + 1 = hs.length then setLast h else h
  s.postHandles t x 0 (if poison then hs.map setPoison else hs)

/-- The completion of a work item that ends: signals travel with it (R105, R128). -/
def completionFor (t : Nat) (x : Running) (fault flags aux : Nat) (rejected : Bool) : Completion :=
  let w := x.item.wi
  { record := recordFor x fault flags aux, reqOrder := x.item.reqOrder, run := x.run, tile := t, pool := x.item.pool, opcode := wOpcode w
    signals := (if wOpcode w = 0x02 then [(wImm w 0, wImm w 1)] else []) ++ (match wDone w with
      | some g => [(g, 1)]
      | none => [])
    rejected, isShared := x.item.isShared, released := x.handles }

/-- A work item may wait for HBM: one of its sources, or a ring that HBM feeds (R310). -/
def readsHbm (x : Running) : Bool :=
  (x.slots.any fun p => (inSlots x.item.wi).contains p.1 && (inHbm (dBase p.2) || decide (2 ≤ dRingSlots p.2)))
  || x.index.any fun p => inHbm (dBase p.2)

/-- The counters that may rise when a work item ends: bank waits and stream stalls (R62, R81), waits for a full ring, and what an HBM read
waited for: bank and refresh, the pool's share, background work (R310). Retries are charged when they happen. -/
def waitCounters (t : Nat) (x : Running) : List Nat :=
  let p := x.item.pool
  [tileCtr t 0, tileCtr t 0x28]
  ++ (if (outSlots x.item.wi).any fun n => decide (2 ≤ dRingSlots (slotDesc x n)) then [tileCtr t 0x10] else [])
  ++ (if readsHbm x then [poolCtr p 8, poolCtr p 0x10, poolCtr p 0x28] else [])
/-- How long a work item waited is open: when it ends, these counters rise by free amounts (log 30). -/
def chargeWaits (t : Nat) (x : Running) (s : State) : State := (waitCounters t x).foldl chargeFree s

/-- A fault of a work item is counted by its cause, and a plan fault logged (R99, R446). -/
def noteFault (t : Nat) (req fault : Nat) (s : State) : State :=
  let s := if fault = 0 then s else s.count (tileCtr t (0x38 + 8 * fault)) 1
  if inRange 1 5 fault then s.containedEvent { cause := 0x20, unit := 0, unitIndex := t, req := some req, detail := fault } fnPools else s

/-- An ended work item's handles leave (R105): then its record does, or the producer waits for credits, which counts, and its tile with
it (R85). -/
def closeItem (t : Nat) (c : Closing) (s : State) : State :=
  let x := c.x
  let w := x.item.wi
  let s := (s.chargeWaits t x).noteFault t x.item.req c.fault
  let s := if wFlush w then s.flushCache t else s
  let hs := c.spans.flatMap fun p => s.handlesFor (slotDesc x p.1) (wGang w) p.2 (wOutTag w)
  let s := s.sendHandles t x hs (c.fault != 0)
  let done := completionFor t x c.fault c.flags c.aux c.rejected
  let mine := fun (y : Running) => y.run == x.run
  if s.waitsForCredit t x.run then
    (s.chargeFree (tileCtr t 0x20)).setTile t fun y => { y with
      running := y.running.map fun z => if mine z then { z with waits := 4 } else z, closing := y.closing ++ [{ c with done := some done }] }
  else { s.setTile t fun y => { y with running := y.running.filter fun z => !(mine z) } with completions := s.completions ++ [done] }

/-- A work item ends (R99, R105). `spans` are the slots written with their bytes, `rings` the producers that its ring outputs leave: with
any, its handles and its record follow the last fill, and the tile is free until then. -/
def endItem (t : Nat) (x : Running) (fault flags aux : Nat) (rejected : Bool) (spans : List (Nat × Nat)) (rings : List Producer) (s : State) : State :=
  let c : Closing := { x, fault, flags, aux, rejected, spans }
  if rings.isEmpty then s.closeItem t c
  else s.setTile t fun y => { y with running := none, producers := y.producers ++ rings, closing := y.closing ++ [c] }

/-- The slots that a faulting work item's handles name, as their descriptors span them. -/
def faultSpans (x : Running) : List (Nat × Nat) :=
  (outSlots x.item.wi).filterMap fun n =>
    if (x.slots.any (·.1 == n)) && dRingSlots (slotDesc x n) = 0 then some (n, (streamOffsets (slotDesc x n) none).length * dUnit (slotDesc x n)) else none

/-- A work item ends with a fault: outputs written so far stay, its handles name what its slots span and are poisoned (R86,
R99). -/
def faultItem (t : Nat) (x : Running) (fault : Nat) (s : State) : State := s.endItem t x fault 0 0 false (faultSpans x) []

/-- Outputs written slot by slot; ring slots become producers (R80). -/
def writeOuts (io : Io) (t : Nat) (x : Running) :
    List (Nat × Bytes) → State → Except Nat (List (Nat × Nat) × List Producer) × State
  | [], s => (.ok ([], []), s)
  | (n, bs) :: r, s =>
    let d := slotDesc x n
    if 2 ≤ dRingSlots d then
      let size := innerUnits d * dUnit d
      let tile := match targetOf (dBase d) with
        | .tile u => u
        | _ => t
      let prod : Producer := { tile, desc := d, gang := wGang x.item.wi, key := stageKey x.item, run := x.run
                               fills := (chunks (max 1 size) bs).take (dCount d (dNdim d - 1)), credits := if tile = t then 0 else dRingSlots d + 1 }
      match writeOuts io t x r s with
      | (.ok o, s) => (.ok (o.1, prod :: o.2), s)
      | e => e
    else match writeSlot io x n bs s with
      | (some f, s) => (.error f, s)
      | (none, s) =>
        match writeOuts io t x r s with
        | (.ok o, s) => (.ok ((n, bs.length) :: o.1, o.2), s)
        | e => e

/-- A work item's outputs are written and it ends. -/
def finishItem (t : Nat) (x : Running) (o : OpOut) (s : State) : State :=
  let io := s.ioFor t x.item
  let s := if o.conv = 0 then s else s.count (tileCtr t 0x30) o.conv
  match writeOuts io t x o.writes s with
  | (.error f, s) => s.faultItem t x f
  | (.ok p, s) => s.endItem t x 0 o.flags o.aux false p.1 p.2

-- Running an opcode

/-- The item that runs on a tile with an opcode, ready to act: every remote or ring operand is there and it waits for
nothing. -/
def running? (s : State) (t code : Nat) : Option Running :=
  (s.tile t).running.filter fun x => wOpcode x.item.wi == code && x.toFetch.isEmpty && x.waits == 0 && s.workTile t

/-- An opcode's work: its input slots are read and `f` acts on their bytes; a stream fault ends it (R99). -/
def runOp (t code : Nat) (f : Running → (Nat → Bytes) → State → State) (s : State) : State :=
  match s.running? t code with
  | none => s
  | some x =>
    match readSlots (s.ioFor t x.item) x (inSlots x.item.wi) s with
    | (.error c, s) => s.faultItem t x c
    | (.ok bs, s) => f x (fun n => lookupD n bs []) s

-- Starting a work item

/-- Handles that an item takes from its IN_Q: one per IN_HANDLE slot, and a pooling item's chunk (R206). -/
def handlesWanted (w : Nat) : Nat :=
  ((wSlots w).filter fun n => wBaseSrc w n == 5).length + (if inRange 0x51 0x53 (wOpcode w) then 1 else 0)

/-- The entries that an item dequeues from its queue, in order of arrival among those of its request, whose handles R87 discards with it
(log 109); none when they have not all arrived. NORMALISE takes the handles of a text field as they come (R222). -/
def dequeue (s : State) (t : Nat) (i : Item) : Option (List QEntry) :=
  match wInQ i.wi with
  | none => some []
  | some q =>
    let mine := (lookupD q (s.tile t).sluice []).filter fun e => e.req == i.req && e.reqOrder == i.reqOrder
    let n := if wOpcode i.wi = opNormalise then min 1 mine.length else handlesWanted i.wi
    if wOpcode i.wi = opNormalise && mine.isEmpty then none else if n ≤ mine.length then some (mine.take n) else none

/-- A handle may be read (R83, R84, R99): none, or its fault cause. Of two faults of one handle the first here is the one reported: an
HBM form's reserved bit before its range, a tile beyond the last before the limit, the limit before a stale generation (log 136). -/
def handleFault (s : State) (h : Nat) : Option Nat :=
  if isHbmHandle h then (if bitAt h 56 then some 5 else if hbmBytes < handleAddr h + handleBytes h then some 1 else none)
  else
    let t := fld h 10 0
    if s.tileCount ≤ t then some 1
    else if s.tileLimit t < fld h 29 11 + handleBytes h then some 4
    else if s.gen t (fld h 29 11 / 4096) != fld h 56 49 then some 3 else none

/-- Entries leave a queue; freed places send credits to producers that wait (R85). -/
def takeEntries (t q : Nat) (es : List QEntry) (s : State) : State :=
  let s := s.setTile t fun x => { x with sluice := insertKey q (es.foldl List.erase (lookupD q x.sluice [])) x.sluice }
  es.foldl (fun s _ =>
    let sent := s.sluiceCredits.filter fun c => c.dst == t && c.queue == q
    match (s.sluiceFlights.filter fun f => f.dst == t && f.queue == q && !f.credit)[sent.length]? with
    | some f => (({ s with sluiceCredits := s.sluiceCredits ++ [{ src := f.src, dst := t, queue := q, sent := s.meshNext }] } : State).setTile t fun x =>
        { x with reserved := insertKey q (lookupD q x.reserved 0 + 1) x.reserved }).sendNext
    | none => s) s

/-- Why a model's context cannot be read (R311): the address of a listed line among its pinned regions, or of a Grist object that fails,
and which of the two. -/
def contextBad (s : State) (m : Model) : Option (Nat × Bool) :=
  (m.regions.filter (·.hint == 1)).findSome? fun r =>
    match s.badLineIn r.base r.held with
    | some l => some (l * 64, true)
    | none =>
      let rd := fun (o n : Nat) => s.readMem (r.base + o) n
      if r.coded && ((gristHead rd r.decoded).bind (gristDecode rd)).isNone then some (r.base, false) else none

/-- The on-chip context of a model on a pool's tile: its PIN_TILE regions in order, each from a 128-byte boundary, replicated, or the slice
of z bytes that is the tile's, filled up with zeros beyond the region's end (R302). -/
def contextFor (s : State) (m : Model) (rel tiles : Nat) : Bytes :=
  (m.regions.filter (·.hint == 1)).foldl (fun acc r =>
    let raw := if r.coded then
        let rd := fun (o n : Nat) => s.readMem (r.base + o) n
        ((gristHead rd r.decoded).bind (gristDecode rd)).getD []
      else s.readMem r.base r.decoded
    let z := alignUp (ceilDiv r.decoded tiles) 128
    padTo 128 acc ++ (if r.isSliced then fit z (slice raw (rel * z) z) else raw)) []

/-- A tile loads another model's context into the top of its stage footprint before it runs the model's work (R274); regions that cannot be
read fault the item with cause 6 (R311). -/
def swapContext (t : Nat) (i : Item) (s : State) : Option Nat × State :=
  match s.req? i.req, s.planKey? i.plan with
  | some q, some pl =>
    let st := pl.stages[i.stage]?
    let uses := (st.map fun x => x.kind == 4 || x.kind == 5).getD false || (wSlots i.wi).any fun n => wBaseSrc i.wi n == 3
    match q.model.bind fun m => s.modelKey? m.2 with
    | some m =>
      if uses && (s.tile t).context != some m.obj.key then
        match s.contextBad m with
        | some (a, true) => (some 6, s.badRead i.req (a / 64))
        | some (a, false) => (some 6, (s.gristFail { tile := t, pool := i.pool, req := i.req } a).2)
        | none =>
          let at' := ((st.map (·.footprint)).getD 0) - m.ctxTileBytes
          let n := ((s.poolCfg? i.pool).map (·.tiles)).getD 1
          let r := s.tileWrite (some i.req) (tileWindow t + at') (fit m.ctxTileBytes (s.contextFor m (s.relIndex i.pool t) n))
          (r.1, (r.2.setTile t fun x => { x with context := some m.obj.key, contextAt := at' }).count (poolCtr i.pool 0x50) 1)
      else (none, s)
    | none => (none, s)
  | _, _ => (none, s)

/-- The slots' final descriptors on a tile: TILE_LOCAL and IN_HANDLE bases and counts (R102); the first fault met: a base that the Hopper
could not give, then the handles in order, then an empty count, then a broken rule of R78 (log 136). An index descriptor is relocated as
the slot that it drives, since R102 gives it no base source of its own (log 138). -/
def placeSlots (s : State) (t : Nat) (i : Item) (hs : List Nat) : List (Nat × Nat) × List (Nat × Nat) × Nat :=
  let w := i.wi
  let inQ := (wSlots w).filter fun n => wBaseSrc w n == 5
  let handleOf := fun (n : Nat) => hs[inQ.findIdx (· == n)]?
  let move := fun (n d : Nat) => match wBaseSrc w n with
    | 7 => setBase d (dBase d + tileWindow t)
    | 5 => (match handleOf n with
      | some h => setBase d (dBase d + handleAddr h)
      | none => d)
    | _ => d
  let slots := i.descs.map fun p =>
    let d := move p.1 p.2
    (p.1, if wBaseSrc w p.1 = 5 && wLenFrom w p.1 then (match handleOf p.1 with
      | some h => setCount d (dNdim d - 1) (countFrom d h)
      | none => d) else d)
  let index := i.indexDescs.map fun p => (p.1, move p.1 p.2)
  let missing := (wSlots w).any fun n => !(i.descs.any (·.1 == n))
  let empty := slots.any fun p => wLenFrom w p.1 && dCount p.2 (dNdim p.2 - 1) == 0
  let bad := (hs ++ i.inHandles.map Prod.snd).findSome? s.handleFault
  let shape := slots.any fun p => !(targetOk p.2 (inHbm (dBase p.2)) (targetOf (dBase p.2) == .tile t))
  (slots, index, if missing then 1 else match bad with
    | some f => f
    | none => if empty then 4 else if shape then 1 else 0)

/-- Input slots whose bytes come from a ring or from another tile's memory, and the latter alone. -/
def slotsToFetch (w t : Nat) (slots : List (Nat × Nat)) : List Nat × List Nat :=
  let ins := slots.filter fun p => (inSlots w).contains p.1
  let ring := ins.filter fun p => decide (2 ≤ dRingSlots p.2)
  let remote := ins.filter fun p => !(decide (2 ≤ dRingSlots p.2)) && (match targetOf (dBase p.2) with
    | .tile u => u != t
    | _ => false)
  ((ring ++ remote).map Prod.fst, remote.map Prod.fst)

/-- WORK_ITEM_START (R120): the item at the head of the local queue starts once its input handles are there (R85); a fault met
then ends it at once (R99), a poisoned input too (R86). -/
def doWorkItemStart (t : Nat) (s : State) : State :=
  match (s.tile t).queue, (s.tile t).running with
  | i :: rest, none =>
    if !(s.workTile t) then s
    else match s.dequeue t i with
      | none => s
      | some es =>
        let hs := es.map (·.handle)
        let s := match wInQ i.wi with
          | some q => s.takeEntries t q es
          | none => s
        let c := s.swapContext t i
        let s := c.2
        let p := s.placeSlots t i hs
        let f := slotsToFetch i.wi t p.1
        let x : Running := { item := i, run := s.runNext, slots := p.1, index := p.2.1, handles := hs, toFetch := f.1 }
        let s : State := { s with runNext := s.runNext + 1 }
        let s := s.setTile t fun y => { y with queue := rest, running := some x, gang := if wOpcode i.wi / 16 = 1 then wGang i.wi else y.gang }
        let poisoned := (hs ++ i.inHandles.map Prod.snd).any handlePoison
        if p.2.2 != 0 then s.faultItem t x p.2.2
        else if poisoned then s.faultItem t x 7
        else if c.1.isSome then s.faultItem t x 6
        else { s with remoteReads := s.remoteReads ++ f.2.map fun n => { reader := t, slot := n } }
  | _, _ => s

-- Remote reads and rings (R80, R81, R95)

/-- The running item of a tile changed. -/
def setRunning (t : Nat) (f : Running → Running) (s : State) : State := s.setTile t fun y => { y with running := y.running.map f }

/-- REMOTE_READ (R95): a read of another tile's memory is served, after the earlier ones of its reader to that tile (R93). -/
def doRemoteRead (i : Nat) (s : State) : State :=
  match s.remoteReads[i]? with
  | none => s
  | some rr =>
    match (s.tile rr.reader).running with
    | none => { s with remoteReads := s.remoteReads.eraseIdx i }
    | some x =>
      let source := fun (n : Nat) => targetOf (dBase (slotDesc x n))
      if (s.remoteReads.take i).any fun q => q.reader == rr.reader && source q.slot == source rr.slot then s
      else
        let s : State := { s with remoteReads := s.remoteReads.eraseIdx i }
        if x.toFetch.contains rr.slot then
          match s.readStream (s.ioFor rr.reader x.item) (slotDesc x rr.slot) ((x.index.find? (·.1 == rr.slot)).map Prod.snd) with
          | (.error c, s) => { s with remoteReads := s.remoteReads.filter (·.reader != rr.reader) }.faultItem rr.reader x c
          | (.ok bs, s) => s.setRunning rr.reader fun x => { x with fetched := (rr.slot, bs) :: x.fetched, toFetch := x.toFetch.erase rr.slot }
        else s

/-- The producer of a tile's ring: the tile whose stream engine it is, and its place there. -/
def producerOf (s : State) (t ring : Nat) : Option (Nat × Nat × Producer) :=
  s.tiles.findSome? fun p => (p.2.producers.findIdx? fun x => x.tile == t && dRingId x.desc == ring).bind fun i =>
    p.2.producers[i]?.map fun x => (p.1, i, x)

/-- The ended item of a run of tile `u` that its ring fills keep open. -/
def closingOf (s : State) (u run : Nat) : Option Closing := (s.tile u).closing.find? fun c => c.x.run == run && c.done.isNone

/-- An item whose last ring fill has landed, or one of whose fills has faulted, ends: no ring of it fills on (R99). -/
def closeRun (u run : Nat) (fault : Nat) (s : State) : State :=
  match s.closingOf u run with
  | none => s
  | some c =>
    let s := s.setTile u fun y => { y with producers := y.producers.filter (·.run != run), closing := y.closing.erase c }
    s.closeItem u (if fault = 0 then c else { c with fault, flags := 0, aux := 0, spans := faultSpans c.x })

/-- RING_FILL_LANDED (R81): the next fill lands in slot tail mod N of a ring that is not full, for a remote producer against a
credit; after its last fill the producing item completes. -/
def doRingFillLanded (t ring : Nat) (s : State) : State :=
  match s.producerOf t ring with
  | none => s
  | some (u, i, x) =>
    let r := s.ringOf t ring x.key
    let n := dRingSlots x.desc + 1
    match x.fills, s.closingOf u x.run with
    | b :: rest, some c =>
      if r.1 + n ≤ r.2 || (u != t && x.credits = 0) then s
      else
        let o := dNdim x.desc - 1
        match s.writeAt { tile := u, pool := c.x.item.pool, req := c.x.item.req } x.gang (innerOf x.desc)
            (dBase x.desc + ((r.2 % n : Nat) : Int) * dStride x.desc o) b with
        | (some f, s) => s.closeRun u x.run f
        | (none, s) =>
          let s := s.setRing t ring x.key (r.1, r.2 + 1)
          if rest.isEmpty then
            let s := s.setTile u fun y => { y with producers := y.producers.eraseIdx i }
            if (s.tile u).producers.any (·.run == x.run) then s else s.closeRun u x.run 0
          else s.setTile u fun y => { y with producers := modifyAt i (fun z => { z with fills := rest, credits := z.credits - 1 }) y.producers }
    | _, _ => s

/-- RING_SLOT_RELEASE (R81): the running item reads slot head mod N of a ring that is not empty and releases it; the advance
travels to a remote producer as a credit. -/
def doRingSlotRelease (t ring : Nat) (s : State) : State :=
  match (s.tile t).running with
  | none => s
  | some x =>
    match x.slots.find? fun p => x.toFetch.contains p.1 && decide (2 ≤ dRingSlots p.2) && dRingId p.2 == ring with
    | none => s
    | some (n, d) =>
      let key := stageKey x.item
      let r := s.ringOf t ring key
      if r.2 ≤ r.1 then s
      else
        let o := dNdim d - 1
        let slots := dRingSlots d + 1
        match s.readUnits (s.ioFor t x.item) 0 (targetOf (dBase d)) (dBase d + ((r.1 % slots : Nat) : Int) * dStride d o) (dUnit d)
            (streamOffsets (innerOf d) none) with
        | (.error c, s) => s.faultItem t x c
        | (.ok bs, s) =>
          let s := s.setRing t ring key (r.1 + 1, r.2)
          let got := lookupD n x.fetched [] ++ bs
          let whole := decide (dCount d o * innerUnits d * dUnit d ≤ got.length)
          let s := s.setRunning t fun x => { x with fetched := insertKey n got x.fetched, toFetch := if whole then x.toFetch.erase n else x.toFetch }
          match s.producerOf t ring with
          | some (u, _, _) => if u = t then s else { s with ringCredits := s.ringCredits ++ [(u, t, ring)] }
          | none => s

/-- RING_CREDIT_ARRIVAL (R81). -/
def doRingCreditArrival (i : Nat) (s : State) : State :=
  match s.ringCredits[i]? with
  | none => s
  | some c =>
    ({ s with ringCredits := s.ringCredits.eraseIdx i } : State).setTile c.1 fun y => { y with
      producers := y.producers.map fun (x : Producer) =>
        if x.tile == c.2.1 && dRingId x.desc == c.2.2 then { x with credits := x.credits + 1 } else x }

-- The Sluice (R85)

/-- Something of the control class that left one place for another earlier is still on its way (R93): a handle, a payload or a credit. -/
def overtakes (s : State) (src dst sent : Nat) : Bool :=
  s.sluiceFlights.any (fun f => f.credit && f.src == src && f.dst == dst && decide (f.sent < sent))
  || s.leats.any (fun f => f.src == src && f.dsts.contains dst && decide (f.sent < sent))
  || s.sluiceCredits.any fun c => c.dst == src && c.src == dst && decide (c.sent < sent)

/-- SLUICE_HANDLE_ARRIVAL (R85, R93): a handle with its credit enters its queue, after what its producer sent to that tile before. -/
def doSluiceHandleArrival (i : Nat) (s : State) : State :=
  match s.sluiceFlights[i]? with
  | none => s
  | some f =>
    let earlier := (s.sluiceFlights.take i).any fun g => g.src == f.src && g.dst == f.dst && g.queue == f.queue
    if !f.credit || earlier || s.overtakes f.src f.dst f.sent then s
    else
      ({ s with sluiceFlights := s.sluiceFlights.eraseIdx i } : State).setTile f.dst fun x => { x with
        sluice := insertKey f.queue (lookupD f.queue x.sluice [] ++ [f.entry]) x.sluice
        reserved := insertKey f.queue (lookupD f.queue x.reserved 0 - 1) x.reserved }

/-- SLUICE_CREDIT_ARRIVAL (R85, R93): the producer's oldest waiting handle for that queue gets its entry, and a producer that waited for
nothing else ends its work item; a credit that finds none gives the entry back. -/
def doSluiceCreditArrival (i : Nat) (s : State) : State :=
  match s.sluiceCredits[i]? with
  | none => s
  | some c =>
    if s.overtakes c.dst c.src c.sent then s
    else
      let s : State := { s with sluiceCredits := s.sluiceCredits.eraseIdx i }
      let mine := fun (f : SluiceFlight) => f.src == c.src && f.dst == c.dst && f.queue == c.queue && !f.credit
      if s.sluiceFlights.any mine then
        (({ s with sluiceFlights := modifyFirst mine (fun f => { f with credit := true, sent := s.meshNext }) s.sluiceFlights } : State).sendNext).settleClosing c.src
      else s.setTile c.dst fun x => { x with reserved := insertKey c.queue (lookupD c.queue x.reserved 0 - 1) x.reserved }

end State
end Sys2Proof.Machine
end

