-- ==== Sys2Proof/Machine/Coll.lean ====
section
/-! DEFINITION. Messages between devices about one request or object: COLL headers (R369), the session that reaches an owner
(R341), exchanges and their requests (R209, R252), and reads and writes of HBM by the port and the Hopper (R447). -/

namespace Sys2Proof.Machine

/-- The header of a COLL message (R369). -/
structure CollHead where
  op : Nat
  level : Nat := 0
  rank : Nat := 0
  origin : Nat := 0
  number : Nat := 0
  req : Nat := 0
  budget : Nat := 0
  coverage : Nat := 0
  deriving DecidableEq, Repr

def CollHead.encode (h : CollHead) : Bytes :=
  record 64 [(0, h.op), (8, h.level), (16, h.rank), (24, h.origin), (32, h.number), (64, h.req), (96, h.budget), (128, h.coverage)]
def CollHead.decode (p : Bytes) : CollHead :=
  let n := uAt p 0 64
  { op := fld n 7 0, level := fld n 15 8, rank := fld n 23 16, origin := fld n 31 24, number := fld n 63 32, req := fld n 75 64
    budget := fld n 127 96, coverage := fld n 383 128 }
/-- A whole header with its reserved bits 0. -/
def collOk (p : Bytes) : Bool := decide (64 ≤ p.length) && fld (uAt p 0 64) 95 76 == 0 && fld (uAt p 0 64) 511 384 == 0

/-- Microseconds left of a MESH count, rounded down (R24). -/
def usOf (counts : Nat) : Nat := counts * 100 / 120006
/-- MESH counts of a budget in microseconds, rounded up (R24). -/
def countsOf (us : Nat) : Nat := ceilDiv (us * 120006) 100

/-- The row request header of R209, used by R252 too. -/
def rowHeader (magic xid table version mapVersion n share : Nat) : Bytes :=
  record 32 [(0, magic), (32, xid), (48, table), (64, version), (96, mapVersion), (128, n), (160, share)]
/-- The row reply header of R209. -/
def replyHeader (magic xid table status n stride : Nat) : Bytes :=
  record 32 [(0, magic), (32, xid), (48, table), (64, status), (128, n), (160, stride)]

/-- The reserved bits of a reply header are 0 (R10, R209). -/
def replyWhole (r : Nat) : Bool := fld r 63 57 == 0 && fld r 127 72 == 0 && fld r 255 176 == 0

namespace State

/-- The device index that stands for this device in maps, entries and collectives: TWIN_A's for a pair (R341). -/
def pairIndex (s : State) : Nat := if s.cfg.twin.role = 2 then s.cfg.twin.partner else s.cfg.peers.selfIndex

/-- The devices that answer for an index, in the order they are tried: itself, then the other device of a pair (R341). -/
def answersFor (s : State) (dev : Nat) : List Nat :=
  let twins := (s.cfg.peers.devices.filter (·.role == 1)).map (·.index)
  dev :: (if twins.contains dev then (twins.filter (· != dev)) else [])

/-- The session that reaches an owner; none when it is LOST. -/
def ownerSession (s : State) (dev : Nat) : Option Nat := (s.answersFor dev).findSome? s.sessionOfDevice

/-- The budget that a COLL message carries, in µs; 0 for none. -/
def collBudget (s : State) (q : Request) : Nat := match q.deadline with
  | some d => min (2 ^ 32 - 1) (max 1 (usOf (d - s.meshCount)))
  | none => 0

def sendColl (sid : Nat) (h : CollHead) (body : Bytes) (s : State) : State := s.sendMessage sid 0x70 0 false (h.encode ++ body)

/-- A new exchange number of at most `bits` bits that no exchange in progress uses. -/
def newXid (bits : Nat) (s : State) : Nat × State :=
  let n := s.nextXid
  let busy := s.exchanges.map fun e => e.xid % 2 ^ bits
  let x := ((List.range (busy.length + 1)).map fun i => (n + i) % 2 ^ bits).find? fun y => !(busy.contains y)
  (x.getD (n % 2 ^ bits), { s with nextXid := n + 1 })

end State
end Sys2Proof.Machine
end

