-- ==== Sys2Proof/Machine/Tables.lean ====
section
/-! DEFINITION. Embedding tables and passage stores (R192 to R200, R247 to R249, R364, R391, R448): shard maps, TABLE_WRITE,
TABLE_SWITCH, TABLE_RELEASE, and BG_SLAB_COPY. -/

namespace Sys2Proof.Machine

/-- What applying a durable write gives: the state, and unless the write waits its outcome, the values assigned, and the write as
it is mirrored (a blob as its plaintext, R392). -/
abbrev Applied := State × Option (Outcome × Bytes × Write)

/-- A write that is refused and changes nothing. -/
def refused (s : State) (w : Write) (o : Outcome) : Applied := (s, some (o, [], w))

-- Shard maps (R195)

/-- The owner and local row of a global row. -/
def ShardMap.locate (m : ShardMap) (row : Nat) : Option (Nat × Nat) :=
  ((m.ranges.filter fun r => decide (r.1 ≤ row)).getLast?).map fun r => (r.2.2, r.2.1 + (row - r.1))

/-- The ranges with their row counts, for a table of `rows` rows: (first local row, count, owner). -/
def ShardMap.spans (m : ShardMap) (rows : Nat) : List (Nat × Nat × Nat) :=
  List.zipWith (fun (r : Nat × Nat × Nat) (next : Nat) => (r.2.1, next - r.1, r.2.2)) m.ranges ((m.ranges.map (·.1)).drop 1 ++ [rows])

/-- The local rows that a device owns, as first and count. -/
def ShardMap.owned (m : ShardMap) (rows dev : Nat) : List (Nat × Nat) :=
  ((m.spans rows).filter (·.2.2 == dev)).map fun r => (r.1, r.2.1)

def ShardMap.encode (rows : Nat) (m : ShardMap) : Bytes :=
  record 32 [(0, 0x50444D53), (32, m.version), (64, m.ranges.length), (104, rows)]
    ++ m.ranges.flatMap fun r => record 16 [(0, r.1), (40, r.2.1), (72, r.2.2)]

/-- A shard map read and checked for a table of `rows` rows: layout, then its relations, with the most local rows that a device holds (R194, R195,
R358). -/
def readMap (rows : Nat) (bs : Bytes) : Except Outcome ShardMap :=
  let h := uAt bs 0 32
  let n := fld h 95 64
  let rs := recordsAt bs 32 16 n
  if fld h 31 0 != 0x50444D53 || fld h 255 144 != 0 || fld h 103 96 != 0 || !(inRange 1 65536 n) || !(inRange 1 0xFFFFFFFE (fld h 63 32))
      || bs.length != 32 + 16 * n || rs.any (fun r => fld r 127 80 != 0) then .error refMalformed
  else
    let m : ShardMap := { version := fld h 63 32, ranges := rs.map fun r => (fld r 39 0, fld r 71 40, fld r 79 72) }
    let firsts := m.ranges.map (·.1)
    let spans := m.spans rows
    let owners := (spans.map (·.2.2)).eraseDups
    if fld h 143 104 != rows || firsts.head? != some 0 || !(ascending firsts) || firsts.any (fun f => decide (rows ≤ f))
        || spans.any (fun r => decide (2 ^ 32 < r.1 + r.2.1))
        || owners.any (fun o => decide (0xFFFFFFFF < ((m.owned rows o).map Prod.snd).sum)) || owners.any (fun o => !(disjoint (m.owned rows o))) then .error refCheck
    else .ok m

-- The messages (R364)

/-- The fields of a TABLE_WRITE. -/
structure TableMsg where
  version : Nat
  copyFrom : Nat
  first : Nat
  count : Nat
  id : Nat
  isStore : Bool
  isFinal : Bool
  hasMap : Bool
  wrapped : Bool
  deriving DecidableEq, Repr

def tableMsg (p : Bytes) : TableMsg :=
  let x := uAt p 24 4
  { version := uAt p 8 4, copyFrom := uAt p 12 4, first := uAt p 16 4, count := uAt p 20 4, id := fld x 8 0, isStore := bitAt x 9
    isFinal := bitAt x 10, hasMap := bitAt x 11, wrapped := bitAt x 12 }
def tableMsgOk (p : Bytes) : Bool := decide (28 ≤ p.length) && fld (uAt p 24 4) 31 13 == 0

/-- Rows of one slab (R194). -/
def slabRows : Nat := 8388608

/-- The parts of rows `first` to `first + count - 1` by slab: slab, first row in it, first row of the part, rows. -/
def slabParts (first count : Nat) : List (Nat × Nat × Nat × Nat) :=
  if count = 0 then [] else
    (List.range ((first + count - 1) / slabRows + 1 - first / slabRows)).map fun i =>
      let n := first / slabRows + i
      let lo := max first (n * slabRows)
      let hi := min (first + count) ((n + 1) * slabRows)
      (n, lo - n * slabRows, lo - first, hi - lo)

/-- Rows taken out of some row ranges. -/
def subtractRows (rs : List (Nat × Nat)) (a n : Nat) : List (Nat × Nat) :=
  rs.flatMap fun r =>
    if a + n ≤ r.1 || r.1 + r.2 ≤ a then [r]
    else (if r.1 < a then [(r.1, a - r.1)] else []) ++ (if a + n < r.1 + r.2 then [(a + n, r.1 + r.2 - (a + n))] else [])

/-- Row ranges restricted to others. -/
def meetRows (rs own : List (Nat × Nat)) : List (Nat × Nat) :=
  rs.flatMap fun r => own.filterMap fun o =>
    let lo := max r.1 o.1
    let hi := min (r.1 + r.2) (o.1 + o.2)
    if lo < hi then some (lo, hi - lo) else none

/-- Every row of some ranges lies in others. -/
def rowsCovered (want have' : List (Nat × Nat)) : Bool :=
  want.all fun r => covered (r.1 + r.2) (have'.length + 1) r.1 have'

namespace State

def tableCfg? (s : State) (id : Nat) : Option TableCfg := s.cfg.tables.find? (·.id == id)
def storeCfg? (s : State) (id : Nat) : Option StoreCfg := s.cfg.stores.find? (·.id == id)
def table? (s : State) (id v : Nat) : Option TableVer := s.tables.find? fun x => x.table == id && x.version == v
def store? (s : State) (id v : Nat) : Option StoreVer := s.stores.find? fun x => x.store == id && x.version == v
def setTable (v : TableVer) (s : State) : State :=
  { s with tables := s.tables.map fun x => if x.table == v.table && x.version == v.version then v else x }
def setStore (v : StoreVer) (s : State) : State :=
  { s with stores := s.stores.map fun x => if x.store == v.store && x.version == v.version then v else x }
def tableRun (s : State) (id : Nat) : TableRun := (s.tableRuns.find? (·.id == id)).getD { id }
def setTableRun (x : TableRun) (s : State) : State :=
  { s with tableRuns := if s.tableRuns.any (·.id == x.id) then s.tableRuns.map fun y => if y.id == x.id then x else y else s.tableRuns ++ [x] }
def storeRun (s : State) (id : Nat) : StoreRun := (s.storeRuns.find? (·.id == id)).getD { id }
def setStoreRun (x : StoreRun) (s : State) : State :=
  { s with storeRuns := if s.storeRuns.any (·.id == x.id) then s.storeRuns.map fun y => if y.id == x.id then x else y else s.storeRuns ++ [x] }

/-- A slab of a version is shared with another version. -/
def sharedSlab (s : State) (v : TableVer) (n : Nat) : Bool :=
  match v.slabs.find? (·.1 == n) with
  | some x => s.tables.any fun y => !(y.table == v.table && y.version == v.version) && y.slabs.any (·.2 == x.2)
  | none => false

/-- The slab table of a version as it stands in HBM (R194). -/
def writeSlabTable (v : TableVer) (s : State) : State :=
  s.storeHbm none fnLookup v.base ((List.range 512).flatMap fun n => leBytes 8 (((v.slabs.find? (·.1 == n)).map (·.2.1)).getD 0))

/-- A slab of `bytes` bytes for a version, with what it held: it replaces the one the version had. None without memory. -/
def newSlab (v : TableVer) (n bytes : Nat) (s : State) : Option (TableVer × State) :=
  (s.alloc bytes 4096).map fun (r : Nat × State) =>
    let old := v.slabs.find? (·.1 == n)
    let s := match old with
      | some x =>
        let s := r.2.portWrite r.1 (s.readMem x.2.1 (min x.2.2 bytes))
        if s.sharedSlab v n then s else s.release x.2.1 x.2.2
      | none => r.2
    let v := { v with slabs := insertKey n (r.1, bytes) v.slabs }
    (v, (s.setTable v).writeSlabTable v)

/-- Every slab that holds a row the version owns has memory for it (R194). -/
def ensureSlabs (stride : Nat) : List (Nat × Nat) → TableVer → State → Option (TableVer × State)
  | [], v, s => some (v, s)
  | r :: rest, v, s =>
    let step := (slabParts r.1 r.2).foldl (fun (acc : Option (TableVer × State)) p =>
      acc.bind fun a =>
        let bytes := (p.2.1 + p.2.2.2) * stride
        match a.1.slabs.find? (·.1 == p.1) with
        | some x => if bytes ≤ x.2.2 then some a else a.2.newSlab a.1 p.1 bytes
        | none => a.2.newSlab a.1 p.1 bytes) (some (v, s))
    step.bind fun a => ensureSlabs stride rest a.1 a.2

/-- Rows written into a version's slabs. -/
def putRows (stride : Nat) (v : TableVer) (first : Nat) (rows : Bytes) (s : State) : State :=
  (slabParts first (rows.length / stride)).foldl (fun s p =>
    match v.slabs.find? (·.1 == p.1) with
    | some x => s.storeHbm none fnLookup (x.2.1 + p.2.1 * stride) (slice rows (p.2.2.1 * stride) (p.2.2.2 * stride))
    | none => s) s

/-- The stored bytes of local row `i` of a version (R194). -/
def rowAddr (stride : Nat) (v : TableVer) (i : Nat) : Option Nat :=
  (v.slabs.find? (·.1 == i / slabRows)).map fun x => x.2.1 + i % slabRows * stride
def rowBytesOf (s : State) (stride : Nat) (v : TableVer) (i : Nat) : Bytes := match rowAddr stride v i with
  | some a => s.readMem a stride
  | none => zeros stride

/-- Written rows of a version without those in a listed line (R448). -/
def soundRows (s : State) (stride : Nat) (v : TableVer) (rs : List (Nat × Nat)) : List (Nat × Nat) :=
  v.slabs.foldl (fun rs x =>
    (s.errors.badLines.filter fun l => meets x.2.1 x.2.2 (l * 64) 64).foldl (fun rs l =>
      let lo := (max (l * 64) x.2.1 - x.2.1) / stride
      let hi := (min (l * 64 + 63) (x.2.1 + x.2.2 - 1) - x.2.1) / stride
      subtractRows rs (x.1 * slabRows + lo) (hi + 1 - lo)) rs) rs

/-- The digest of a table version (R379). -/
def tableDigest (s : State) (t : TableCfg) (v : TableVer) : Bytes :=
  let own := sortBy (fun (a b : Nat × Nat) => decide (a.1 ≤ b.1)) (v.map.owned t.rows s.pairIndex)
  Config.sha384 (v.map.encode t.rows ++ own.flatMap fun r => (List.range r.2).flatMap fun i => s.rowBytesOf t.stride v (r.1 + i))

/-- The version that a TABLE_WRITE names, opened when it is new (R197); or its refusal. -/
def tableTarget (t : TableCfg) (m : TableMsg) (s : State) : Except Outcome (TableVer × State) :=
  match s.table? t.id m.version with
  | some v =>
    if v.state != 0 || v.released then .error refWrongState else if m.copyFrom != 0 then .error refMalformed else .ok (v, s)
  | none =>
    let run := s.tableRun t.id
    if m.version = 0 || m.version = 0xFFFFFFFF || m.version ≤ run.last then .error refOrder
    else if m.copyFrom = 0 && !m.hasMap then .error refMalformed
    else if 8 ≤ (s.tables.filter (·.table == t.id)).length then .error refLimit
    else
      let src := if m.copyFrom = 0 then none else s.table? t.id m.copyFrom
      if m.copyFrom != 0 && src.isNone then .error refNotHeld
      else match s.alloc 4096 4096 with
        | none => .error refNoMemory
        | some (a, s') =>
          let v : TableVer := {
            opened := some run.last, table := t.id, version := m.version, map := (src.map (·.map)).getD { version := 0, ranges := [] }, base := a
            slabs := (src.map (·.slabs)).getD [], written := (src.map fun x => s.soundRows t.stride x x.written).getD [] }
          let s : State := { s' with tables := s'.tables ++ [v] }
          .ok (v, ((s.setTableRun { run with last := m.version }).writeSlabTable v).bumpObjects)

/-- A TABLE_WRITE of a table with its plaintext body (R197). None: it waits for a slab copy. A refused one leaves the state as it
was; so does one that waits, but for its version being open. A blob whose unwrapping leaves no row unwritten makes the version READY too (R196). -/
def writeTable (t : TableCfg) (m : TableMsg) (body : Bytes) (s0 : State) : State × Option Outcome :=
  let stride := t.stride
  let mapLen := if m.hasMap then 32 + 16 * fld (uAt body 0 32) 95 64 else 0
  let rows := body.drop mapLen
  if rows.length != m.count * stride || body.length < mapLen then (s0, some refMalformed)
  else
    let map' : Except Outcome (Option ShardMap) := if m.hasMap then (readMap t.rows (body.take mapLen)).map some else .ok none
    -- a fault of the layout is named before one of a relation (R358)
    match map', s0.tableTarget t m with
    | .error o, .error e => (s0, some (if o == refMalformed then o else e))
    | .error o, _ => (s0, some o)
    | _, .error o => (s0, some o)
    | .ok mp, .ok (v0, s1) =>
      let s := s1
      let v := v0
      let v := match mp with
        | some x => { v with map := x, written := meetRows v.written (x.owned t.rows s.pairIndex) }
        | none => v
      let own := v.map.owned t.rows s.pairIndex
      let new := if m.count = 0 then [] else [(m.first, m.count)]
      if !(rowsCovered new own) then (s0, some refCheck)
      else if m.isFinal && !(rowsCovered own (v.written ++ new)) then (s0, some refIncomplete)
      else match (s.setTable v).ensureSlabs stride own v with
        | none => (s0, some refNoMemory)
        | some (v, s) =>
          -- until its slabs are copied a write changes nothing but that its version is open
          if (slabParts m.first m.count).any fun p => s.sharedSlab v p.1 then (s1, none)
          else
            let s := s.putRows stride v m.first rows
            let v := { v with written := v.written ++ new, opened := none }
            if m.isFinal || (m.wrapped && rowsCovered own v.written) then
              let v := { v with state := 1 }
              ((s.setTable { v with digest := s.tableDigest t v }).bumpObjects, some {})
            else (s.setTable v, some {})

/-- The body of a TABLE_WRITE in plaintext (R391), and the write as it is mirrored. -/
def tableBody (w : Write) (m : TableMsg) (s : State) : Except Outcome (Bytes × Write) :=
  let body := w.payload.drop 32
  if m.wrapped then
    (s.openBlob w.kind m.id m.version body).map fun plain =>
      (plain, { w with payload := fit 32 (w.payload.take 24 ++ leBytes 4 (uAt w.payload 24 4 - 4096)) ++ plain })
  else .ok (body, w)

/-- A write as it is mirrored, once it has been applied: with FINAL when it made its version READY. -/
def finalForm (s : State) (store : Bool) (id v : Nat) (w : Write) : Write :=
  let x := uAt w.payload 24 4
  let state := if store then (s.store? id v).map (·.state) else (s.table? id v).map (·.state)
  if bitAt x 10 || state != some 1 then w
  else { w with payload := w.payload.take 24 ++ leBytes 4 (x + 1024) ++ w.payload.drop 28 }

-- Passage stores (R248, R249)

/-- Passages of a store write: id and tokens' bytes; none when the body is not exactly `n` of them. -/
def readPassages : Nat → Bytes → Option (List (Nat × Bytes))
  | 0, bs => if bs.isEmpty then some [] else none
  | n + 1, bs =>
    let k := uAt bs 8 4
    let len := alignUp (12 + 4 * k) 8
    if bs.length < len then none else (readPassages n (bs.drop len)).map fun r => (uAt bs 0 8, slice bs 12 (4 * k)) :: r

/-- A passage is placed in a version; the one it replaces goes when no other version shares it. None without memory. -/
def putPassage (v : StoreVer) (p : Nat × Bytes) (s : State) : Option (StoreVer × State) :=
  (s.alloc p.2.length 128).map fun (a : Nat × State) =>
    let s := a.2.portWrite a.1 p.2
    let old := v.passages.find? (·.id == p.1)
    let v' := { v with passages := v.passages.filter (·.id != p.1) ++ [{ id := p.1, addr := a.1, tokens := p.2.length / 4 }] }
    let s := s.setStore v'
    match old with
    | some o => (v', if s.stores.any (fun x => x.passages.any (·.addr == o.addr)) then s else s.release o.addr (4 * o.tokens))
    | none => (v', s)

/-- The digest of a passage-store version (R379): its passages in ascending id. -/
def storeDigest (s : State) (v : StoreVer) : Bytes :=
  let ps := sortBy (fun (a b : Passage) => decide (a.id ≤ b.id)) v.passages
  Config.sha384 (ps.flatMap fun p => leBytes 8 p.id ++ leBytes 4 p.tokens ++ s.readMem p.addr (4 * p.tokens))

/-- The version that a store write names, opened when it is new. -/
def storeTarget (c : StoreCfg) (m : TableMsg) (s : State) : Except Outcome (StoreVer × State) :=
  match s.store? c.id m.version with
  | some v =>
    if v.state != 0 || v.released then .error refWrongState else if m.copyFrom != 0 then .error refMalformed else .ok (v, s)
  | none =>
    let run := s.storeRun c.id
    if m.version = 0 || m.version = 0xFFFFFFFF || m.version ≤ run.last then .error refOrder
    else if 8 ≤ (s.stores.filter (·.store == c.id)).length then .error refLimit
    else
      let src := if m.copyFrom = 0 then none else s.store? c.id m.copyFrom
      if m.copyFrom != 0 && src.isNone then .error refNotHeld
      else
        let kept := ((src.map (·.passages)).getD []).filter fun p => !(s.hasBadLine p.addr (4 * p.tokens))
        let v : StoreVer := { store := c.id, version := m.version, passages := kept }
        .ok (v, (({ s with stores := s.stores ++ [v] } : State).setStoreRun { run with last := m.version }).bumpObjects)

/-- A TABLE_WRITE of a passage store (R248, R249): a FINAL one, and the unwrapping of a blob, make its version READY (R196). -/
def writeStore (c : StoreCfg) (m : TableMsg) (body : Bytes) (s0 : State) : State × Option Outcome :=
  if m.first != 0 || m.hasMap then (s0, some refMalformed)
  else match readPassages m.count body with
    | none => (s0, some refMalformed)
    | some ps =>
      if ps.any fun p => p.1 == 2 ^ 64 - 1 || p.2.isEmpty then (s0, some refMalformed)
      else if ps.any fun p => decide (4 * c.maxTokens < p.2.length) then (s0, some refCheck)
      else match s0.storeTarget c m with
        | .error o => (s0, some o)
        | .ok (v, s) =>
          let ids := (v.passages.map (·.id) ++ ps.map Prod.fst).eraseDups
          if c.maxPassages < ids.length then (s0, some refLimit)
          -- whether a directory can take these ids is open (R248)
          else if m.isFinal && !ids.isEmpty && Config.noDirectory ids then (s0, some refLimit)
          else match ps.foldl (fun (acc : Option (StoreVer × State)) p => acc.bind fun a => a.2.putPassage a.1 p) (some (v, s)) with
            | none => (s0, some refNoMemory)
            | some (v, s) =>
              if m.isFinal || m.wrapped then ((s.setStore { v with state := 1, digest := s.storeDigest v }).bumpObjects, some {})
              else (s, some {})

/-- TABLE_WRITE applied (R197, R249). -/
def applyTableWrite (w : Write) (s : State) : Applied :=
  let m := tableMsg w.payload
  if !(tableMsgOk w.payload) then refused s w refMalformed
  else match s.tableBody w m with
    | .error o => refused s w o
    | .ok (body, w') =>
      if m.isStore then
        match s.storeCfg? m.id with
        | none => refused s w refNotHeld
        | some c => let r := s.writeStore c m body; (r.1, r.2.map fun o => (o, [], r.1.finalForm m.isStore m.id m.version w'))
      else
        match s.tableCfg? m.id with
        | none => refused s w refNotHeld
        | some t =>
          -- writes to a version stay in order behind one that waits for a slab copy
          match s.table? m.id m.version with
          | some v =>
            if v.waiting.isEmpty then
              let r := s.writeTable t m body
              match r.2 with
              | some o => (r.1, some (o, [], r.1.finalForm false m.id m.version w'))
              | none => (r.1.setTable { (r.1.table? m.id m.version).getD v with waiting := [w] }, none)
            else if m.copyFrom != 0 then refused s w refMalformed
            else (s.setTable { v with waiting := v.waiting ++ [w] }, none)
          | none =>
            let r := s.writeTable t m body
            match r.2, r.1.table? m.id m.version with
            | none, some v => (r.1.setTable { v with waiting := [w] }, none)
            | o, _ => (r.1, some (o.getD {}, [], r.1.finalForm false m.id m.version w'))

/-- Writes that waited for slab copies are applied in order, as far as they can be (R197). -/
def drainTable (id v : Nat) : Nat → State → State
  | 0, s => s
  | k + 1, s =>
    match s.table? id v, s.tableCfg? id with
    | some x, some t =>
      (match x.waiting with
       | [] => s
       | w :: rest =>
         match s.tableBody w (tableMsg w.payload) with
         | .error o => drainTable id v k ((s.setTable { x with waiting := rest }).answerWrite w o [] true)
         | .ok (body, w') =>
           let r := s.writeTable t { tableMsg w.payload with copyFrom := 0 } body
           match r.2 with
           | none => s
           | some o => drainTable id v k ((r.1.setTable { (r.1.table? id v).getD x with waiting := rest }).answerWrite
               (r.1.finalForm false id v w') o [] true))
    | _, _ => s

/-- The write that opened a version is refused while it waits for a slab copy: the version is gone with the slabs that it does not share, and its number
may be used again (R197). -/
def unopen (x : TableVer) (last : Nat) (s : State) : State :=
  let own := (x.slabs.filter fun y => !(s.sharedSlab x y.1)).map Prod.snd
  let s : State := { s with tables := s.tables.filter fun y => !(y.table == x.table && y.version == x.version) }
  let s := s.setTableRun { s.tableRun x.table with last }
  (s.releaseAll ((x.base, 4096) :: own)).bumpObjects

/-- BG_SLAB_COPY (R197, R448): a shared slab that a write waits for is copied, without the rows of listed lines; the writes that
waited for it go on. Without memory for the copy the first of them is refused and has changed nothing. -/
def doBgSlabCopy (id v n : Nat) (s : State) : State :=
  match s.table? id v, s.tableCfg? id with
  | some x, some t =>
    (match x.waiting, x.slabs.find? (·.1 == n) with
     | w :: rest, some slab =>
       if !(s.sharedSlab x n) then s
       else
         let bad := s.soundRows t.stride x x.written
         match s.newSlab { x with written := bad } n slab.2.2 with
         | some r => r.2.drainTable id v (x.waiting.length + 1)
         | none =>
           match x.opened with
           | none => (s.setTable { x with waiting := rest }).answerWrite w refNoMemory [] true
           | some last =>
             -- those behind it find no version open
             let s := (s.unopen x last).answerWrite w refNoMemory [] true
             rest.foldl (fun (s : State) y => let r := s.applyTableWrite y
               match r.2 with
               | some o => r.1.answerWrite o.2.2 o.1 o.2.1 true
               | none => r.1) s
     | _, _ => s)
  | _, _ => s

-- TABLE_SWITCH and TABLE_RELEASE (R198, R200, R249)

def applyTableSwitch (w : Write) (s : State) : Applied :=
  let x := uAt w.payload 12 4
  let id := fld x 8 0
  let ver := uAt w.payload 8 4
  if w.payload.length != 16 || fld x 31 10 != 0 then refused s w refMalformed
  else if bitAt x 9 then
    match s.store? id ver with
    | none => refused s w refNotHeld
    | some v =>
      if v.released || !(v.state == 1 || v.state == 3) then refused s w refWrongState
      else
        let s : State := { s with stores := s.stores.map fun y =>
          if y.store == id && y.version == ver then { y with state := 2 } else if y.store == id && y.state == 2 then { y with state := 3 } else y }
        (s.bumpObjects, some ({}, [], w))
  else
    match s.table? id ver with
    | none => refused s w refNotHeld
    | some v =>
      if v.released || !(v.state == 1 || v.state == 3) then refused s w refWrongState
      else
        let s : State := { s with tables := s.tables.map fun y =>
          if y.table == id && y.version == ver then { y with state := 2 } else if y.table == id && y.state == 2 then { y with state := 3 } else y }
        (s.bumpObjects, some ({}, [], w))

def applyTableRelease (w : Write) (s : State) : Applied :=
  let x := uAt w.payload 12 4
  let id := fld x 8 0
  let ver := uAt w.payload 8 4
  if w.payload.length != 16 || fld x 31 10 != 0 then refused s w refMalformed
  else if bitAt x 9 then
    match s.store? id ver with
    | none => refused s w refNotHeld
    | some v => if v.state == 2 then refused s w refWrongState
      else (((s.setStore { v with released := true }).bumpObjects).reapStores, some ({}, [], w))
  else
    match s.table? id ver with
    | none => refused s w refNotHeld
    | some v => if v.state == 2 then refused s w refWrongState
      else
        let s := (s.setTable { v with released := true, waiting := [] }).bumpObjects
        let s := v.waiting.foldl (fun s x => s.answerWrite x refWrongState [] true) s
        (s.reapStores, some ({}, [], w))

end State
end Sys2Proof.Machine
end

