-- ==== Sys2Proof/Machine/HotSets.lean ====
section
/-! DEFINITION. Remote rows (R209 to R211) and hot-row sets (R214 to R218): HOT_SET, HOT_SET_INSTALL, and serving row requests. -/

namespace Sys2Proof.Machine

namespace State

-- Requests for rows of owners (R209)

/-- One request record to an owner for rows of a table version, as (local row, place); none when no session reaches the owner. -/
def requestRows (e : Exchange) (share budget : Nat) (v : TableVer) (rows : List (Nat × Nat)) (s : State) : Option State :=
  (s.ownerSession e.owner).map fun sid =>
    let x := s.newXid 16
    let ex := { e with xid := x.1, ids := rows.map Prod.fst, places := rows.map Prod.snd }
    let s : State := { x.2 with exchanges := x.2.exchanges ++ [ex] }
    let body := rowHeader 0x51574F52 x.1 v.table v.version v.map.version rows.length share ++ rows.flatMap fun r => leBytes 8 r.1
    s.sendColl sid { op := 1, origin := s.pairIndex, number := x.1, req := e.req, budget } body

/-- Requests for rows of several owners, at most 65,536 rows to a record; none when an owner cannot be reached. `rows` are
(owner, local row, place). -/
def requestAll (e : Exchange) (share budget : Nat) (v : TableVer) (rows : List (Nat × Nat × Nat)) (s : State) : Option State :=
  let owners := sortBy (fun a b => decide (a ≤ b)) ((rows.map (·.1)).eraseDups)
  owners.foldl (fun (acc : Option State) o =>
    let mine := sortBy (fun (a b : Nat × Nat) => decide (a.1 ≤ b.1)) ((rows.filter (·.1 == o)).map Prod.snd)
    (chunkList 65536 mine).foldl (fun (acc : Option State) part =>
      acc.bind fun s => s.requestRows { e with owner := o } share budget v part) acc) (some s)

/-- The answer to a row request record (R209, R210): its status, rows, and the stride they have. -/
def serveRows (s : State) (rec' : Bytes) : Nat × Nat × Bytes :=
  let h := uAt rec' 0 32
  let n := fld h 159 128
  let id := fld h 56 48
  match s.tableCfg? id with
  | none => (1, 0, [])
  | some t =>
    let entries := (chunks 8 (rec'.drop 32)).map leNat
    if fld h 31 0 != 0x51574F52 || fld h 63 57 != 0 || fld h 255 166 != 0 || !(inRange 1 65536 n) || rec'.length != 32 + 8 * n
        || entries.any (fun e => decide (2 ^ 32 ≤ e)) then (4, t.stride, [])
    else match s.table? id (fld h 95 64) with
      | none => (1, t.stride, [])
      | some v =>
        if v.state = 0 then (2, t.stride, [])
        else if v.map.version != fld h 127 96 then (3, t.stride, [])
        else
          let own := v.map.owned t.rows s.pairIndex
          let damaged := fun (e : Nat) => (rowAddr t.stride v e).any fun a => s.hasBadLine a t.stride
          if entries.all fun e => own.any (fun r => decide (r.1 ≤ e) && decide (e < r.1 + r.2)) && !(damaged e) then
            (0, t.stride, entries.flatMap fun e => s.rowBytesOf t.stride v e)
          else (4, t.stride, [])

-- The hot area (R214)

/-- The pool whose tiles hold hot rows: the lowest-numbered LOOKUP pool. -/
def hotPool (s : State) : Option Nat := s.cfg.pools.findIdx? (·.has 2)

/-- The tile-memory address of hot slot `h` of a table in a half: the tables' shares of a half stand in ascending id. -/
def hotAddr (s : State) (t : TableCfg) (half h : Nat) : Nat :=
  match s.hotPool.bind fun p => (s.poolCfg? p).map fun c => (p, c) with
  | none => 0
  | some (p, c) =>
    let nt := max 1 c.tiles
    let before := ((s.cfg.tables.filter fun u => decide (u.id < t.id)).map fun u => ceilDiv u.hotTileRows nt * u.stride).sum
    tileWindow (s.poolTile p (h % nt)) + (c.limit - c.hotKib * 1024) + half * (c.hotKib * 512) + before + h / nt * t.stride

-- HOT_SET (R215, R216)

/-- The fields of a HOT_SET: version, table version, count, table, rows. -/
def hotMsg (p : Bytes) : Nat × Nat × Nat × Nat × List Nat := (uAt p 8 4, uAt p 12 4, uAt p 16 4, uAt p 20 4, (chunks 8 (p.drop 24)).map leNat)

/-- The install that a table waits for may start: no request holds the version whose half it overwrites (R216). -/
def hotHalfFree (s : State) (id half : Nat) : Bool :=
  !(s.hotSets.any fun v => v.table == id && v.half == half && s.hotBound v)

/-- HOT_SET (R215): checked; it waits to be installed, and one that waited before it is superseded (R216). -/
def applyHotSet (w : Write) (s : State) : Applied :=
  let (hv, tv, n, id, rows) := hotMsg w.payload
  if w.payload.length < 24 || w.payload.length != 24 + 8 * n || n = 0 || decide (512 ≤ id) || rows.any (fun r => decide (2 ^ 40 ≤ r)) then
    refused s w refMalformed
  else match s.tableCfg? id with
    | none => refused s w refNotHeld
    | some t =>
      let run := s.tableRun id
      let newest := max run.lastHot (match run.installing with
        | some (x, _) => (hotMsg x.payload).1
        | none => 0)
      if (s.table? id tv).isNone then refused s w refNotHeld
      else if hv ≤ newest then refused s w refOrder
      else if t.hotCap < n || !(distinct rows) || rows.any (fun r => decide (t.rows ≤ r)) then refused s w refCheck
      else
        let waits := !(s.hotHalfFree id run.half) || run.installing.isSome || (match run.started with
          | some x => decide (s.portTicks < x + ticksOfMs t.hotRefreshMs)
          | none => false)
        let old := run.waiting
        let s := s.setTableRun { run with waiting := some w, waitMs := t.hotRefreshMs }
        let s := if waits then s.count (devCtr 11) 1 else s
        (match old with
          | some x => s.answerWrite x refSuperseded [] true
          | none => s, none)

/-- The install under way of a table ends: without effect when `o` refuses it (R216). -/
def endInstall (id : Nat) (o : Outcome) (s : State) : State :=
  let run := s.tableRun id
  match run.installing, s.tableCfg? id with
  | some (w, replica, slots), some t =>
    let (hv, tv, _, _, rows) := hotMsg w.payload
    let bytes := slots.length * t.stride
    let s : State := { s with exchanges := s.exchanges.filter fun e => !(e.kind == 2 && e.object == id) }
    if o.status != 0 then
      ((s.setTableRun { run with installing := none, missing := 0 }).release replica bytes).answerWrite w o [] true
    else
      let v : HotVer := {
        table := id, version := hv, forVersion := tv, rows, half := run.half, replica, replicaBytes := bytes, replicaSlots := slots
        digest := Config.sha384 (leBytes 4 tv ++ leBytes 4 hv ++ rows.flatMap (leBytes 8)) }
      let s : State := { s with hotSets := s.hotSets.map (fun x => if x.table == id then { x with current := false } else x) ++ [v] }
      let s := (s.setTableRun { run with lastHot := hv, half := 1 - run.half, installing := none, missing := 0 }).bumpObjects
      s.reapStores.answerWrite w {} [] true
  | _, _ => s

/-- A hot row stands in its places: the replica when another device owns it, tile memory when it is among the first. -/
def placeHot (t : TableCfg) (half replica : Nat) (slots : List Nat) (h : Nat) (row : Bytes) (s : State) : State :=
  let s := match slots.findIdx? (· == h) with
    | some i => s.storeHbm none fnLookup (replica + i * t.stride) row
    | none => s
  if h < t.hotTileRows then (s.tileWrite none (s.hotAddr t half h) row).2 else s

/-- Step 2 of an install (R216): the rows of a waiting version that this device owns are placed, the others asked of their owners; with none
of those it takes effect. -/
def startInstall (id : Nat) (w : Write) (t : TableCfg) (v : TableVer) (s : State) : State :=
  let half := (s.tableRun id).half
  let at' := (hotMsg w.payload).2.2.2.2.zipIdx.map fun (r, h) => (h, (v.map.locate r).getD (0, 0))
  let mine := at'.filter fun x => x.2.1 == s.pairIndex
  let others := at'.filter fun x => x.2.1 != s.pairIndex
  let slots := others.map Prod.fst
  let bytes := others.length * t.stride
  match s.alloc (max 128 bytes) 4096 with
  | none => s.answerWrite w refNoMemory [] true
  | some (a, s) =>
    -- only the bytes of the rows stay in use
    let s : State := { s with used := (s.used.erase (a, max 128 bytes)) ++ (if bytes = 0 then [] else [(a, bytes)]) }
    let s := mine.foldl (fun s x => s.placeHot t half a slots x.1 (s.rowBytesOf t.stride v x.2.2)) s
    let s := s.setTableRun { (s.tableRun id) with installing := some (w, a, slots), missing := others.length }
    if others.isEmpty then s.endInstall id {}
    else
      let e : Exchange := { xid := 0, owner := 0, req := 0, reqOrder := 0, tile := 0, kind := 2, object := id, ids := [], places := [] }
      match s.requestAll e 0 0 v (others.map fun x => (x.2.1, x.2.2, x.1)) with
      | some s => s
      | none => s.endInstall id refFetchFailed

/-- HOT_SET_INSTALL (R216, R217): the waiting hot-set version of a table is installed once no request holds the one it overwrites and
the refresh time that held when it reached step 1 has passed. -/
def doHotSetInstall (id : Nat) (s : State) : State :=
  let run := s.tableRun id
  match run.waiting, run.installing, s.tableCfg? id with
  | some w, none, some t =>
    if !(s.hotHalfFree id run.half) then s
    else
      let s := match run.started with
        | some x => s.atLeast (x + ticksOfMs run.waitMs)
        | none => s
      let s := s.setTableRun { run with waiting := none, started := some s.portTicks }
      match s.table? id (hotMsg w.payload).2.1 with
      | none => s.answerWrite w refFetchFailed [] true
      | some v => s.startInstall id w t v
  | _, _, _ => s

/-- Rows of another owner arrive for the install under way (R216): after the last it takes effect. -/
def hotRows (e : Exchange) (stride : Nat) (rows : Bytes) (s : State) : State :=
  let run := s.tableRun e.object
  match run.installing, s.tableCfg? e.object with
  | some (_, replica, slots), some t =>
    if stride != t.stride then s.endInstall e.object refFetchFailed
    else
      let s := (e.places.zip (chunks t.stride rows)).foldl (fun s p => s.placeHot t run.half replica slots p.1 p.2) s
      let left := run.missing - e.places.length
      let s := s.setTableRun { (s.tableRun e.object) with missing := left }
      if left = 0 then s.endInstall e.object {} else s
  | _, _ => s

end State
end Sys2Proof.Machine
end

