-- ==== Sys2Proof/Machine/ArrayItems.lean ====
section
/-! DEFINITION. The work items of the sequencer (R103, R128), the matrix arrays (R31 to R46, R55 to R58) and the vector unit
(R53, R54). -/

namespace Sys2Proof.Machine

/-- Bytes of one row of a stream: dimension 0, or dimension 1 of a transposed read. -/
def rowBytes (d : Nat) : Nat := max 1 (if dPacked d then dUnit d else (if dTranspose d then dCount d 1 else dCount d 0) * dUnit d)

/-- The codes that a stream delivers, row by row. -/
def rowsOf (fmt d : Nat) (bs : Bytes) : List (List Nat) := (chunks (rowBytes d) bs).map (unpackFmt fmt)

/-- A flat list cut into rows of the same lengths as another's. -/
def rowsLike {α β : Type} : List (List α) → List β → List (List β)
  | [], _ => []
  | r :: rest, l => l.take r.length :: rowsLike rest (l.drop r.length)

/-- The lines of a delivered tensor along one of its dimensions: `outer` blocks of `n` positions of `inner` elements. -/
def linesAlong (n inner : Nat) (codes : List Nat) : List (List Nat) :=
  let a := codes.toArray
  (List.range (ceilDiv codes.length (max 1 (n * inner)))).flatMap fun o => (List.range inner).map fun i =>
    (List.range n).filterMap fun j => a[(o * n + j) * inner + i]?

namespace State

/-- `n` codes; those that an operand lacks are free. -/
def needCodes (bits n : Nat) (cs : List Nat) (s : State) : List Nat × State :=
  if n ≤ cs.length then (cs.take n, s)
  else (cs ++ (List.range (n - cs.length)).map (fun i => Config.freeNat (s.free + i) % 2 ^ bits), { s with free := s.free + (n - cs.length) })

/-- A second operand in the rows of the first (R53). -/
def operandLike {α : Type} (fmt d : Nat) (bs : Bytes) (rows : List (List α)) (s : State) : List (List Nat) × State :=
  let r := s.needCodes (fmtBits fmt) (rows.map List.length).sum (rowsOf fmt d bs).flatten
  (rowsLike rows r.1, r.2)

/-- The bytes of some slots, each of the length that an operation needs. -/
def needSlots (len : Nat → Nat) (get : Nat → Bytes) : List Nat → State → List (Nat × Bytes) × State
  | [], s => ([], s)
  | n :: r, s =>
    let x := s.need (len n) (get n)
    let y := needSlots len get r x.2
    ((n, x.1) :: y.1, y.2)

/-- A result with the state after its free values ends its work item. -/
def finishWith (t : Nat) (x : Running) (r : OpOut × State) : State := r.2.finishItem t x r.1

-- The sequencer (R128)

def doNop (t : Nat) (s : State) : State := s.runOp t 0x00 fun x _ s => s.finishItem t x { writes := [] }

/-- SIGNAL (R128): the increment travels with the completion record. -/
def doSignal (t : Nat) (s : State) : State := s.runOp t 0x02 fun x _ s => s.finishItem t x { writes := [] }

/-- YIELD (R128): the tile's unstarted entries of the request go back to the front of the pool's queue. -/
def doYieldItem (t : Nat) (s : State) : State :=
  s.runOp t opYield fun x _ s =>
    let mine := fun (i : Item) => i.req == x.item.req && i.reqOrder == x.item.reqOrder
    let back := (s.tile t).queue.filter mine
    let s := s.setTile t fun y => { y with queue := y.queue.filter fun i => !(mine i) }
    let s := s.returnItems x.item.pool back
    s.finishItem t x { writes := [] }

-- The arrays

/-- GEMM (R31 to R45). -/
def doGemm (t : Nat) (s : State) : State :=
  s.runOp t 0x10 fun x get s =>
    let w := x.item.wi
    let g := s.needSlots (gemmLen w) get (inSlots w)
    finishWith t x (g.2.gemmOp t w fun n => lookupD n g.1 [])

/-- CONV (R55 to R57). -/
def doConv (t : Nat) (s : State) : State :=
  s.runOp t 0x11 fun x get s =>
    let w := x.item.wi
    let d := slotDesc x 0
    let g := s.needSlots (convLen w d) get (inSlots w)
    finishWith t x (g.2.convOp t w d fun n => lookupD n g.1 [])

-- The vector unit

/-- EW_UNARY (R53, R54). -/
def doEwUnary (t : Nat) (s : State) : State :=
  s.runOp t 0x20 fun x get s => finishWith t x (s.ewUnaryOp x.item.wi (rowsOf (wAFmt x.item.wi) (slotDesc x 0) (get 0)))

/-- EW_BINARY (R53, R54). -/
def doEwBinary (t : Nat) (s : State) : State :=
  s.runOp t 0x21 fun x get s =>
    let w := x.item.wi
    let a := rowsOf (wAFmt w) (slotDesc x 0) (get 0)
    let b := s.operandLike (wWFmt w) (slotDesc x 1) (get 1) a
    finishWith t x (b.2.ewBinaryOp w (List.zipWith List.zip a b.1))

/-- EW_FMA (R53): slot 0 times slot 1 plus slot 2. -/
def doEwFma (t : Nat) (s : State) : State :=
  s.runOp t 0x22 fun x get s =>
    let w := x.item.wi
    let a := rowsOf (wAFmt w) (slotDesc x 0) (get 0)
    let b := s.operandLike (wWFmt w) (slotDesc x 1) (get 1) a
    let c := b.2.operandLike (wWFmt w) (slotDesc x 2) (get 2) a
    finishWith t x (ewFmaOp w (List.zipWith List.zip a (List.zipWith List.zip b.1 c.1)), c.2)

/-- REDUCE (R54) along the axis IMM1 of the delivered tensor. -/
def doReduce (t : Nat) (s : State) : State :=
  s.runOp t 0x23 fun x get s =>
    let w := x.item.wi
    let d := slotDesc x 0
    let rows := rowsOf (wAFmt w) d (get 0)
    let axis := wImm w 1
    let lines := if axis = 0 then rows
      else linesAlong (dCount d axis) (((List.range axis).map (dCount d)).foldl (· * ·) 1) rows.flatten
    finishWith t x (s.reduceOp w lines)

/-- NORM (R54). -/
def doNorm (t : Nat) (s : State) : State :=
  s.runOp t 0x24 fun x get s =>
    let w := x.item.wi
    let rows := rowsOf (wAFmt w) (slotDesc x 0) (get 0)
    let g := s.needCodes (fmtBits (wWFmt w)) (2 * (rows.headD []).length) (rowsOf (wWFmt w) (slotDesc x 1) (get 1)).flatten
    finishWith t x (g.2.normOp w rows (g.1.map (elemF32 (wWFmt w))))

/-- SOFTMAX (R54) over rows of IMM0 elements. -/
def doSoftmax (t : Nat) (s : State) : State :=
  s.runOp t 0x25 fun x get s =>
    let w := x.item.wi
    let rows := chunkList (max 1 (wImm w 0)) (rowsOf (wAFmt w) (slotDesc x 0) (get 0)).flatten
    let m := if wUses w 1 then (let r := s.operandLike (wWFmt w) (slotDesc x 1) (get 1) rows; (some r.1, r.2)) else (none, s)
    finishWith t x (m.2.softmaxOp w rows m.1)

/-- POOL2D (R54). -/
def doPool2d (t : Nat) (s : State) : State :=
  s.runOp t 0x26 fun x get s => finishWith t x (s.pool2dOp x.item.wi (slotDesc x 0) (get 0))

/-- DWCONV (R58). -/
def doDwconv (t : Nat) (s : State) : State :=
  s.runOp t 0x27 fun x get s =>
    let w := x.item.wi
    let d := slotDesc x 0
    let g := s.needSlots (convLen w d) get (inSlots w)
    finishWith t x (dwconvOp w d (fun n => lookupD n g.1 []), g.2)

/-- CONVERT (R45, R46). -/
def doConvert (t : Nat) (s : State) : State :=
  s.runOp t 0x28 fun x get s => finishWith t x (convertOp x.item.wi (rowsOf (wAFmt x.item.wi) (slotDesc x 0) (get 0)), s)

end State
end Sys2Proof.Machine
end

