-- ==== Sys2Proof/Machine/SelectItems.lean ====
section
/-! DEFINITION. Barriers (R96, R126, R127), the Bolter's work items (R167 to R180), the members of a selection group (R187 to
R189) and sampling (R286). -/

namespace Sys2Proof.Machine

-- Barriers (R126, R127)

/-- The combined value of a barrier's arrivals (R127). -/
def combine (op : Nat) (vs : List Nat) : Nat :=
  let signed := vs.map (signedOf 64)
  match op with
  | 0 => vs.length
  | 1 => satTo 64 vs.sum
  | 2 => unsignedOf 64 (match signed with | x :: r => r.foldl min x | [] => 0)
  | 3 => unsignedOf 64 (match signed with | x :: r => r.foldl max x | [] => 0)
  | 4 => vs.foldl (· ||| ·) 0
  | _ => vs.foldl (· &&& ·) (2 ^ 64 - 1)

-- The Bolter's operations on the bytes of their slots

/-- The lists that a stream delivers: its outer dimensions enumerate them. -/
def listsOf (d : Nat) (bs : Bytes) : List Bytes := if dNdim d ≤ 1 then [bs] else chunks (rowBytes d) bs

/-- Completion bits of some list flags (R106, R372). -/
def listBits (f : Nat) : Nat :=
  (if f &&& flTie != 0 then cbTie else 0) + (if f &&& flShort != 0 then cbShort else 0) + (if f &&& flDup != 0 then cbDup else 0)
    + (if f &&& flNan != 0 then cbNan else 0)

/-- Whether ids and source words suffice for `n` scores, with no reserved bit in a source word (R175). -/
def sidesOk (w n : Nat) (ids srcs : Bytes) : Bool :=
  (!(wUses w 1) || decide (8 * n ≤ ids.length)) && (!(wUses w 2) || (decide (8 * n ≤ srcs.length)
    && (((chunks 8 srcs).take n).all fun b => fld (leNat b) 61 56 == 0)))

/-- TOPK of one work item: a list for each input list, or its fault (R175). -/
def topkOp (w d : Nat) (scores ids srcs : Bytes) : Except Nat OpOut :=
  let ty := wImm w 1
  let ls := (listsOf d scores).map fun b => (chunks (scoreBytes ty) b).map leNat
  let n := (ls.map List.length).sum
  if sidesOk w n ids srcs then
    let cut := fun (b : Bytes) => rowsLike ls (((chunks 8 b).take n).map leNat)
    let outs := List.zipWith (fun l (p : List Nat × List Nat) => topkList (wImm w 0) ty l p.1 p.2) ls ((cut ids).zip (cut srcs))
    .ok { writes := [(8, outs.flatMap listBytes)], flags := listBits (outs.foldl (fun a l => a ||| l.flags) 0)
          aux := satTo 16 (outs.map (·.tieLeft)).sum }
  else .error 1

/-- Records of KTH or ARGMAX with their SHORT and NAN_SEEN bits. -/
def recordsOut (rs : List (Bytes × Bool × Bool)) : OpOut :=
  { writes := [(8, rs.flatMap (·.1))]
    flags := (if rs.any (·.2.1) then cbShort else 0) + (if rs.any (·.2.2) then cbNan else 0) }

/-- SORT (R178). -/
def sortOp (w : Nat) (keys vals : Bytes) : Except Nat OpOut :=
  let n := wImm w 0
  if keys.length < 4 * n || (wUses w 1 && decide (vals.length < 8 * n)) then .error 1
  else
    let ks := ((chunks 4 keys).take n).map leNat
    let vs := if wUses w 1 then ((chunks 8 vals).take n).map leNat else List.range n
    .ok { writes := [(8, sortRecords (ks.zip vs))] }

/-- MERGE (R180). -/
def mergeOp (w : Nat) (ins : List Bytes) : Except Nat OpOut :=
  if 131072 < (ins.map fun b => fld (leNat (b.take 32)) 159 128).sum then .error 1
  else
    let l := mergeLists (wImm w 0) (wImm w 1) (ins.map fun b => let x := listRead b; { x with cands := x.cands.take 65536 })
    .ok { writes := [(8, listBytes l)], flags := listBits l.flags, aux := l.tieLeft }

-- Sampling (R286)

/-- The SplitMix64 output function. -/
def splitMix (z : BitVec 64) : BitVec 64 :=
  let z := (z ^^^ (z >>> 30)) * 0xBF58476D1CE4E5B9#64
  let z := (z ^^^ (z >>> 27)) * 0x94D049BB133111EB#64
  z ^^^ (z >>> 31)

/-- The draw u of a position as an exact value. -/
def drawOf (seed newTokens : Nat) : FVal :=
  let x := splitMix (BitVec.ofNat 64 (seed + 0x9E3779B97F4A7C15 * (newTokens + 1)))
  .fin false ((x.toNat / 2 ^ 40 : Nat) : Int) (-24)

/-- Running sums in order, in FP32. -/
def runningSums : List W32 → W32 → List W32
  | [], _ => []
  | e :: r, acc => let a := f32Add acc e; a :: runningSums r a

/-- The first candidate with the greatest score. -/
def greatest : List Cand → Option Cand
  | [] => none
  | c :: r => some (r.foldl (fun a b => if f32Lt (BitVec.ofNat 32 a.score) (BitVec.ofNat 32 b.score) then b else a) c)

namespace State

/-- The token that SAMPLE draws from a list's candidates; none when none is selectable. -/
def sampleOf (w : Nat) (cs : List Cand) (s : State) : Option Cand × State :=
  let sc := fun (c : Cand) => (BitVec.ofNat 32 c.score : W32)
  let cand := cs.filter fun c => sc c != 0xFF800000#32
  let t : W32 := BitVec.ofNat 32 (wImm w 0)
  if cand.isEmpty then (none, s)
  else if f32IsZero t || wImm w 1 == 1 || cand.any (fun c => sc c == 0x7F800000#32) then (greatest cand, s)
  else
    let zs := s.mapFree (fun c s => s.vdiv (sc c) t) cand
    let z0 := zs.1.headD 0
    let es := zs.2.mapFree (fun z s => s.unary 3 (f32Sub z z0)) zs.1
    let sums := runningSums es.1 0
    let bound := f32Mul (BitVec.ofNat 32 (wImm w 2)) (sums.getLast?.getD 0)
    let n := match sums.findIdx? fun x => f32Le bound x with
      | some i => i + 1
      | none => sums.length
    let kept := sums.take n
    let u := vmul (drawOf (wImm w 3 + wImm w 4 * 2 ^ 32) (wImm w 5)) (f32Val (kept.getLast?.getD 0))
    let i := match kept.findIdx? fun c => vlt u (f32Val c) with
      | some i => i
      | none => n - 1
    (cand[i]?, es.2)

/-- A result or its fault ends its work item. -/
def finishOr (t : Nat) (x : Running) (r : Except Nat OpOut) (s : State) : State :=
  match r with
  | .ok o => s.finishItem t x o
  | .error f => s.faultItem t x f

-- Barriers

/-- BARRIER (R126): the token goes to its slot, and the work item waits for the release. -/
def doBarrier (t : Nat) (s : State) : State :=
  s.runOp t opBarrier fun x _ s =>
    let w := x.item.wi
    let mine := fun (b : BarrierSlot) => b.req == x.item.req && b.stage == x.item.stage && b.number == wImm w 0
    let s := s.setPool x.item.pool fun p => { p with barriers := modifyFirst mine (fun b =>
      { b with values := b.values ++ [wImm w 3 + wImm w 4 * 2 ^ 32], tiles := b.tiles ++ [t] }) p.barriers }
    s.setRunning t fun x => { x with waits := 1 }

/-- BARRIER_COMBINE (R96, R126): N arrivals have combined at the root, which releases the value. -/
def doBarrierCombine (p i : Nat) (s : State) : State :=
  match (s.pool p).barriers[i]? with
  | some b =>
    if b.values.length == b.need && !b.released then
      s.setPool p fun x => { x with barriers := modifyAt i (fun b => { b with released := true }) x.barriers }
    else s
  | none => s

/-- BARRIER_RELEASE_ARRIVAL (R105, R126): the waiting work item writes the combined value, if slot 0 is used, and completes. -/
def doBarrierReleaseArrival (t : Nat) (s : State) : State :=
  match (s.tile t).running with
  | none => s
  | some x =>
    let w := x.item.wi
    let mine := fun (b : BarrierSlot) =>
      b.req == x.item.req && b.stage == x.item.stage && b.number == wImm w 0 && b.released && b.tiles.contains t
    match (s.pool x.item.pool).barriers.find? mine with
    | some b =>
      if wOpcode w = opBarrier ∧ x.waits = 1 then
        let s := s.setPool x.item.pool fun p => { p with barriers := modifyFirst mine (fun b => { b with tiles := b.tiles.erase t }) p.barriers }
        s.finishItem t x { writes := if wUses w 0 then [(0, leBytes 8 (combine b.op b.values))] else [] }
      else s
    | none => s

-- Selection groups (R187 to R189)

/-- A group's selection slot: its place in the pool. -/
def selectAt (s : State) (i : Item) (g : Nat) : Option Nat :=
  (s.pool i.pool).selects.findIdx? fun x => x.req == i.req && x.reqOrder == i.reqOrder && x.stage == i.stage && x.group == g

def setSelect (p i : Nat) (f : SelectSlot → SelectSlot) (s : State) : State :=
  s.setPool p fun x => { x with selects := modifyAt i f x.selects }

/-- Sums of bins; an empty list stands for zeros. -/
def addBins (a b : List Nat) : List Nat := if a.isEmpty then b else List.zipWith (· + ·) a b

/-- A member's entries as its sequencer holds them between rounds, and its NaN count. -/
def memberCands (x : Running) : List Cand := (chunks 24 x.bytes).map candDecode
def memberNans (x : Running) : Nat := x.store.headD 0

/-- A member sends what it counts in the group's present round (R189). -/
def memberCounts (t p i : Nat) (x : Running) (s : State) : State :=
  let cs := memberCands x
  s.setSelect p i fun g => { g with
    bins := addBins g.bins (roundBins g.decision cs), arrived := g.arrived ++ [t]
    valid := g.valid + (if g.decision.round = 1 then cs.length else 0), nans := g.nans + (if g.decision.round = 1 then memberNans x else 0) }

/-- A decision goes down the tree to the members. -/
def releaseDecision (p i : Nat) (d : Decision) (certain : Nat) (s : State) : State :=
  s.setSelect p i fun g => { g with
    decision := d, certain, flying := g.arrived, arrived := [], bins := []
    valid := if d.round = 1 then 0 else g.valid, nans := if d.round = 1 then 0 else g.nans }

/-- The group's list is written by member 0 and every member completes; its slot is free when the stage has completed (R188). -/
def finishGroup (p i : Nat) (list : Option SelList) (s : State) : State :=
  match (s.pool p).selects[i]? with
  | none => s
  | some g =>
    let members := (s.poolTiles p).filterMap fun t => (s.tile t).running.bind fun x =>
      if s.selectAt x.item (fld (wImm x.item.wi 2) 31 16) == some i && wOpcode x.item.wi == opTopk && x.waits == 2 then some (t, x) else none
    members.foldl (fun s (m : Nat × Running) =>
      match list with
      | some l =>
        if wImm m.2.item.wi 3 = 0 then
          s.finishItem m.1 m.2 { writes := [(8, listBytes l)], flags := listBits l.flags, aux := satTo 16 l.tieLeft }
        else s.endItem m.1 m.2 0 0 0 false [] []
      | none => s.endItem m.1 m.2 0 0 0 false [] []) s

/-- A member of a group starts (R187, R189): its whole stream is its share of the row. -/
def startMember (t : Nat) (x : Running) (scores ids srcs : Bytes) (s : State) : State :=
  let w := x.item.wi
  let ty := wImm w 1
  let raw := (chunks (scoreBytes ty) scores).map leNat
  match s.selectAt x.item (fld (wImm w 2) 31 16) with
  | none => s
  | some i =>
    if !(sidesOk w raw.length ids srcs) then s.faultItem t x 1
    else
      let c := candidates ty raw ((chunks 8 ids).map leNat) ((chunks 8 srcs).map leNat)
      let x := { x with bytes := c.1.flatMap candEncode, store := [c.2], waits := 2 }
      (s.setRunning t fun _ => x).memberCounts t x.item.pool i x

-- The Bolter's work items

/-- TOPK (R175, R187): a list, or the first round of a group. -/
def doTopk (t : Nat) (s : State) : State :=
  s.runOp t opTopk fun x get s =>
    if wImm x.item.wi 2 = 0 then s.finishOr t x (topkOp x.item.wi (slotDesc x 0) (get 0) (get 1) (get 2))
    else s.startMember t x (get 0) (get 1) (get 2)

/-- KTH (R176). -/
def doKth (t : Nat) (s : State) : State :=
  s.runOp t 0x31 fun x get s =>
    let ty := wImm x.item.wi 1
    s.finishItem t x (recordsOut ((listsOf (slotDesc x 0) (get 0)).map fun b =>
      kthRecord (wImm x.item.wi 0) ty ((chunks (scoreBytes ty) b).map leNat)))

/-- ARGMAX (R177). -/
def doArgmax (t : Nat) (s : State) : State :=
  s.runOp t 0x32 fun x get s =>
    let ty := wImm x.item.wi 1
    s.finishItem t x (recordsOut ((listsOf (slotDesc x 0) (get 0)).map fun b => argmaxRecord ty ((chunks (scoreBytes ty) b).map leNat)))

/-- SORT (R178). -/
def doSort (t : Nat) (s : State) : State :=
  s.runOp t 0x33 fun x get s => s.finishOr t x (sortOp x.item.wi (get 0) (get 1))

/-- HIST (R179). -/
def doHist (t : Nat) (s : State) : State :=
  s.runOp t 0x34 fun x get s =>
    s.finishItem t x { writes := [(8, histBytes (wImm x.item.wi 0) (wImm x.item.wi 1) ((chunks 4 (get 0)).map leNat))] }

/-- MERGE (R180) of the used slots 0 to 3. -/
def doMerge (t : Nat) (s : State) : State :=
  s.runOp t 0x35 fun x get s =>
    s.finishOr t x (mergeOp x.item.wi (((List.range 4).filter (wUses x.item.wi)).map get))

/-- SAMPLE (R286): with no selectable logit it writes nothing, and its record says so. -/
def doSample (t : Nat) (s : State) : State :=
  s.runOp t 0x36 fun x get s =>
    let r := s.sampleOf x.item.wi (listRead (get 0)).cands
    match r.1 with
    | some c =>
      let s := r.2.setReq x.item.req fun q => if q.order == x.item.reqOrder then { q with token := some c.id, tokenSeen := false } else q
      s.finishItem t x { writes := [(8, leBytes 4 c.id)] }
    | none => r.2.endItem t x 0 0 0 true [] []

end State
end Sys2Proof.Machine
end

