-- ==== Sys2Proof/Machine/LookupItems.lean ====
section
/-! DEFINITION. Pooled look-ups (R201 to R213, R218): COALESCE and the POOL work items. -/

namespace Sys2Proof.Machine

-- The batch (R201, R202)

/-- A look-up batch: its bags as (table, first, length), its rows and its weights. -/
structure Batch where
  bags : Array (Nat × Nat × Nat)
  rows : Array Nat
  weights : Array W32
  weighted : Bool
  deriving DecidableEq, Repr

/-- A batch read and checked, or its fault cause (R202). -/
def readBatch (rowsOf : Nat → Option Nat) (bs : Bytes) : Except Nat Batch :=
  let h := uAt bs 0 64
  let nIdx := fld h 191 160
  let nBags := fld h 159 128
  let weighted := bitAt h 192
  let offW := fld h 127 96
  let offI := fld h 95 64
  let offB := fld h 63 32
  if bs.length < 64 || fld h 31 0 != 0x4B4F4F4C || fld h 511 193 != 0 || decide (4194304 < nIdx) || !(inRange 1 1048576 nBags)
      || decide (bs.length < offB + 8 * nBags) || decide (bs.length < offI + 8 * nIdx)
      || (weighted && decide (bs.length < offW + 4 * nIdx)) then .error 1
  else
    let es := (chunks 8 (slice bs offB (8 * nBags))).map leNat
    let is := (chunks 8 (slice bs offI (8 * nIdx))).map leNat
    let rows := is.toArray
    let bags := es.map fun e => (fld e 56 48, fld e 23 0, fld e 47 24)
    if es.any (fun e => fld e 63 57 != 0) || is.any (fun e => decide (2 ^ 40 ≤ e))
        || bags.any (fun b => decide (65536 < b.2.2) || decide (nIdx < b.2.1 + b.2.2) || (rowsOf b.1).isNone) then .error 1
    else if bags.any (fun b => (List.range b.2.2).any fun i => decide ((rowsOf b.1).getD 0 ≤ rows.getD (b.2.1 + i) 0)) then .error 2
    else .ok {
      bags := bags.toArray, rows, weighted
      weights := if weighted then ((chunks 4 (slice bs offW (4 * nIdx))).map fun b => (BitVec.ofNat 32 (leNat b) : W32)).toArray else #[] }

/-- The distinct rows of a bag in ascending order with their count and summed weight (R204). -/
def foldBag (b : Batch) (bag : Nat × Nat × Nat) : List (Nat × Nat × W32) :=
  (List.range bag.2.2).foldl (fun acc i =>
    let r := b.rows.getD (bag.2.1 + i) 0
    let w : W32 := if b.weighted then b.weights.getD (bag.2.1 + i) 0 else 0
    let old := lookupD r acc (0, 0)
    insertKey r (old.1 + 1, if b.weighted then f32Add old.2 w else 0) acc) []

/-- A key with its source: (source, owner, local row or hot slot, table, row) (R205). -/
abbrev Key := Nat × Nat × Nat × Nat × Nat

def keyLe (a b : Key) : Bool :=
  if a.1 != b.1 then decide (a.1 < b.1) else if a.2.1 != b.2.1 then decide (a.2.1 < b.2.1)
  else if a.2.2.1 != b.2.2.1 then decide (a.2.2.1 < b.2.2.1) else if a.2.2.2.1 != b.2.2.2.1 then decide (a.2.2.2.1 < b.2.2.2.1)
  else decide (a.2.2.2.2 ≤ b.2.2.2.2)

def routeEntry (k : Key) : Bytes :=
  record 16 [(0, k.2.2.2.2), (40, k.2.2.2.1), (61, k.1), (64, k.2.2.1), (96, k.2.1)]

def mapHead (bag rows len : Nat) : Bytes := record 16 [(16, bag), (63, 1), (64, rows), (96, len)]
def mapRow (bag slot mult : Nat) (wsum : W32) : Bytes := record 16 [(0, slot), (16, bag), (64, mult), (96, wsum.toNat)]

/-- Bags taken from the front of a list while their distinct keys number at most 65,536: how many (R204). -/
def takeBags (keysOf : Nat → List (Nat × Nat)) : List Nat → List (Nat × Nat) → Nat
  | [], _ => 0
  | b :: r, seen =>
    let all := (keysOf b).foldl (fun acc k => if acc.contains k then acc else k :: acc) seen
    if 65536 < all.length then 0 else 1 + takeBags keysOf r all

/-- Chunks of a bag map: at most 4,096 bags, and no more bytes than one handle names (R83, R206). -/
def mapChunks : List Bytes → Nat → Bytes → List Bytes
  | [], _, acc => if acc.isEmpty then [] else [acc]
  | b :: r, n, acc =>
    if n = 4096 || decide (4194176 < acc.length + b.length) then acc :: mapChunks r 1 b else mapChunks r (n + 1) (acc ++ b)

namespace State

/-- Bytes of the area that a descriptor spans. -/
def areaOf (d : Nat) : Nat := (streamOffsets d none).length * dUnit d

/-- The members of a coalescing group that wait, with their tiles, by member index. -/
def coalesceMembers (s : State) (p i : Nat) : List (Nat × Running) :=
  sortBy (fun (a b : Nat × Running) => decide (wImm a.2.item.wi 3 ≤ wImm b.2.item.wi 3)) ((s.poolTiles p).filterMap fun t =>
    (s.tile t).running.bind fun x =>
      if wOpcode x.item.wi == opCoalesce && x.waits == 3 && s.selectAt x.item (65536 + fld (wImm x.item.wi 2) 31 16) == some i
      then some (t, x) else none)

/-- The bound version of a table, and the hot-set version that the request may use with it (R199, R218). -/
def boundTable (s : State) (q : Request) (id : Nat) : Option (TableVer × Option HotVer) :=
  (q.tables.find? fun b => b.1 == 5 && b.2.1 == id).bind fun b => (s.table? id b.2.2).map fun v =>
    (v, (q.tables.find? fun h => h.1 == 8 && h.2.1 == id).bind fun h =>
      s.hotSets.find? fun x => x.table == id && x.version == h.2.2 && x.forVersion == v.version)

/-- The source of a key (R207). -/
def sourceOf (s : State) (q : Request) (id row : Nat) : Option Key :=
  match s.boundTable q id, s.tableCfg? id with
  | some (v, hot), some t =>
    let o := (v.map.locate row).getD (0, 0)
    let h := hot.bind fun x => x.rows.findIdx? (· == row)
    some (match h with
      | some h => if h < t.hotTileRows then (0, o.1, h, id, row)
          else if o.1 != s.pairIndex then (1, o.1, h, id, row) else (2, o.1, o.2, id, row)
      | none => if o.1 == s.pairIndex then (2, o.1, o.2, id, row) else (3, o.1, o.2, id, row))
  | _, _ => none

/-- The address of a key's row on this device; none for a remote one. -/
def keyAddr (s : State) (q : Request) (k : Key) : Option Nat :=
  match s.boundTable q k.2.2.2.1, s.tableCfg? k.2.2.2.1 with
  | some (v, hot), some t =>
    (match k.1, hot with
     | 0, some h => some (s.hotAddr t h.half k.2.2.1)
     | 1, some h => (h.replicaSlots.findIdx? (· == k.2.2.1)).map fun i => h.replica + i * t.stride
     | 2, _ => rowAddr t.stride v k.2.2.1
     | _, _ => none)
  | _, _ => none

/-- The bags that a group covers, in ascending number (R203). -/
def groupBags (w : Nat) (b : Batch) : List Nat :=
  (List.range b.bags.size).filter fun i => wImm w 0 == 0xFFFF || (b.bags.getD i (0, 0, 0)).1 == wImm w 0

/-- The keys of one bag, and of a run of bags. -/
def bagKeys (b : Batch) (i : Nat) : List (Nat × Nat) :=
  let bag := b.bags.getD i (0, 0, 0)
  (foldBag b bag).map fun r => (bag.1, r.1)

/-- A group ends with a fault of its leading member; the request then ends. -/
def coalesceFails (t cause : Nat) (s : State) : State :=
  match (s.tile t).running with
  | some x => s.faultItem t { x with waits := 0 } cause
  | none => s

/-- The bag map of a sub-batch is handed on (R206): chunk by chunk to the members' areas in turn, and as handles to their queues.
None when an area cannot take a chunk. The loop state is (chunks so far, bytes used in each member's area). `shape` is the format and
width of the bags' tables. -/
def handMap (ms : List (Nat × Running)) (isLast : Bool) (shape : Nat × Nat) : List Bytes → (Nat × List Nat) → State → Option ((Nat × List Nat) × State)
  | [], st, s => some (st, s)
  | c :: rest, st, s =>
    let order := (List.range ms.length).map fun i => (st.1 + i) % ms.length
    match order.find? fun i => match ms[i]? with
        | some m => decide (alignUp (st.2.getD i 0) 128 + c.length ≤ areaOf (slotDesc m.2 9))
        | none => false with
    | none => none
    | some i =>
      match ms[i]? with
      | none => none
      | some (t, x) =>
        let off := alignUp (st.2.getD i 0) 128
        let a := dBase (slotDesc x 9) + off
        match s.ioWrite (s.ioFor t x.item) 0 (targetOf a) a c with
        | (some _, _) => none
        | (none, s) =>
          let h := hbmHandle a c.length (wOutTag x.item.wi)
          let s := s.postHandles t x st.1 [if isLast && rest.isEmpty && ms.any (fun m => s.lastProducer m.2.item) then setLast h else h]
          let s := s.setReq x.item.req fun q => if q.order == x.item.reqOrder then
            { q with shapes := (a, shape) :: q.shapes.filter (·.1 != a) } else q
          handMap ms isLast shape rest (st.1 + 1, st.2.set i (off + c.length)) s

/-- Route entries are appended over the members' route areas in turn (R205); none when they cannot take them. -/
def putRoutes (ms : List (Nat × Running)) : Nat → List Bytes → State → Option State
  | _, [], s => some s
  | used, e :: rest, s =>
    let sizes := ms.map fun m => areaOf (slotDesc m.2 8) / 16 * 16
    let at' := ms.zipIdx.findSome? fun (m, i) =>
      let before := (sizes.take i).sum
      if before ≤ used && decide (used + 16 ≤ before + sizes.getD i 0) then some (m, dBase (slotDesc m.2 8) + (used - before)) else none
    match at' with
    | none => none
    | some (m, a) =>
      match s.ioWrite (s.ioFor m.1 m.2.item) 0 (targetOf a) a e with
      | (some _, _) => none
      | (none, s) => putRoutes ms (used + 16) rest s

/-- The group's list is done: every member completes; a slot given at the start of a REPEAT stage's items is free again. -/
def endCoalesce (p i : Nat) (ms : List (Nat × Running)) (s : State) : State :=
  let g := (s.pool p).selects[i]?
  let s := ms.foldl (fun s m => s.endItem m.1 m.2 0 0 0 false [] []) s
  match g with
  | some g => if ms.any fun m => bitAt (wImm m.2.item.wi 15) 31 then s.setPool p fun x => { x with selects := x.selects.erase g } else s
  | none => s

/-- One sub-batch's keys in route order, its bags, and whether it is the last (R204, R205). None when a table has no bound
version. -/
def subBatch (s : State) (q : Request) (w : Nat) (b : Batch) (start : Nat) : Option (List Key × List Nat × Bool) :=
  let left := (groupBags w b).drop start
  let bags := left.take (takeBags (bagKeys b) left [])
  let keys := ((bags.flatMap (bagKeys b)).eraseDups).map fun k => s.sourceOf q k.1 k.2
  if keys.all (·.isSome) then some (sortBy keyLe (keys.filterMap id), bags, bags.length == left.length) else none

/-- Every row of a sub-batch is in the row buffer: its route list and bag map are written and handed on (R204 to R206). -/
def handOn (ms : List (Nat × Running)) (b : Batch) (sub : List Key × List Nat × Bool) (store : List Nat) (s : State) : Option (List Nat × State) :=
  let slotOf := fun (k : Nat × Nat) => (sub.1.findIdx? fun y => y.2.2.2.1 == k.1 && y.2.2.2.2 == k.2).getD 0
  let maps := sub.2.1.map fun i =>
    let bag := b.bags.getD i (0, 0, 0)
    let rows := foldBag b bag
    mapHead i rows.length bag.2.2 ++ rows.flatMap fun r => mapRow i (slotOf (bag.1, r.1)) r.2.1 r.2.2
  let shape := (s.tableCfg? (b.bags.getD (sub.2.1.headD 0) (0, 0, 0)).1).elim (0, 0) fun c => (c.format, c.width)
  (s.putRoutes ms (store.getD 1 0) (sub.1.map routeEntry)).bind fun s =>
    (s.handMap ms sub.2.2 shape (mapChunks maps 0 []) (store.getD 2 0, store.drop 3)).map fun r =>
      ([store.getD 0 0 + sub.2.1.length, store.getD 1 0 + 16 * sub.1.length, r.1.1] ++ r.1.2, r.2)

/-- The sub-batch loop of a group from the leading member's tile on (R204): it stops while remote rows are to come. `fetched` says
that the present sub-batch's rows are all in the row buffer. -/
def coalesceLoop (t : Nat) : Nat → Bool → State → State
  | 0, _, s => s
  | k + 1, fetched, s =>
    match (s.tile t).running with
    | none => s
    | some x =>
      match s.req? x.item.req, s.selectAt x.item (65536 + fld (wImm x.item.wi 2) 31 16), readBatch (fun i => (s.tableCfg? i).map (·.rows)) x.bytes with
      | some q, some i, .ok b =>
        let w := x.item.wi
        let ms := s.coalesceMembers x.item.pool i
        let start := x.store.getD 0 0
        if (groupBags w b).length ≤ start then s.endCoalesce x.item.pool i ms
        else match s.subBatch q w b start with
          | none => s.endRequest x.item.req stVersionGone
          | some sub =>
            if fetched then
              match s.handOn ms b sub x.store with
              | none => s.coalesceFails t 1
              | some (store, s) =>
                let s := if sub.2.2 then s else s.count (devCtr 10) 1
                coalesceLoop t k false (s.setRunning t fun y => { y with store })
            else
              let s := sub.1.foldl (fun s y => s.count (devCtr (6 + y.1)) 1) s
              let stride := ((s.tableCfg? ((sub.1.head?.map fun y => y.2.2.2.1).getD 0)).map TableCfg.stride).getD 32
              let buf := dBase (slotDesc x 10)
              let here := sub.1.zipIdx.filterMap fun (y, n) => (s.keyAddr q y).map fun a => (a, n)
              if here.any fun p => s.hasBadLine p.1 stride then
                match here.findSome? fun p => s.badLineIn p.1 stride with
                | some l => (s.badRead x.item.req l).coalesceFails t 6
                | none => s
              else
                let io := s.ioFor t x.item
                let r := here.foldl (fun (acc : Option Nat × State) p =>
                  match acc.1 with
                  | some _ => acc
                  | none => acc.2.ioWrite io 0 (targetOf buf) (buf + p.2 * stride : Nat) (acc.2.readMem p.1 stride)) (none, s)
                match r.1 with
                | some f => r.2.coalesceFails t f
                | none =>
                  let far := sub.1.zipIdx.filter fun y => y.1.1 == 3
                  if far.isEmpty then coalesceLoop t k true r.2
                  else
                    let ids := (far.map fun y => y.1.2.2.2.1).eraseDups
                    let sent := ids.foldl (fun (acc : Option State) id => acc.bind fun s =>
                      (s.boundTable q id).bind fun v =>
                        let e : Exchange := { xid := 0, owner := 0, req := x.item.req, reqOrder := x.item.reqOrder, tile := t, kind := 0
                                              object := id, ids := [], places := [] }
                        s.requestAll e q.shareClass (s.collBudget q) v.1
                          ((far.filter fun y => y.1.2.2.2.1 == id).map fun y => (y.1.2.1, y.1.2.2.1, y.2))) (some r.2)
                    match sent with
                    | some s => s
                    | none => s.endRequest x.item.req stPeerLost
      | _, _, _ => s

/-- The areas of a group hold what R203 asks. -/
def areasOk (ms : List (Nat × Running)) (b : Batch) (stride : Nat) : Bool :=
  let sum := fun (n : Nat) => (ms.map fun m => areaOf (slotDesc m.2 n)).sum
  (ms.all fun m => decide (65536 * stride ≤ areaOf (slotDesc m.2 10)))
  && decide (16 * (b.rows.size + b.bags.size) ≤ sum 8 + sum 9) && decide (32 * b.rows.size ≤ sum 11)

/-- COALESCE (R201 to R208): a member joins its group; the last one's arrival lets the group's work begin. -/
def doCoalesce (t : Nat) (s : State) : State :=
  s.runOp t opCoalesce fun x get s =>
    let w := x.item.wi
    match readBatch (fun i => (s.tableCfg? i).map (·.rows)) (get 0), s.selectAt x.item (65536 + fld (wImm w 2) 31 16) with
    | .error c, _ => s.faultItem t x c
    | _, none => s
    | .ok b, some i =>
      let shape := fun (bag : Nat × Nat × Nat) => (s.tableCfg? bag.1).map fun c => (c.format, c.width)
      let uniform := wImm w 0 != 0xFFFF || b.bags.all fun bag => shape bag == shape (b.bags.getD 0 (0, 0, 0))
      if !uniform then s.faultItem t x 1
      else
        let s := s.setRunning t fun y => { y with waits := 3, bytes := get 0, store := [0, 0, 0] ++ List.replicate (fld (wImm w 2) 15 0) 0 }
        let s := s.setSelect x.item.pool i fun g => { g with arrived := g.arrived ++ [t] }
        let ms := s.coalesceMembers x.item.pool i
        if ms.length < fld (wImm w 2) 15 0 then s
        else
          let id := if wImm w 0 = 0xFFFF then (b.bags.getD 0 (0, 0, 0)).1 else wImm w 0
          if areasOk ms b (((s.tableCfg? id).map TableCfg.stride).getD 32) then s.coalesceLoop t (2 * b.bags.size + 2) false
          else s.coalesceFails t 1

/-- Rows of an owner land in the row buffer; after the last of the sub-batch the group goes on (R208). -/
def lookupRows (e : Exchange) (stride : Nat) (rows : Bytes) (s : State) : State :=
  match (s.tile e.tile).running with
  | some x =>
    if x.item.req == e.req && x.item.reqOrder == e.reqOrder && x.waits == 3 then
      let buf := dBase (slotDesc x 10)
      let io := s.ioFor e.tile x.item
      let r := (e.places.zip (chunks stride rows)).foldl (fun (acc : Option Nat × State) p =>
        match acc.1 with
        | some _ => acc
        | none => acc.2.ioWrite io 0 (targetOf buf) (buf + p.1 * stride : Nat) p.2) (none, s)
      match r.1 with
      | some f => r.2.coalesceFails e.tile f
      | none =>
        if r.2.exchanges.any fun y => y.kind == 0 && y.tile == e.tile && y.req == e.req && y.reqOrder == e.reqOrder then r.2
        else r.2.coalesceLoop e.tile (2 * x.bytes.length + 2) true
    else s
  | none => s

-- Pooling (R212, R213)

/-- The elements of a stored row as FP32 (R193). -/
def rowValues (fmt width : Nat) (row : Bytes) : List W32 :=
  if fmt = 0 || fmt = 1 then
    let scale := toF32From fp16 (uAt row 0 2)
    let bias := toF32From fp16 (uAt row 2 2)
    ((unpackBits (fmtBits fmt) (row.drop 4)).take width).map fun c => f32Fma scale (f32OfInt (elemInt fmt c)) bias
  else ((unpackBits (fmtBits fmt) row).take width).map (elemF32 fmt)

/-- The stride of rows in a work item's format and width (R193). -/
def poolStride (fmt width : Nat) : Nat :=
  alignUp (packedLen (fmtBits fmt) width + (if fmt = 0 || fmt = 1 then 4 else 0)) 32

/-- The bags of a bag-map chunk: number, length and its row entries as (slot, mult, wsum). -/
def readChunk : List Nat → List (Nat × Nat × List (Nat × Nat × Nat))
  | [] => []
  | e :: r =>
    let rest := readChunk r
    if bitAt e 63 then
      (fld e 35 16, fld e 127 96, (r.take (fld e 95 64)).map fun y => (fld y 15 0, fld y 95 64, fld y 127 96)) :: rest
    else rest

/-- One bag's vector (R212): `mode` 0 sum, 1 mean, 2 weighted sum; a failed row read gives its fault. -/
def poolBag (io : Io) (mode fmt width buf stride len : Nat) : List (Nat × Nat × Nat) → List W32 → State → Except Nat (List W32) × State
  | [], acc, s =>
    if mode = 1 && len != 0 then
      let r := s.mapFree (fun a s => s.vdiv a (f32OfInt len)) acc
      (.ok r.1, r.2)
    else (.ok acc, s)
  | e :: r, acc, s =>
    match s.ioRead io 0 (targetOf buf) (buf + e.1 * stride : Nat) stride with
    | (.error f, s) => (.error f, s)
    | (.ok row, s) =>
      let c : W32 := if mode = 2 then BitVec.ofNat 32 e.2.2 else f32OfInt e.2.1
      poolBag io mode fmt width buf stride len r (List.zipWith (fun x a => f32Fma c x a) (rowValues fmt width row) acc) s

/-- The vectors of a chunk's bags, written one after another at b × ⌈W × o ÷ 32⌉ × 32 from the output base (R212). -/
def poolBags (io : Io) (t : Nat) (x : Running) (mode stride : Nat) :
    List (Nat × Nat × List (Nat × Nat × Nat)) → State → Except Nat (List (Nat × Nat)) × State
  | [], s => (.ok [], s)
  | b :: rest, s =>
    let w := x.item.wi
    let width := wImm w 0
    match poolBag io mode (wAFmt w) width (dBase (slotDesc x 0)) stride b.2.1 b.2.2 (List.replicate width 0) s with
    | (.error f, s) => (.error f, s)
    | (.ok v, s) =>
      let o := fmtBits (wOutFmt w) / 8
      let a := dBase (slotDesc x 8) + b.1 * alignUp (width * o) 32
      match s.ioWrite io (dHint (slotDesc x 8)) (targetOf (dBase (slotDesc x 8))) a (convMany (wOutFmt w) v).1 with
      | (some f, s) => (.error f, s)
      | (none, s) =>
        match poolBags io t x mode stride rest s with
        | (.ok ps, s) => (.ok ((a, width * o) :: ps), s)
        | e => e

/-- The format code of R101 of a table's FORMAT (R192). -/
def tableFmt (f : Nat) : Nat := [12, 10, 11, 2, 0, 1].getD f 12

/-- The tables of a chunk's bags have the work item's format and width, as COALESCE recorded for the chunk (R212). -/
def shapeOk (s : State) (i : Item) (h : Nat) : Bool :=
  ((s.req? i.req).bind fun q => q.shapes.find? (·.1 == handleAddr h)).all fun y =>
    tableFmt y.2.1 == wAFmt i.wi && y.2.2 == wImm i.wi 0

/-- POOL_SUM, POOL_MEAN and POOL_WSUM (R212, R213) over one chunk of the bag map. -/
def poolItem (t code mode : Nat) (s : State) : State :=
  match s.running? t code with
  | none => s
  | some x =>
    let w := x.item.wi
    let io := s.ioFor t x.item
    match x.handles.head? with
    | none => s.faultItem t x 1
    | some h =>
      if !(s.shapeOk x.item h) then s.faultItem t x 1 else
      match s.ioRead io 0 (targetOf (handleAddr h)) (handleAddr h) (handleBytes h) with
      | (.error f, s) => s.faultItem t x f
      | (.ok bs, s) =>
        let bags := readChunk ((chunks 16 bs).map leNat)
        match poolBags io t x mode (poolStride (wAFmt w) (wImm w 0)) bags s with
        | (.error f, s) => s.faultItem t x f
        | (.ok ps, s) =>
          let empty := (bags.filter fun b => b.2.1 == 0).length
          let flags := if empty = 0 then 0 else cbEmpty
          match ps with
          | [] => s.endItem t x 0 flags (satTo 16 empty) false [] []
          | p :: r =>
            -- one handle for the span written, from a 128-byte boundary (R83)
            let lo := (r.map Prod.fst).foldl min p.1
            let hi := ((p :: r).map fun y => y.1 + y.2).foldl max 0
            let hs := if inHbm lo then (let a := lo / 128 * 128; (List.range (ceilDiv (hi - a) 4194176)).map fun i =>
                  hbmHandle (a + 4194176 * i) (min 4194176 (hi - a - 4194176 * i)) (wOutTag w))
              else match tileOf lo with
                | some (u, off) => [tileHandle u off (hi - lo) (s.gen u (off / 4096)) (wOutTag w)]
                | none => []
            (s.sendHandles t x hs false).endItem t x 0 flags (satTo 16 empty) false [] []

def doPoolSum (t : Nat) (s : State) : State := s.poolItem t 0x51 0
def doPoolMean (t : Nat) (s : State) : State := s.poolItem t 0x52 1
def doPoolWsum (t : Nat) (s : State) : State := s.poolItem t 0x53 2

end State
end Sys2Proof.Machine
end

