-- ==== Sys2Proof/Machine/Passages.lean ====
section
/-! DEFINITION. Passage stages (R250 to R257): resolution of a candidate list, passages of peers, pairs and source words. -/

namespace Sys2Proof.Machine

/-- An entry of a candidate list as resolution reads it: id, key, score, source word, and the owner when the list names one. -/
structure ListEntry where
  id : Nat
  key : Nat
  score : Nat
  src : Nat
  owner : Option Nat
  deriving DecidableEq, Repr

/-- The entries of a Wheel result or a Bolter list (R155, R169), those that COUNT says are valid; none for another input (R251). -/
def listEntries (bs : Bytes) : Option (List ListEntry) :=
  if uAt bs 0 4 = 0x5453494C then
    let n := uAt bs 16 4
    some (((chunks 24 (slice bs 32 (24 * min n 8192))).map candDecode).map fun c =>
      { id := c.id, key := c.key, score := c.score, src := c.src, owner := some c.dev })
  else if uAt bs 0 4 = 0x57524553 then
    let h := uAt bs 0 64
    let ty := if fld h 37 36 = 2 then 1 else 0
    some (((chunks 16 (slice bs 64 (16 * min (fld h 79 64) 8192))).map leNat).map fun e =>
      { id := fld e 63 0, key := (keyOf ty (BitVec.ofNat 32 (fld e 127 96))).getD 0, score := fld e 127 96, src := 0, owner := none })
  else none

/-- The marker address of a passage whose owner was LOST. -/
def lostMark : Nat := 1

/-- One pair (R257). -/
def pairTokens (c : StoreCfg) (query passage : List Nat) : List Nat × Nat :=
  let marker := fun (n : Nat) => if n = none32 then [] else [n]
  let head := marker c.pairCls ++ query.take c.queryMax ++ marker c.pairSep
  let room := c.pairLen - head.length - (marker c.pairEnd).length
  let ts := (head ++ passage.take room ++ marker c.pairEnd).take c.pairLen
  (ts ++ List.replicate (c.pairLen - ts.length) c.pairPad, ts.length)

namespace State

/-- The version of a passage store that a request bound (R249). -/
def boundStore (s : State) (q : Request) (id : Nat) : Option StoreVer :=
  (q.tables.find? fun b => b.1 == 6 && b.2.1 == id).bind fun b => s.store? id b.2.2

/-- A device of an owner's is LIVE (R335, R341). -/
def ownerLive (s : State) (dev : Nat) : Bool := (s.answersFor dev).any s.liveDevice

/-- This device owns what an index names (R341). -/
def ownIndex (s : State) (dev : Nat) : Bool := dev == s.pairIndex || dev == s.cfg.peers.selfIndex

/-- The owner of an entry's passage (R250, R251). -/
def passageOwner (s : State) (bySource : Bool) (e : ListEntry) : Nat := if bySource then e.owner.getD s.pairIndex else s.pairIndex

/-- What a request has fetched is kept by owner and store, and passage id (R253). -/
def fetchKey (owner store : Nat) : Nat := owner + 256 * store

/-- Bytes that a handle names, read by the Hopper; none in a listed line (R447). -/
def hopperRead (s : State) (h : Nat) : Option Bytes :=
  if inHbm (handleAddr h) && s.hasBadLine (handleAddr h) (handleBytes h) then none else some (s.readMem (handleAddr h) (handleBytes h))

/-- A read of the Hopper for a request met a listed line: the request fails (R447). -/
def hopperFault (r st a n : Nat) (s : State) : State :=
  let s := match s.badLineIn a n with
    | some l => s.badRead r l
    | none => s
  s.failRequest r 6 (some st)

/-- What the Hopper reads through a handle for a stage of a request: its bytes, or the state in which the request has failed: the handle out of range
or stale (R84, R99), or in a listed line (R447). -/
def hopperGet (s : State) (r st h : Nat) : Except State Bytes :=
  match s.handleFault h, s.hopperRead h with
  | some f, _ => .error (s.failRequest r f (some st))
  | none, none => .error (s.hopperFault r st (handleAddr h) (handleBytes h))
  | none, some bs => .ok bs

def setStage (r st : Nat) (f : StageRun → StageRun) (s : State) : State :=
  s.setReq r fun q => { q with stages := q.stages.map fun y => if y.stage == st then f y else y }

/-- Buffers of a request's device area in the order they are written (R113): none when one does not fit. -/
def devWrite (r : Nat) : List Bytes → State → Option (List Nat × State)
  | [], s => some ([], s)
  | b :: rest, s => (s.devAlloc r b.length).bind fun x => (devWrite r rest (x.2.storeHbm (some r) fnHopper x.1 b)).map fun y => (x.1 :: y.1, y.2)

/-- The passages that a stage's entries still need from peers: owner and id. -/
def passagesMissing (s : State) (q : Request) (bySource : Bool) (store : Nat) (es : List ListEntry) : List (Nat × Nat) :=
  ((es.map fun e => (s.passageOwner bySource e, e.id)).filter fun p => !(s.ownIndex p.1)
    && !(q.fetched.any fun f => f.1 == fetchKey p.1 store && f.2.1 == p.2)).eraseDups

/-- One entry resolved (R251): the token address and count; none for an absent passage (false) or a LOST owner (true). -/
def resolveEntry (s : State) (q : Request) (bySource : Bool) (store : Nat) (e : ListEntry) : Except Bool (Nat × Nat) :=
  let o := s.passageOwner bySource e
  if s.ownIndex o then
    match (s.boundStore q store).bind fun v => v.passages.find? (·.id == e.id) with
    | some p => .ok (p.addr, p.tokens)
    | none => .error false
  else match q.fetched.find? fun f => f.1 == fetchKey o store && f.2.1 == e.id with
    | some f => if f.2.2.2 = 0 then .error (f.2.2.1 == lostMark) else .ok (f.2.2.1, f.2.2.2)
    | none => .error false

/-- Entries kept, each with its position in the input, its tokens; and the numbers missing and lost. -/
def resolveAll (s : State) (q : Request) (bySource : Bool) (store : Nat) :
    List (ListEntry × Nat) → List (ListEntry × Nat × Nat × Nat) × Nat × Nat
  | [] => ([], 0, 0)
  | (e, i) :: r =>
    let y := resolveAll s q bySource store r
    match s.resolveEntry q bySource store e with
    | .ok p => ((e, i, p.1, p.2) :: y.1, y.2)
    | .error false => (y.1, y.2.1 + 1, y.2.2)
    | .error true => (y.1, y.2.1, y.2.2 + 1)

/-- The passage list of resolved entries (R251). -/
def passageList (s : State) (bySource : Bool) (store version missing lost : Nat) (ps : List (ListEntry × Nat × Nat × Nat)) : Bytes :=
  record 32 [(0, 0x54534C50), (32, store), (64, version), (96, ps.length), (128, lost), (160, missing)] ++ ps.flatMap fun p =>
    record 32 [(0, p.2.2.1), (64, p.2.2.2), (104, s.passageOwner bySource p.1), (112, p.2.1), (128, p.1.id), (192, p.1.key), (224, p.1.score)]

/-- The source words of resolved entries (R256). -/
def sourceWords (s : State) (bySource : Bool) (ps : List (ListEntry × Nat × Nat × Nat)) : Bytes :=
  ps.flatMap fun p => leBytes 8 (p.1.src - fld p.1.src 55 48 * 2 ^ 48 + s.passageOwner bySource p.1 * 2 ^ 48)

/-- The pair buffer (R256, R257). -/
def pairBuffer (s : State) (c : StoreCfg) (query : List Nat) (ps : List (ListEntry × Nat × Nat × Nat)) : Bytes :=
  let pairs := ps.map fun p => pairTokens c query (words32 (s.readMem p.2.2.1 (4 * min p.2.2.2 c.pairLen)))
  padTo 128 (pairs.flatMap fun p => leBytes 4 p.2) ++ pairs.flatMap fun p => p.1.flatMap (leBytes 4)

/-- Every passage of a stage is at hand: its list, and with PAIRS its pairs and source words, are written and its work items dispatched
(R251, R255 to R257). -/
def finishResolve (r st obj : Nat) (es : List ListEntry) (s : State) : State :=
  match s.req? r, s.storeCfg? (obj % 16) with
  | some q, some c =>
    match stageRun? q st with
    | none => s
    | some x =>
      let store := obj % 16
      let bySource := bitAt obj 4
      let bound := s.boundStore q store
      let y := if bound.isNone then ([], es.length, 0) else s.resolveAll q bySource store es.zipIdx
      let s := s.count (devCtr 12) y.2.1
      let s := if y.2.2 = 0 then s else s.setReq r fun q => { q with flags := q.flags ||| flPartial }
      let list := s.passageList bySource store ((bound.map (·.version)).getD 0) y.2.1 y.2.2 y.1
      let pairs := bitAt obj 5
      match (match (if pairs then x.inputs[1]? else none) with
        | some h => s.hopperGet r st h
        | none => .ok []) with
      | .error s => s
      | .ok query =>
      if pairs && uAt query 0 4 != 0x4E4B4F54 then s.failRequest r 1 (some st)
      else
        let bad := if pairs then (y.1.find? fun p => s.hasBadLine p.2.2.1 (4 * min p.2.2.2 c.pairLen)) else none
        match bad with
        | some p => s.hopperFault r st p.2.2.1 (4 * min p.2.2.2 c.pairLen)
        | none =>
          let toks := words32 (slice query 32 (4 * uAt query 8 4))
          let bufs := list :: (if pairs then [s.pairBuffer c toks y.1, s.sourceWords bySource y.1] else [])
          match s.devWrite r bufs with
          | none => s.failRequest r 1 (some st)
          | some (as', s) =>
            let hs := (as'.zip bufs).map fun p => hbmHandle p.1 (max 1 (min 4194176 p.2.length)) 0
            let inputs := if pairs then hs.take 1 ++ (x.inputs.drop 1).take 1 ++ hs.drop 1 ++ x.inputs.drop 2 else hs ++ x.inputs.drop 1
            -- a passage marked LOST was so for this resolution alone: a later one asks again (R251)
            let s := s.setReq r fun q => { q with fetched := q.fetched.filter fun f => f.2.2.1 != lostMark }
            (s.setStage r st fun y => { y with inputs, list := as'.head?, resolving := false }).dispatch r st
  | _, _ => s

/-- One request record to an owner for passages (R252). -/
def requestPassages (r store owner : Nat) (q : Request) (version : Nat) (ids : List Nat) (s : State) : Option State :=
  (s.ownerSession owner).map fun sid =>
    let x := s.newXid 12
    let xid := x.1 + store * 4096
    let e : Exchange := { xid, owner, req := r, reqOrder := q.order, tile := 0, kind := 1, object := store, ids, places := [] }
    let s : State := { x.2 with exchanges := x.2.exchanges ++ [e] }
    s.sendColl sid { op := 3, origin := s.pairIndex, number := xid, req := r, budget := s.collBudget q }
      (rowHeader 0x51505350 xid 0 version 0 ids.length q.shareClass ++ ids.flatMap (leBytes 8))

/-- Passages that cannot come, since their owner is LOST (R251). -/
def markLost (r owner store : Nat) (ids : List Nat) (s : State) : State :=
  s.setReq r fun q => { q with fetched := q.fetched ++ ids.map fun i => (fetchKey owner store, i, lostMark, 0) }

/-- Resolution of a passage stage (R251, R252): the passages of peers are asked for; with all at hand it ends. -/
def resolve (r st : Nat) (s : State) : State :=
  match s.req? r with
  | none => s
  | some q =>
    match s.stageOf q st, stageRun? q st with
    | some g, some x =>
      if q.status.isSome || x.dispatched then s
      else
        let store := g.object % 16
        match (x.inputs[0]?).map fun h => s.hopperGet r st h with
        | none => s.failRequest r 1 (some st)
        | some (.error s) => s
        | some (.ok bs) =>
          match listEntries bs with
          | none => s.failRequest r 1 (some st)
          | some es =>
            let bySource := bitAt g.object 4
            match s.boundStore q store with
            | none => s.finishResolve r st g.object es
            | some v =>
              let need := s.passagesMissing q bySource store es
              if need.isEmpty then s.finishResolve r st g.object es
              else if x.resolving then s
              else
                let owners := (need.map Prod.fst).eraseDups
                let s := s.setStage r st fun y => { y with resolving := true }
                let s := owners.foldl (fun s o =>
                  let ids := (need.filter (·.1 == o)).map Prod.snd
                  match s.requestPassages r store o q v.version ids with
                  | some s => s
                  | none => s.markLost r o store ids) s
                if s.exchanges.any fun e => e.kind == 1 && e.req == r && e.reqOrder == q.order then s
                else s.finishResolve r st g.object es
    | _, _ => s

/-- The passage stages of a request that wait for peers go on once every reply is in. -/
def resumePassages (r order : Nat) (s : State) : State :=
  if s.exchanges.any fun e => e.kind == 1 && e.req == r && e.reqOrder == order then s
  else match s.req? r with
    | some q => (q.stages.filter (·.resolving)).foldl (fun s x => (s.setStage r x.stage fun y => { y with resolving := false }).resolve r x.stage) s
    | none => s

-- Serving passages (R252)

/-- One passage of a reply: its length word and its tokens, or 0 for an absent id. -/
def passageReplyOf (s : State) (v : StoreVer) (id : Nat) : Bytes :=
  match v.passages.find? (·.id == id) with
  | some p => leBytes 8 p.tokens ++ padTo 32 (s.readMem p.addr (4 * p.tokens))
  | none => leBytes 8 0

/-- The answer to a passage request record (R209, R252): its status and the passages. -/
def servePassages (s : State) (rec' : Bytes) : Nat × Nat × Bytes :=
  let h := uAt rec' 0 32
  let n := fld h 159 128
  let store := fld h 47 44
  let ids := (chunks 8 (rec'.drop 32)).map leNat
  if fld h 31 0 != 0x51505350 || fld h 63 48 != 0 || fld h 127 96 != 0 || fld h 255 166 != 0 || !(inRange 1 65536 n)
      || rec'.length != 32 + 8 * n then (4, 0, [])
  else match s.store? store (fld h 95 64) with
    | none => (1, 0, [])
    | some v =>
      if v.state = 0 then (2, 0, [])
      else if v.passages.any fun p => ids.contains p.id && s.hasBadLine p.addr (4 * p.tokens) then (4, 0, [])
      else (0, n, ids.flatMap (s.passageReplyOf v))

/-- The passages of a reply in the order asked: tokens, none for an absent one; none when the reply is not whole. -/
def replyPassages : List Nat → Bytes → Option (List (Nat × Bytes))
  | [], _ => some []
  | i :: r, bs =>
    let n := uAt bs 0 8 % 16384
    let len := alignUp (4 * n) 32
    if bs.length < 8 + len then none else (replyPassages r (bs.drop (8 + len))).map fun y => (i, slice bs 8 (4 * n)) :: y

/-- Passages of an owner arrive for a request (R251 to R253): each is kept in its device area. -/
def passagesLand (e : Exchange) (ps : List (Nat × Bytes)) (s : State) : State :=
  let max' := ((s.storeCfg? e.object).map (·.maxTokens)).getD 0
  let put := ps.foldl (fun (acc : Option State) p => acc.bind fun s =>
    if p.2.isEmpty then some (s.setReq e.req fun q => { q with fetched := q.fetched ++ [(fetchKey e.owner e.object, p.1, 0, 0)] })
    else (s.devAlloc e.req (4 * max')).map fun a => (a.2.storeHbm (some e.req) fnHopper a.1 p.2).setReq e.req fun q =>
      { q with fetched := q.fetched ++ [(fetchKey e.owner e.object, p.1, a.1, p.2.length / 4)] }) (some s)
  match put with
  | some s => s.resumePassages e.req e.reqOrder
  | none => s.failRequest e.req 1 none

end State
end Sys2Proof.Machine
end

