-- ==== Sys2Proof/Machine/Owners.lean ====
section
/-! DEFINITION. Rows and passages between devices (R209 to R211, R252, R253, R369): serving requests, taking replies, and owners
that are LOST (R29, R211, R251). -/

namespace Sys2Proof.Machine

namespace State

/-- A COLL message of one operation (R369); one whose header is not whole has no effect. -/
def onColl (op : Nat) (m : Msg) (f : Session → CollHead → Bytes → State → State) (s : State) : State :=
  s.onMessage 0x70 m false (fun p => decide (64 ≤ p.length) && uAt p 0 1 == op) fun q _ p s =>
    if collOk p then f q (CollHead.decode p) (p.drop 64) s else s

/-- ROW_REQUEST (R209, R210): the owner answers; while LOOKUP is stopped or the pool that serves it is gated, NOT_READY (R430). -/
def doRowRequest (m : Msg) (s : State) : State :=
  s.onColl 1 m (fun (q : Session) h body s =>
    let pool := s.hotPool
    let gated := (pool.map (bitAt s.power.gate)).getD true
    let r := if s.runs fnLookup && !gated then s.serveRows body else (2, 0, [])
    let table := fld (uAt body 0 32) 56 48
    let s := match pool with
      | some p => if r.1 = 0 then s.chargeShare p (fld (uAt body 0 32) 165 160) else s
      | none => s
    s.sendColl q.id { op := 2, origin := h.origin, number := h.number, req := h.req }
      (replyHeader 0x53574F52 (h.number % 65536) table r.1 (if r.1 = 0 then fld (uAt body 0 32) 159 128 else 0) r.2.1 ++ r.2.2))

/-- PASSAGE_REQUEST (R252): the owner answers; while SERVE is stopped, NOT_READY. -/
def doPassageRequest (m : Msg) (s : State) : State :=
  s.onColl 3 m (fun (q : Session) h body s =>
    let r := if s.runs fnServe then s.servePassages body else (2, 0, [])
    s.sendColl q.id { op := 4, origin := h.origin, number := h.number, req := h.req }
      (replyHeader 0x53505350 (h.number % 65536) 0 r.1 r.2.1 0 ++ r.2.2))

/-- The exchange that a reply of a session answers: its number, with a device that answers for the owner (R341). -/
def exchangeOf (s : State) (q : Session) (kinds : List Nat) (number : Nat) : Option Exchange :=
  s.exchanges.find? fun e => e.xid == number && kinds.contains e.kind && (s.answersFor e.owner).contains q.dev

/-- The status that a reply status ends a request with (R209). -/
def replyEnds (status : Nat) : Nat := if inRange 1 3 status then stVersionGone else stContained

/-- A request ends by what an owner answered, or because the owner was LOST. -/
def exchangeFails (e : Exchange) (status : Nat) (s : State) : State :=
  if e.kind = 2 then s.endInstall e.object refFetchFailed
  else match s.live? e.req e.reqOrder with
    | some _ => if status = stContained then s.failRequest e.req 6 none else s.endRequest e.req status
    | none => s

def dropExchange (e : Exchange) (s : State) : State := { s with exchanges := s.exchanges.erase e }

/-- ROW_REPLY (R209, R211): the rows land for the look-up or the install that asked; a reply that no exchange awaits is
discarded. -/
def doRowReply (m : Msg) (s : State) : State :=
  s.onColl 2 m (fun (q : Session) h body s =>
    match s.exchangeOf q [0, 2] h.number with
    | none => s
    | some e =>
      let s := s.dropExchange e
      let r := uAt body 0 32
      let stride := fld r 175 160
      let rows := body.drop 32
      if !(replyWhole r) || fld r 31 0 != 0x53574F52 || fld r 56 48 != e.object || fld r 47 32 != e.xid % 65536 then s.exchangeFails e stContained
      else if fld r 71 64 != 0 then s.exchangeFails e (replyEnds (fld r 71 64))
      else if fld r 159 128 != e.ids.length || rows.length != e.ids.length * stride || ((s.tableCfg? e.object).map (·.stride)) != some stride then
        s.exchangeFails e stContained
      else if e.kind = 2 then s.hotRows e stride rows
      else match s.live? e.req e.reqOrder with
        | some _ => s.lookupRows e stride rows
        | none => s)

/-- PASSAGE_REPLY (R252, R253). -/
def doPassageReply (m : Msg) (s : State) : State :=
  s.onColl 4 m (fun (q : Session) h body s =>
    match s.exchangeOf q [1] h.number with
    | none => s
    | some e =>
      let s := s.dropExchange e
      let r := uAt body 0 32
      match s.live? e.req e.reqOrder with
      | none => s
      | some _ =>
        if !(replyWhole r) || fld r 31 0 != 0x53505350 || fld r 56 48 != 0 || fld r 47 32 != e.xid % 65536 then s.exchangeFails e stContained
        else if fld r 71 64 != 0 then s.exchangeFails e (replyEnds (fld r 71 64))
        else match replyPassages e.ids (body.drop 32) with
          | none => s.exchangeFails e stContained
          | some ps =>
            let most := ((s.storeCfg? e.object).map (·.maxTokens)).getD 0
            if ps.any fun p => decide (4 * most < p.2.length) then s.exchangeFails e stContained else s.passagesLand e ps)

/-- An exchange whose owner is LOST (R211, R251, R216): a look-up ends FAILED_PEER_LOST, passages are left out, an install ends
without effect. -/
def ownerLost (e : Exchange) (s : State) : State :=
  if !(s.exchanges.contains e) then s
  else
    let s := s.dropExchange e
    if e.kind = 1 then
      match s.live? e.req e.reqOrder with
      | some _ => (s.markLost e.req e.owner e.object e.ids).resumePassages e.req e.reqOrder
      | none => s
    else s.exchangeFails e stPeerLost

/-- Every exchange whose owner no device answers for any more. -/
def lostOwners (s : State) : State :=
  (s.exchanges.filter fun e => !(s.ownerLive e.owner)).foldl (fun (s : State) e => s.ownerLost e) s

end State
end Sys2Proof.Machine
end

