-- ==== Sys2Proof/Machine/Submit.lean ====
section
/-! DEFINITION. SUBMIT and CANCEL (R28, R110, R199, R237, R267 to R271, R359 to R362), and prefix handles (R275, R276,
R287 to R290). -/

namespace Sys2Proof.Machine

/-- What a SUBMIT says (R359, R360). -/
structure SubmitMsg where
  plan : Nat
  entry : Nat
  final : Nat
  shareClass : Nat
  priority : Nat
  model : Option Nat
  tokeniser : Option Nat
  grammar : Option Nat
  adapter : Option Nat
  budgetUs : Nat
  maxNew : Nat
  bound : Nat
  bodyAt : Nat
  sampling : Option (W32 × W32 × Nat × Nat) := none
  stops : List Bytes := []
  handle : Option (Nat × Nat × Nat) := none
  versions : List Nat := []
  collective : Option (Nat × Nat × Nat) := none
  deriving DecidableEq, Repr

/-- Option blocks as (kind, block); none when one overruns, has a reserved field, or repeats a kind (R360). -/
def optionBlocks : Nat → Bytes → Option (List (Nat × Bytes))
  | 0, bs => if bs.isEmpty then some [] else none
  | k + 1, bs =>
    if bs.isEmpty then some []
    else
      let n := uAt bs 2 2
      let kind := uAt bs 0 2
      if n < 8 || n % 8 != 0 || bs.length < n || uAt bs 4 4 != 0 || !(inRange 1 5 kind) then none
      else match optionBlocks k (bs.drop n) with
        | some r => if r.any (·.1 == kind) then none else some ((kind, bs.take n) :: r)
        | none => none

/-- Well-formed stop strings (R237): 1 to 128 bytes of UTF-8 without U+FFFD. -/
def stopOk (b : Bytes) : Bool :=
  inRange 1 128 b.length && utf8Ok b.length b && !((List.range b.length).any fun i => slice b i 3 == replacement)

/-- The eight strings of a STOP option; what R237 asks of them is checked with the objects (R268). -/
def stopStrings (b : Bytes) : Option (List Bytes) :=
  let lens := (slice b 8 8).map (·.toNat)
  let strs := (lens.foldl (fun (acc : List Bytes × Nat) n => (acc.1 ++ [slice b acc.2 n], acc.2 + n)) ([], 16)).1
  let used := strs.filter (!·.isEmpty)
  if 16 + lens.sum ≤ b.length && allZero (b.drop (16 + lens.sum)) then some used else none

/-- Temperature 0 or from 0.01 to 100; top-p above 0 and at most 1; top-k to 4,096 (R286). -/
def samplingOk (t p : W32) (k : Nat) : Bool :=
  (t.toNat % 2 ^ 31 == 0 || inRange 0x3C23D70A 0x42C80000 t.toNat) && inRange 1 0x3F800000 p.toNat && decide (k ≤ 4096)

/-- One option block laid over a message (R360). -/
def withOption (m : SubmitMsg) (o : Nat × Bytes) : Option SubmitMsg :=
  let b := o.2
  let whole := fun (n : Nat) => decide (n ≤ b.length) && allZero (b.drop n)
  match o.1 with
  | 1 =>
    let t := BitVec.ofNat 32 (uAt b 8 4)
    let p := BitVec.ofNat 32 (uAt b 12 4)
    let k := uAt b 16 2
    if whole 32 && allZero (slice b 18 6) && samplingOk t p k then some { m with sampling := some (t, p, k, uAt b 24 8) } else none
  | 2 => if b.length < 16 then none else (stopStrings b).map fun ss => { m with stops := ss }
  | 3 =>
    let f := uAt b 20 4
    if whole 24 && decide (f < 8) && !(bitAt f 1 && uAt b 8 8 == 0) then some { m with handle := some (uAt b 8 8, uAt b 16 4, f) } else none
  | 4 =>
    let es := words64 (b.drop 8)
    if es.all fun e => fld e 63 42 == 0 && (!(bitAt e 41) || decide (fld e 40 32 < 16)) then some { m with versions := es } else none
  | _ =>
    if whole 48 && decide (uAt b 12 4 < 2) then some { m with collective := some (uAt b 8 4, uAt b 12 4, uAt b 16 32) } else none

/-- A SUBMIT payload read (R359, R360); none when its layout, or a field taken alone, is wrong. -/
def readSubmit (p : Bytes) : Option SubmitMsg :=
  let h := uAt p 0 32
  let n := fld h 207 192
  let valid := fun (v hi lo : Nat) => if bitAt h v then some (fld h hi lo) else none
  if p.length < 32 + n || n % 8 != 0 || fld h 31 0 != 0x54425553 || fld h 50 32 != 0 || fld h 255 208 != 0
      || 1048576 < fld h 170 150 then none
  else
    let m : SubmitMsg := {
      plan := fld h 58 51, entry := fld h 67 59, final := fld h 76 68, shareClass := fld h 82 77, priority := fld h 85 83
      model := valid 92 91 86, tokeniser := valid 97 96 93, grammar := valid 106 105 98, adapter := valid 117 116 107
      budgetUs := fld h 149 118, maxNew := fld h 170 150, bound := fld h 191 171, bodyAt := 32 + n }
    (optionBlocks 6 (slice p 32 n)).bind fun os => os.foldl (fun acc o => acc.bind fun m => withOption m o) (some m)

/-- The stages on some path from one stage to another (R110). -/
def pathOf (pl : Plan) (entry final : Nat) : List Nat :=
  let anc := ancestors pl.stages
  let before := fun (a b : Nat) => a == b || (anc.getD b []).contains a
  if pl.stages.length ≤ final || !(before entry final) then []
  else (List.range pl.stages.length).filter fun st => before entry st && before st final

/-- A text stage: its object names a tokeniser (R410). -/
def isText (x : Stage) : Bool := inRange 0x1000 0x100F x.object || x.object == 0x10FF
/-- A passage stage (R250). -/
def isPassage (x : Stage) : Bool := x.kind != 0 && x.object / 256 == 0x30

/-- The functions that some stages need (R410). -/
def stagesNeed (xs : List Stage) : Nat :=
  fnPort ||| fnHopper ||| fnPools ||| (if xs.any (·.kind == 0) then fnWheel else 0) ||| (if xs.any (·.kind == 2) then fnLookup else 0)
  ||| (if xs.any isText then fnText else 0)
  ||| (if xs.any fun x => x.kind == 4 || x.kind == 5 || isPassage x then fnServe else 0)

/-- The stop automaton of R237 as the model lays it out: 256 bytes a string, its text, then its prefix function; the length in the
place of the first prefix value, which is always 0. -/
def stopTable (ss : List Bytes) : Bytes :=
  let fail := fun (b : Bytes) => (List.range b.length).map fun i =>
    ((List.range i).reverse.find? fun k => slice b 0 (k + 1) == slice b (i - k) (k + 1)).elim 0 (· + 1)
  fit 2048 (ss.flatMap fun b => fit 128 b ++ fit 128 (((fail b).set 0 b.length).map (BitVec.ofNat 8)))

/-- The page-list blocks of some page entries (R276): up to 15 to a block, chained. -/
def pageBlocks (addrs : List Nat) (words : List Nat) : List (Nat × Bytes) :=
  addrs.zipIdx.map fun (a, i) =>
    let mine := (words.drop (15 * i)).take 15
    let next := match addrs[i + 1]? with
      | some b => b / 128
      | none => 2 ^ 41 - 1
    (a, fit 128 (leBytes 8 (packed [(0, next), (48, mine.length)]) ++ mine.flatMap (leBytes 8)))

namespace State

-- KV (R275, R276)

def pageWord (p : KvPage) : Nat := packed [(0, p.base / 128), (55, p.fill), (62, b01 p.shared), (63, b01 p.isSealed)]

/-- A request's page list stands in its blocks. -/
def writePageList (r : Nat) (s : State) : State :=
  match s.req? r with
  | none => s
  | some q => (pageBlocks q.kvBlocks (q.pages.map pageWord)).foldl (fun (s : State) b => s.storeHbm (some r) fnHopper b.1 b.2) s

/-- The Hopper meets a listed line in a page that it copies for a request: the request fails (R447). -/
def copyFault (r a n : Nat) (s : State) : State :=
  (match s.badLineIn a n with
    | some l => s.badRead r l
    | none => s).failRequest r 6 none

/-- A handle's pages that no other handle and no request holds are freed (R289): at once zero when `now`, else by zeroing. A request whose
copy of the partial page is under way has it first (R288). -/
def dropPrefix (p : Prefix) (now : Bool) (s : State) : State :=
  let copying := s.reqs.filter fun x => x.2.copying && x.2.reuse == some p.handle
  let s := copying.foldl (fun (s : State) x =>
    let layers := p.partialPages.length
    let own := ((x.2.pages.drop (x.2.length / 64 * layers)).take layers).map (·.base)
    let n := x.2.length % 64 * (s.pageBytes x.2 / 64)
    match p.partialPages.find? fun a => s.hasBadLine a n with
    | some a => s.copyFault x.1 a n
    | none => (p.partialPages.zip own).foldl (fun (s : State) y => s.storeHbm (some x.1) fnHopper y.2 (s.readMem y.1 n)) s) s
  let s : State := { s with prefixes := s.prefixes.filter (·.handle != p.handle) }
  let kept := (s.prefixes.flatMap fun x => x.pages ++ x.partialPages) ++ s.reqs.flatMap fun x => x.2.pages.map (·.base)
  let mine := s.kvUsed.filter fun u => (p.pages ++ p.partialPages).contains u.1 && !(kept.contains u.1)
  mine.foldl (fun (s : State) u =>
    if now then { ((s.dropLines u.1 u.2).clearMem u.1 u.2) with kvUsed := s.kvUsed.erase u } else s.release u.1 u.2) s |>.reap

/-- Handles that an admission may evict, least recently bound first (R290): not one that the SUBMIT itself reuses. -/
def evictables (keep : Option Nat) (s : State) : List Prefix :=
  sortBy (fun a b => decide (a.lastBound ≤ b.lastBound)) (s.prefixes.filter fun p =>
    p.evictable && some p.handle != keep && !(s.reqs.any fun r => r.2.reuse == some p.handle))

/-- A handle is evicted (R290). -/
def evict (p : Prefix) (s : State) : State := (s.dropPrefix p true).count (devCtr 13) 1

/-- A reservation of KV ranges of two sizes, evicting handles until it fits (R275, R290). -/
def reserveKv (keep : Option Nat) (pages pb blocks : Nat) : Nat → State → Option ((List Nat × List Nat) × State)
  | 0, s => (s.allocKvN pb pages).bind fun a => (a.2.allocKvN 128 blocks).map fun b => ((a.1, b.1), b.2)
  | k + 1, s =>
    match (s.allocKvN pb pages).bind fun a => (a.2.allocKvN 128 blocks).map fun b => ((a.1, b.1), b.2) with
    | some r => some r
    | none => match s.evictables keep with
      | p :: _ => reserveKv keep pages pb blocks k (s.evict p)
      | [] => none

-- What a request binds (R28, R199)

/-- The version of a table or store that an entry of VERSIONS names can be bound: current or retired, and not released (R28, R199). -/
def versionHeld (s : State) (e : Nat) : Bool :=
  let ok := fun (state : Nat) (released : Bool) => (state == 2 || state == 3) && !released
  if bitAt e 41 then ((s.store? (fld e 40 32) (fld e 31 0)).map fun v => ok v.state v.released).getD false
  else ((s.table? (fld e 40 32) (fld e 31 0)).map fun v => ok v.state v.released).getD false

/-- The table, store and hot-set versions that a request binds: those it names, else the current ones (R28, R199, R215). -/
def bindings (s : State) (versions : List Nat) : List (Nat × Nat × Nat) :=
  let named := fun (store : Bool) (id : Nat) => (versions.find? fun e => bitAt e 41 == store && fld e 40 32 == id).map fun e => fld e 31 0
  let tables := s.cfg.tables.filterMap fun t =>
    match named false t.id with
    | some v => some (t.id, v)
    | none => (s.tables.find? fun v => v.table == t.id && v.state == 2).map fun v => (t.id, v.version)
  let stores := s.cfg.stores.filterMap fun t =>
    match named true t.id with
    | some v => some (t.id, v)
    | none => (s.stores.find? fun v => v.store == t.id && v.state == 2).map fun v => (t.id, v.version)
  let hots := tables.filterMap fun b => (s.hotSets.find? fun h => h.current && h.table == b.1).map fun h => (b.1, h.version)
  tables.map (fun b => (5, b.1, b.2)) ++ stores.map (fun b => (6, b.1, b.2)) ++ hots.map fun b => (8, b.1, b.2)

/-- The tokeniser that a request names, else its model's. -/
def tokOf (s : State) (m : SubmitMsg) : Option Nat :=
  m.tokeniser.orElse fun _ => (m.model.bind s.model?).map (·.tokeniser)

/-- A stage's object is held when a request is admitted (R109, R268). -/
def objectHeld (s : State) (m : SubmitMsg) (x : Stage) : Bool :=
  let o := x.object
  let tok := fun (t : Nat) => s.cfg.toks.any (·.id == t)
  if x.kind = 0 then s.corpora.any (·.id == o)
  else if o < 0x200 then (s.bindings m.versions).any fun b => b.1 == 5 && b.2.1 == o
  else if inRange 0x1000 0x100F o then tok (o % 16)
  else if o = 0x10FF then (m.tokeniser.map tok).getD false
  else if inRange 0x2000 0x200F o then ((s.corpora.find? (·.id == o % 16)).bind (·.current)).isSome
  else if isPassage x then s.cfg.stores.any (·.id == o % 16)
  else if o = 0x4100 then m.grammar.isSome
  else true

/-- A damaged version that the request would bind (R448). -/
def bindsDamaged (s : State) (m : SubmitMsg) (pl : Plan) (xs : List Stage) : Bool :=
  let bs := s.bindings m.versions
  pl.obj.damaged || ((m.model.bind s.model?).map (·.obj.damaged)).getD false || ((m.adapter.bind s.adapter?).map (·.obj.damaged)).getD false
  || ((m.grammar.bind s.grammar?).map (·.obj.damaged)).getD false
  || (xs.any (·.kind == 2) && s.tables.any fun v => v.damaged && bs.contains (5, v.table, v.version))
  || (xs.any isPassage && s.stores.any fun v => v.damaged && bs.contains (6, v.store, v.version))
  || xs.any fun x => x.kind == 0 && (((s.corpora.find? (·.id == x.object)).bind (·.current)).map (·.damaged)).getD false

/-- Check 2 of R268: the first refusal among what is not held and what does not fit together. -/
def checkObjects (s : State) (m : SubmitMsg) (pl : Plan) (xs : List Stage) : Option Outcome :=
  let fails := fun (b : Bool) (o : Outcome) => if b then some o else none
  let model := m.model.bind s.model?
  let adapter := m.adapter.bind s.adapter?
  let grammar := m.grammar.bind s.grammar?
  let kv := xs.any fun x => x.kind == 4 || x.kind == 5
  let gen := xs.any (·.kind == 5)
  let reuse := m.handle.filter fun h => bitAt h.2.2 0
  let held := reuse.bind fun h => s.prefixes.find? (·.handle == h.1)
  [ fails (!(m.stops.all stopOk)) refMalformed
  , fails xs.isEmpty refCheck
  , fails (m.model.isSome && model.isNone) refNotHeld
  , fails (m.adapter.isSome && adapter.isNone) refNotHeld
  , fails (m.grammar.isSome && grammar.isNone) refNotHeld
  , fails ((m.tokeniser.map fun t => !(s.cfg.toks.any (·.id == t))).getD false) refNotHeld
  , fails (!(xs.all (s.objectHeld m))) refNotHeld
  , fails (xs.any fun x => (bindStage s.cfg.pools x).isNone) refCheck
  , fails ((adapter.map fun a => (m.model.map (· != a.model)).getD true).getD false) refCheck
  , fails ((grammar.map fun g => s.tokOf m != some g.tokeniser).getD false) refCheck
  , fails (kv && model.isNone) refCheck
  , fails (gen && m.maxNew == 0) refCheck
  , fails ((model.map fun x => kv && decide (x.ctxMax ≤ m.bound)).getD false) refCheck
  , fails (reuse.isSome && held.isNone) refNotHeld
  , (match reuse, held with
      | some h, some p => fails (p.tokens != h.2.1 || some p.model != model.map (·.obj.key)
          || p.adapter != adapter.map fun a => (a.obj.id, a.obj.version)) refCheck
      | _, _ => none)
  , (match m.handle with
      | some h => fails (bitAt h.2.2 1 && ((s.prefixes.any (·.handle == h.1))
          || s.reqs.any fun r => r.2.retain && !r.2.retained && r.2.status.isNone && r.2.prefixHandle == h.1)) refCheck
      | none => none)
  , fails (s.bindsDamaged m pl xs) refCheck ].findSome? id

/-- Requests that hold an entry and were admitted in a share class (R268). -/
def classHeld (s : State) (c : Nat) : Nat := (s.reqs.filter (·.2.shareClass == c)).length

/-- Check 3 of R268. -/
def shareRefused (s : State) (m : SubmitMsg) (xs : List Stage) : Bool :=
  let limit := (lookupD m.shareClass s.cfg.mode.classes (1, 0)).2
  (xs.any fun x => ((bindStage s.cfg.pools x).bind (s.cfg.pools[·]?)).any fun p => !(bitAt p.classes m.shareClass))
  || decide (limit ≤ s.classHeld m.shareClass)

/-- The riders that a Wheel pool can carry (R135). -/
def riderCap (s : State) (p : Nat) : Nat :=
  match (s.poolCfg? p).bind fun c => s.cfg.corpora.find? (·.id == c.corpus) with
  | some c => min 512 (min (s.cfg.mode.vals s.fuses.part).riderCap (65536 / max 1 (codeBytes c)))
  | none => 0

/-- Admitted requests with an unfinished WHEEL stage on a pool, and those whose slot is not yet free (R142, R146). -/
def ridersOf (s : State) (p : Nat) : Nat :=
  (s.reqs.filter fun r => (r.2.stages.any fun x => x.pool == p && !x.done && (r.2.origin.isSome || ((s.stageOf r.2 x.stage).map (·.kind)) == some 0))
    && (r.2.status.isNone || s.wheels.any fun w => w.pool == p && w.riders.any fun y => y.req == r.1 && y.reqOrder == r.2.order)).length

/-- The entry, admission and rider limits of check 4 of R268. -/
def entryRefused (s : State) (xs : List Stage) : Bool :=
  decide (4096 ≤ s.reqs.length) || decide (s.cfg.mode.admitLimit ≤ s.reqs.length)
  || xs.any fun x => x.kind == 0 && ((bindStage s.cfg.pools x).map fun p => decide (s.riderCap p ≤ s.ridersOf p)).getD false

/-- A handle can be retained under R287's limit; pending retentions count. -/
def handlesFull (s : State) (m : SubmitMsg) : Bool :=
  (m.handle.map fun h => bitAt h.2.2 1).getD false
  && decide (16384 ≤ s.prefixes.length + (s.reqs.filter fun r => r.2.retain && !r.2.retained && r.2.status.isNone).length)

-- Admission

/-- The body's shares, one for each datagram that carries part of it (R222, R359). -/
def bodyShares (at' : Nat) : List Bytes → List Bytes
  | [] => []
  | f :: r => (if at' < f.length then [f.drop at'] else []) ++ bodyShares (at' - f.length) r

/-- HBM handles for some bytes from a 128-byte boundary; as many as the length takes (R83). -/
def bodyHandles (a : Nat) (n : Nat) : List Nat :=
  (List.range (ceilDiv n 4194176)).map fun i => hbmHandle (a + 4194176 * i) (min 4194176 (n - 4194176 * i)) 0

/-- The body in HBM with its handles (R222, R359): one share after another on 128-byte boundaries for a tokenising entry stage. -/
def placeBody (text : Bool) (at' : Nat) (frags : List Bytes) (s : State) : Option ((Nat × Nat) × List Nat × State) :=
  let shares := if text then bodyShares at' frags else [(frags.flatten).drop at']
  let shares := shares.filter (!·.isEmpty)
  let total := (shares.map fun b => alignUp b.length 128).sum
  if shares.isEmpty && !text then some ((0, 0), [], s)
  else
    let n := max 128 total
    (s.alloc n 128).map fun (a : Nat × State) =>
      if shares.isEmpty then ((a.1, n), [setLast (hbmHandle a.1 1 1)], a.2)
      else
        let r := shares.foldl (fun (acc : Nat × List Nat × State) b =>
          (acc.1 + alignUp b.length 128, acc.2.1 ++ bodyHandles acc.1 b.length, acc.2.2.portWrite acc.1 b)) (a.1, [], a.2)
        let hs := if text then r.2.1.zipIdx.map fun (h, i) => if i + 1 = r.2.1.length then setLast h else h else r.2.1
        ((a.1, n), hs, r.2.2)

/-- A payload that rode the Leat is written into its request table entry, its body on a 128-byte boundary, and has a single handle
(R25, R222, R359). -/
def placeLeat (text : Bool) (r at' : Nat) (payload : Bytes) (s : State) : (Nat × Nat) × List Nat × State :=
  let a := entryPayload r + 256
  let n := payload.length - at'
  let hs := if n = 0 then (if text then [setLast (hbmHandle a 1 1)] else [])
    else [if text then setLast (hbmHandle a n 0) else hbmHandle a n 0]
  ((0, 0), hs, s.portWrite (a - at') payload)

/-- The lowest FREE entry. -/
def freeEntry (s : State) : Nat := ((List.range (s.reqs.length + 1)).find? fun i => !(s.reqs.any (·.1 == i))).getD 0

/-- The pages that a request enters with from its handle: the full ones shared, by list position (R288). -/
def sharedPages (p : Option Prefix) : List KvPage :=
  match p with
  | some p => p.pages.map fun b => { base := b, fill := 64, isSealed := true, shared := true }
  | none => []

/-- The text state record and the stop automaton, at admission (R113, R236, R237). -/
def placeText (r : Nat) (repeats : Bool) (stops : List Bytes) (s : State) : Option State :=
  let s1 : Option State := if repeats then (s.devAlloc r 256).map fun a =>
      (a.2.writeMem a.1 (TextState.encode {})).setReq r fun q => { q with textRecord := some a.1 } else some s
  s1.bind fun s => if stops.isEmpty then some s else (s.devAlloc r 2048).map fun a =>
    (a.2.writeMem a.1 (stopTable stops)).setReq r fun q => { q with stopAutomaton := some a.1 }

/-- The grammar state entry of a request's state (R241). -/
def grammarEntry (s : State) (q : Request) : Nat :=
  match q.grammar.bind fun g => s.grammarKey? g.2 with
  | some g => leNat (s.readMem (g.obj.base + g.offStates + 16 * q.grammarState) 16)
  | none => 0

/-- A request in a grammar state that allows no token ends (R245, R269). -/
def grammarEnds (s : State) (q : Request) : Option Nat :=
  if q.grammar.isNone then none
  else
    let e := s.grammarEntry q
    if gsEmpty e then some (if gsAccept e then stDoneGrammar else stGrammarDead) else none

/-- What an admitted request meets at once: versions it cannot bind, its text areas, its grammar's start (R113, R199, R269). -/
def afterAdmission (r : Nat) (m : SubmitMsg) (repeats : Bool) (s : State) : State :=
  if !(m.versions.all s.versionHeld) then s.endRequest r stVersionGone
  else match s.placeText r repeats m.stops with
    | none => s.failRequest r 1 none
    | some s =>
      match (s.req? r).bind s.grammarEnds with
      | some st => s.endRequest r st
      | none => s

/-- A request that passed every check enters (R268): its memory is allocated, its bindings are made; refused for capacity when the
memory cannot be had, after evicting what R290 lets it evict. -/
def admitNow (d : Delivered) (m : SubmitMsg) (pl : Plan) (path : List Nat) (s0 : State) : Except (Outcome × State) (Nat × State) :=
  let xs := path.filterMap (pl.stages[·]?)
  let entryText := ((pl.stages[m.entry]?).map fun x => isText x && (stageItems pl m.entry).any fun t => wOpcode t.2 == opNormalise).getD false
  let model := m.model.bind s0.model?
  let kv := xs.any fun x => x.kind == 4 || x.kind == 5
  let reuse := (m.handle.filter fun h => bitAt h.2.2 0).bind fun h => s0.prefixes.find? (·.handle == h.1)
  let n := (reuse.map (·.tokens)).getD 0
  let layers := (model.map (·.layers)).getD 0
  let pb := 64 * (model.map (·.kvTokenBytes)).getD 0
  let perLayer := if kv then ceilDiv (min (m.bound + m.maxNew) ((model.map (·.ctxMax)).getD 0)) 64 else 0
  let own := (perLayer - n / 64) * layers
  let blocks := if kv then ceilDiv (perLayer * layers) 15 else 0
  let r := s0.freeEntry
  match (if pl.scratchBytes = 0 then some (0, s0) else s0.alloc pl.scratchBytes 4096) with
  | none => .error (refNoMemory, s0)
  | some (scratch, s) =>
    match (if d.leat then some (s.placeLeat entryText r m.bodyAt d.frags.flatten) else s.placeBody entryText m.bodyAt d.frags) with
    | none => .error (refNoMemory, s0)
    | some (payload, handles, s) =>
      match s.reserveKv (reuse.map (·.handle)) own pb blocks s.prefixes.length with
      | none => .error (refNoMemory, (s0.evictables (reuse.map (·.handle))).foldl (fun (s : State) p => s.evict p) s0)
      | some (kvs, s) =>
        let pages := sharedPages reuse ++ kvs.1.map fun b => { base := b }
        let draw := match m.sampling with
          | some (_, _, _, 0) => true
          | _ => false
        let rnd := s.random 8
        let s := if draw then rnd.2 else s
        let sp := m.sampling.getD (0, 0x3F800000#32, 1, 0)
        let ownPrompt := ((pl.stages[m.entry]?).map (·.kind)) == some 4
        let q : Request := {
          state := if ownPrompt then 5 else 1
          order := s.admitted, session := d.session, plan := m.plan, planImage := pl.obj.key, entry := m.entry, final := m.final
          stages := path.map fun st => {
            stage := st, pool := ((pl.stages[st]?).bind fun x => bindStage s.cfg.pools x).getD 0
            inputs := if st = m.entry then handles else [] }
          needs := stagesNeed xs, shareClass := m.shareClass, priority := m.priority
          deadline := if m.budgetUs = 0 then none else some (s.meshCount + countsOf m.budgetUs)
          model := model.map fun x => (x.obj.id, x.obj.key)
          adapter := (m.adapter.bind s.adapter?).map fun a => (a.obj.id, a.obj.version)
          grammar := (m.grammar.bind s.grammar?).map fun g => (g.obj.id, g.obj.key)
          grammarState := ((m.grammar.bind s.grammar?).map (·.start)).getD 0
          tokeniser := s.tokOf m, promptLen := m.bound, maxNew := m.maxNew, length := n
          temperature := sp.1, topP := sp.2.1, topK := sp.2.2.1
          seed := if draw then max 1 (leNat rnd.1) else sp.2.2.2, seedDrawn := draw, stops := m.stops
          tables := s.bindings m.versions, payload, scratch, scratchBytes := pl.scratchBytes
          devNext := scratch + pl.scratchDev, devEnd := scratch + pl.scratchBytes
          prefixHandle := (m.handle.map (·.1)).getD 0, reuse := reuse.map (·.handle)
          retain := (m.handle.map fun h => bitAt h.2.2 1).getD false, evictable := (m.handle.map fun h => bitAt h.2.2 2).getD false
          kvHead := kvs.2.headD 0, kvBlocks := kvs.2, pages, copying := n % 64 != 0, collective := m.collective }
        let s : State := { s with
          reqs := sortBy (fun a b => decide (a.1 ≤ b.1)) ((r, q) :: s.reqs), admitted := s.admitted + 1
          prefixes := s.prefixes.map fun p => if some p.handle == q.reuse then { p with lastBound := s.admitted } else p }
        .ok (r, (s.writePageList r).count (devCtr 0) 1)

/-- SUBMIT's checks and admission (R268), answered; `retainOnly` says that HANDLE_RETAIN carried it (R287). A SUBMIT taken from the Leat's intake takes the work items' payloads before it out too (log 88). -/
def submit (q : Session) (d : Delivered) (retainOnly : Bool) (s : State) : State :=
  let s := if d.leat then { s with intakePlain := [] } else s
  let refuse' := fun (o : Outcome) => s.reply q.id d.msgId o 0
  let p := d.frags.flatten
  if !(s.runs (fnHopper + fnPools)) then refuse' refStopped
  else if s.cfg.twin.role != 0 && s.twin.state == 1 then refuse' refTwinState
  else match readSubmit p with
    | none => refuse' refMalformed
    | some m =>
      match s.plan? m.plan with
      | none => refuse' refNotHeld
      | some pl =>
        let path := pathOf pl m.entry m.final
        let xs := path.filterMap (pl.stages[·]?)
        if retainOnly && !((pl.stages[m.final]?).any (·.kind == 4) && (m.handle.map fun h => bitAt h.2.2 1).getD false) then refuse' refMalformed
        else if !(s.runs (stagesNeed xs)) || xs.any (fun x => ((bindStage s.cfg.pools x).map (bitAt s.power.gate)).getD false) then refuse' refStopped
        else match s.checkObjects m pl xs with
          | some o => refuse' o
          | none =>
            if s.shareRefused m xs then refuse' (refuse stShare 0)
            else if s.entryRefused xs then refuse' (refuse stCapacity 0)
            else if s.handlesFull m then refuse' refLimit
            else match s.admitNow d m pl path with
              | .error e => e.2.reply q.id d.msgId e.1 0
              | .ok (r, s) => (s.reply q.id d.msgId { detail := r } 0).afterAdmission r m (xs.any (·.repeats))

/-- SUBMIT (R267, R268, R359). -/
def doSubmit (m : Msg) (s : State) : State := s.onMessage 0x10 m false (fun _ => true) fun q d _ s => s.submit q d false

/-- HANDLE_RETAIN (R287). -/
def doHandleRetain (m : Msg) (s : State) : State := s.onMessage 0x38 m false (fun _ => true) fun q d _ s => s.submit q d true

/-- HANDLE_RELEASE (R289): a held handle is freed; of one whose retention is pending, the retention will not happen. -/
def doHandleRelease (m : Msg) (s : State) : State :=
  s.onMessage 0x39 m false (fun _ => true) fun q d p s =>
    let h := uAt p 0 8
    if p.length != 8 then s.reply q.id d.msgId refMalformed 0
    else if !(s.runs fnServe) then s.reply q.id d.msgId refStopped 0
    else match s.prefixes.find? (·.handle == h) with
      | some x => (s.dropPrefix x false).reply q.id d.msgId {} 0
      | none =>
        match s.reqs.find? fun r => r.2.retain && !r.2.retained && !r.2.retainCancelled && r.2.status.isNone && r.2.prefixHandle == h with
        | some r => (s.setReq r.1 fun x => { x with retainCancelled := true }).reply q.id d.msgId {} 0
        | none => s.reply q.id d.msgId refNotHeld 0

/-- CANCEL (R271, R362). -/
def doCancel (m : Msg) (s : State) : State :=
  s.onMessage 0x12 m false (fun _ => true) fun q d p s =>
    let r := uAt p 0 2
    if p.length != 16 || 4096 ≤ r || !(allZero (p.drop 2)) then s.reply q.id d.msgId refMalformed 0
    else match s.req? r with
      | none => s.reply q.id d.msgId refNotHeld 0
      | some x =>
        if x.session != q.id then s.reply q.id d.msgId refNotHeld 0
        else match x.status with
          | some st => s.reply q.id d.msgId { status := st } 0
          | none => (s.endRequest r stCancelled).reply q.id d.msgId { status := stCancelled } 0

end State
end Sys2Proof.Machine
end

