-- ==== Sys2Proof/Machine/Corpus.lean ====
section
/-! DEFINITION. Corpora (R130 to R134, R157 to R166, R364, R365, R448): the layout of a version, quantising, CORPUS_APPEND,
merges (BG_CORPUS_MERGE), CORPUS_SWITCH and the switch of a version. -/

namespace Sys2Proof.Machine

-- The layout (R131 to R134, R136, R157)

/-- The corpus permutation (R133): the position of each row of a segment, in order. -/
def permutation (seed n : Nat) : List Nat := (List.range n).foldl (fun l i => l.insertIdx (Config.permPick seed i % (i + 1)) i) []

/-- Suppressed in a version for a reader with tail T (R159). -/
def CorpusVer.hides (v : CorpusVer) (seg pos t : Nat) : Bool := v.supp.any fun x => x.1 == seg && x.2.1 == pos && decide (x.2.2 ≤ t)

-- Quantising (R132)

/-- The quotient of the exact difference x − o by s, rounded once to an integer. -/
def exactQuot (x o s : W32) : Int :=
  match vadd (f32Val x) (vneg (f32Val o)), f32Val s with
  | .fin _ m1 e1, .fin _ m2 e2 =>
    let e := min e1 e2
    roundQuot ((if m2 < 0 then -m1 else m1) * 2 ^ (e1 - e).toNat) (m2.natAbs * 2 ^ (e2 - e).toNat)
  | _, _ => 0

/-- The correctly rounded FP32 square root of an exact sum of squares. -/
def rootOf (m : Nat) (e : Int) : W32 :=
  if m = 0 then 0 else
    let e' := if e % 2 == 0 then e - 64 else e - 65
    let n := m * 2 ^ (e - e').toNat
    let r := Nat.sqrt n
    toF32 false (2 * r + (if r * r == n then 0 else 1)) 1 (e' / 2 - 1)

/-- The Euclidean length of a finite vector in FP32. -/
def f32Length (xs : List W32) : W32 :=
  match xs.foldl (fun acc x => vadd acc (vmul (f32Val x) (f32Val x))) (.fin false 0 0) with
  | .fin _ m e => rootOf m.natAbs e
  | _ => f32NaN

/-- A vector as it is quantised: divided by its length in a cosine corpus. -/
def unitVector (distance : Nat) (xs : List W32) : List W32 :=
  let l := f32Length xs
  if distance = 1 && !(f32IsZero l) then xs.map fun x => f32DivExact x l else xs

/-- Codes of a vector under some scales and offsets. -/
def codesOf (bits : Nat) (scale offset xs : List W32) : List Int :=
  (xs.zip (scale.zip offset)).map fun p => (satInt bits (exactQuot p.1 p.2.2 p.2.1)).1

def codeBits (c : CorpusCfg) : Nat := if c.code = 0 then 8 else 4
/-- Codes as stored (R38). -/
def packCodes (bits : Nat) (cs : List Int) : Bytes := packBits bits (cs.map (unsignedOf bits))
def unpackCodes (bits : Nat) (bs : Bytes) : List Int := (unpackBits bits bs).map (signedOf bits)

/-- x̃ of each code (R132). -/
def dequant (scale offset : List W32) (cs : List Int) : List W32 :=
  (cs.zip (scale.zip offset)).map fun p => f32Fma p.2.1 (f32OfInt p.1) p.2.2
/-- The norm of stored codes. -/
def normOf (scale offset : List W32) (cs : List Int) : W32 := (dequant scale offset cs).foldl (fun n x => f32Fma x x n) 0

/-- The rescoring vector of a vector (R157). -/
def fineOf (c : CorpusCfg) (k : Corpus) (xs : List W32) : Bytes := match c.rescore with
  | 0 => []
  | 1 => packCodes 8 (codesOf 8 k.fineScale k.fineOffset xs)
  | _ => xs.flatMap fun x => leBytes 2 (f32To bf16 x).1
/-- A rescoring vector's values. -/
def fineValues (c : CorpusCfg) (k : Corpus) (bs : Bytes) : List W32 :=
  if c.rescore = 1 then dequant k.fineScale k.fineOffset (unpackCodes 8 bs) else (chunks 2 bs).map fun b => bf16ToF32 (leNat b)

/-- A row as it stands in a slice: codes, and the norm for squared Euclidean. -/
def storedRow (c : CorpusCfg) (k : Corpus) (codes : Bytes) : Bytes :=
  codes ++ (if c.distance = 2 then leBytes 4 (normOf k.scale k.offset (unpackCodes (codeBits c) codes)).toNat else [])

/-- A side entry's header (R157). -/
def SideEntry.header (e : SideEntry) : Bytes :=
  record 32 [(0, e.op), (32, e.norm.toNat), (64, e.id), (128, e.home), (160, e.seq), (208, e.superseded)]

-- CORPUS_APPEND's entries (R364)

/-- Entries of a batch: id, operation and vector; none when the bytes are not exactly `n` of them. -/
def appendEntries (elem dims : Nat) : Nat → Bytes → Option (List (Nat × Nat × List W32) × Bytes)
  | 0, bs => some ([], bs)
  | n + 1, bs =>
    let op := uAt bs 8 8
    let w := if elem = 0 then 4 else 2
    let len := if op = 1 then 16 else 16 + w * dims
    if bs.length < len || 3 ≤ op then none
    else
      let xs := if op = 1 then [] else (chunks w (slice bs 16 (w * dims))).map fun b => if elem = 0 then BitVec.ofNat 32 (leNat b) else bf16ToF32 (leNat b)
      (appendEntries elem dims n (bs.drop len)).map fun r => ((uAt bs 0 8, op, xs) :: r.1, r.2)

namespace State

def corpusCfg? (s : State) (id : Nat) : Option CorpusCfg := s.cfg.corpora.find? (·.id == id)
def corpus? (s : State) (id : Nat) : Option Corpus := s.corpora.find? (·.id == id)
def setCorpus (k : Corpus) (s : State) : State := { s with corpora := s.corpora.map fun x => if x.id == k.id then k else x }

/-- The item id at a position. -/
def idOf (s : State) (c : CorpusCfg) (v : CorpusVer) (seg pos : Nat) : Nat := leNat (s.readMem (idAt c v seg pos) 8)

/-- Positions of a version, as segment and position. -/
def positions (c : CorpusCfg) (v : CorpusVer) : List (Nat × Nat) := (List.range (v.segs * c.segRows)).map fun i => (i / c.segRows, i % c.segRows)

/-- The row of a version that holds an id and that nothing suppresses. -/
def liveRow (s : State) (c : CorpusCfg) (v : CorpusVer) (id : Nat) : Option (Nat × Nat) :=
  if id = noId then none else (positions c v).find? fun p => s.idOf c v p.1 p.2 == id && !(v.hides p.1 p.2 notYet)

/-- The side entry that is an id's live form (R158). -/
def liveEntry (k : Corpus) (id : Nat) : Option SideEntry := k.side.find? fun e => e.id == id && e.op != 1 && e.superseded == notYet

/-- Some pool rotates a corpus (R134). -/
def rotates (s : State) (id : Nat) : Bool := s.cfg.pools.any fun p => p.has 0 && p.corpus == id

-- Homes (R160)

/-- Rows of a base segment, suppressed ones included. -/
def rowsIn (s : State) (c : CorpusCfg) (v : CorpusVer) (seg : Nat) : Nat :=
  ((List.range c.segRows).filter fun p => s.idOf c v seg p != noId).length

/-- Positions of a segment that no row and no reservation takes. -/
def slackOf (s : State) (c : CorpusCfg) (k : Corpus) (seg : Nat) : Nat :=
  let reserved := (k.side.filter fun e => e.op != 1 && e.home == seg).length
  match k.current with
  | some v => if seg < v.segs then c.segRows - s.rowsIn c v seg - reserved else c.fillLimit - reserved
  | none => c.fillLimit - reserved

/-- The home of a new entry, and the cursor after it. `prefer` is the segment of the row that it replaces. -/
def homeFor (s : State) (c : CorpusCfg) (k : Corpus) (prefer : Option Nat) : Nat × Nat :=
  match prefer.filter fun g => decide (0 < s.slackOf c k g) with
  | some g => (g, k.cursor)
  | none =>
    let sb := (k.current.map (·.segs)).getD 0
    match ((List.range sb).drop k.cursor).find? fun g => decide (0 < s.slackOf c k g) with
    | some g => (g, g)
    | none =>
      let ext := ((List.range (k.side.length + 1)).map (sb + ·)).find? fun g => decide (0 < s.slackOf c k g)
      (ext.getD sb, sb)

-- Versions and merges (R161 to R164)

/-- HBM for a version of `segs` base segments, with every position empty; none without memory. -/
def newVersion (c : CorpusCfg) (version segs mark : Nat) (s : State) : Option (CorpusVer × State) :=
  (s.alloc (c.versionBytes segs) 4096).map fun (a : Nat × State) =>
    let ids := a.1 + segs * c.segBytes
    let v : CorpusVer := { version, base := a.1, bytes := c.versionBytes segs, segs, ids, mark
                           fine := ids + 8 * (segs * c.segRows) + c.suppBytes }
    (v, a.2.writeMem ids (List.replicate (8 * (segs * c.segRows)) 0xFF))

/-- Rows placed in a segment of a version by the permutation: item id, row, rescoring vector. -/
def placeRows (c : CorpusCfg) (k : Corpus) (v : CorpusVer) (seg : Nat) (rows : List (Nat × Bytes × Bytes)) (s : State) : State :=
  ((permutation k.perm c.segRows).zip rows).foldl (fun (s : State) p =>
    ((s.storeHbm none fnWheel (rowAt c v seg p.1) p.2.2.1).storeHbm none fnWheel (idAt c v seg p.1) (leBytes 8 p.2.1)).storeHbm none fnWheel
      (fineAt c v seg p.1) p.2.2.2) s

/-- Suppression records of a version for the committed entries above its mark (R162, R166): a row goes with the first of them that
names its item. -/
def suppAbove (s : State) (c : CorpusCfg) (k : Corpus) (v : CorpusVer) : List (Nat × Nat × Nat) :=
  (positions c v).filterMap fun p =>
    let id := s.idOf c v p.1 p.2
    if id = noId then none
    else (k.side.find? fun e => decide (v.mark < e.seq) && e.id == id).map fun e => (p.1, p.2, e.seq)

/-- A suppression record as it stands in HBM (R158): the SEQ that suppresses the row, and the row's index in its slice. -/
def suppRecord (c : CorpusCfg) (x : Nat × Nat × Nat) : Bytes := leBytes 8 (x.2.2 * 2 ^ 16 + x.2.1 % c.sliceRows)

/-- Suppression records join a version's, each in its place in the area kept for them after the id table (R134, R158); the lists of a tile and a
segment stand mixed there, in the order written (log 144). -/
def addSupp (c : CorpusCfg) (xs : List (Nat × Nat × Nat)) (v : CorpusVer) (s : State) : CorpusVer × State :=
  ({ v with supp := v.supp ++ xs }
   , s.storeHbm none fnWheel (suppAt c v + 8 * v.supp.length) (xs.flatMap (suppRecord c)))

/-- A row of a version lies in a listed line (R448). -/
def rowLost (s : State) (c : CorpusCfg) (v : CorpusVer) (seg pos : Nat) : Bool :=
  s.hasBadLine (rowAt c v seg pos) c.rowBytes || s.hasBadLine (idAt c v seg pos) 8
    || (c.fineBytes != 0 && s.hasBadLine (fineAt c v seg pos) c.fineBytes)

/-- A base version of a corpus is read by a dispatched stage that has not completed (R109). -/
def baseHeld (s : State) (id version : Nat) : Bool :=
  s.reqs.any fun r => r.2.stages.any fun x =>
    x.version == version && ((s.stageOf r.2 x.stage).map (·.object)) == some (0x2000 + id)
    && ((x.dispatched && !x.done) || s.steps.any fun d => d.started.contains x.stage && !(d.finished.contains x.stage)
      && (d.leader == r.1 || d.batch.any (·.1 == r.1) || d.pieces.any (·.1 == r.1)))

/-- Riders that boarded with a version of a corpus or before still need its rescoring copy (R164). -/
def copyNeeded (s : State) (id : Nat) (v : CorpusVer) : Bool := s.wheels.any fun w => w.corpus == id && w.riders.any fun r =>
  decide (2 ≤ r.phase) && decide (r.boardVersion ≤ v.version)

/-- Bytes of a version's rescoring copy. -/
def copyBytes (c : CorpusCfg) (v : CorpusVer) : Nat := c.fineBytes * (v.segs * c.segRows)

/-- Everything of a version but its rescoring copy is given back. -/
def releaseFront (c : CorpusCfg) (v : CorpusVer) (s : State) : State :=
  let s := s.release v.base v.bytes
  { s with used := (v.fine, copyBytes c v) :: s.used
           zeroing := s.zeroing.map fun r => if r == (v.base, v.bytes) then (v.base, v.fine - v.base) else r }

/-- An old version as the rescoring copy alone that is left of it. -/
def onlyCopy (c : CorpusCfg) (v : CorpusVer) : CorpusVer := { v with base := v.fine, bytes := copyBytes c v, supp := [] }

/-- One old version of a corpus goes as far as it can: whole while a stage reads it (R109), then its rescoring copy while riders need
that (R164), then not at all. -/
def reapOne (c : CorpusCfg) (v : CorpusVer) (s : State) : Option CorpusVer × State :=
  if s.baseHeld c.id v.version then (some v, s)
  else if s.copyNeeded c.id v && copyBytes c v != 0 then
    if v.base = v.fine then (some v, s) else (some (onlyCopy c v), s.releaseFront c v)
  else (none, s.release v.base v.bytes)

/-- Old versions that nothing needs any more are freed (R109, R164). -/
def reapOld (id : Nat) (s : State) : State :=
  match s.corpus? id, s.corpusCfg? id with
  | some k, some c =>
    if k.old.isEmpty then s
    else
      let y := k.old.foldl (fun (acc : List CorpusVer × State) v => let z := acc.2.reapOne c v; (acc.1 ++ z.1.toList, z.2)) ([], s)
      if y.1 == k.old then s else (y.2.setCorpus { k with old := y.1 }).bumpObjects
  | _, _ => s

/-- A merge starts if HBM holds the version that it builds (R161, R162). -/
def startMerge (c : CorpusCfg) (k : Corpus) (s : State) : Option State :=
  let p := k.tail
  let homes := (k.side.filter fun e => e.op != 1 && e.superseded == notYet).map fun e => e.home + 1
  let segs := homes.foldl max ((k.current.map (·.segs)).getD 0)
  (s.newVersion c (k.version + 1) segs p).map fun (r : CorpusVer × State) =>
    (r.2.setCorpus { k with merge := some { build := r.1, last := segs }, due := false }).bumpObjects

/-- A merge that is due by occupancy, or that waited for a Wheel pool, starts when it can (R161, R162). -/
def autoMerge (id : Nat) (s : State) : State :=
  match s.corpus? id, s.corpusCfg? id with
  | some k, some c =>
    let full := decide (c.mergeAt * c.sideCap ≤ 100 * k.held)
    if k.current.isNone || k.merge.isSome || k.next.isSome || !(full || k.due) then s
    else if !(s.cfg.pools.any (·.has 0)) then s.setCorpus { k with due := true }
    else match s.startMerge c k with
      | some s => s
      | none => (s.setCorpus { k with due := false }).count (devCtr 18) 1
  | _, _ => s

/-- The switch to the complete successor (R164): at q the head passes its mark, folded entries and the old version are freed, except what
stages and riders still need of it. -/
def switchCorpus (id : Nat) (s : State) : State :=
  match s.corpus? id, s.corpusCfg? id with
  | some k, some c =>
    match k.next with
    | none => s
    | some (v, _) =>
      let folded := k.side.filter fun e => decide (e.seq ≤ v.mark)
      let s := s.setCorpus { k with
        version := v.version, current := some v, next := none, head := v.mark + 1, cursor := 0
        side := k.side.filter fun e => decide (v.mark < e.seq), old := k.old ++ k.current.toList }
      let s := s.releaseAll (folded.flatMap fun e => (e.addr, c.entryBytes) :: e.fine.toList.map fun a => (a, c.fineBytes))
      (s.bumpObjects.reapOld id).autoMerge id
  | _, _ => s

/-- One segment of a merge is written: surviving rows in their order, then the side entries whose home it is (R162, R448). -/
def mergeSegment (c : CorpusCfg) (k : Corpus) (m : MergeRun) (s : State) : State :=
  let seg := m.next
  let p := m.build.mark
  let base : List (Nat × Nat × Nat) := match k.current with
    | some v => if v.segs ≤ seg then [] else (permutation k.perm c.segRows).filterMap fun pos =>
        let id := s.idOf c v seg pos
        if id = noId || v.hides seg pos p then none else some (pos, id, b01 (s.rowLost c v seg pos))
    | none => []
  let rows := match k.current with
    | some v => (base.filter (·.2.2 == 0)).map fun x => (x.2.1, s.readMem (rowAt c v seg x.1) c.rowBytes, s.readMem (fineAt c v seg x.1) c.fineBytes)
    | none => []
  let side := k.side.filter fun e => decide (e.seq ≤ p) && e.op != 1 && e.home == seg && decide (p < e.superseded)
  let sound := side.filter fun e => !(s.hasBadLine e.addr c.entryBytes) && !(e.fine.any fun a => s.hasBadLine a c.fineBytes)
  let more := sound.map fun e => (e.id, s.readMem (e.addr + 32) (codeBytes c) ++ (if c.distance = 2 then leBytes 4 e.norm.toNat else [])
    , (e.fine.map fun a => s.readMem a c.fineBytes).getD [])
  let lost := (base.filter (·.2.2 != 0)).length + (side.length - sound.length)
  let s := s.placeRows c k m.build seg (rows ++ more)
  let s := if lost = 0 then s else s.count (devCtr 15) lost
  s.setCorpus { k with merge := some { m with next := seg + 1 } }

/-- A merge is complete: its suppression lists are written, and it waits for its switch, unless nothing rotates the corpus. -/
def finishMerge (c : CorpusCfg) (k : Corpus) (m : MergeRun) (s : State) : State :=
  let (v, s) := s.addSupp c (s.suppAbove c k m.build) m.build
  let s := (s.setCorpus { k with merge := none, next := some (v, false) }).bumpObjects
  if s.rotates k.id then s else s.switchCorpus k.id

/-- BG_CORPUS_MERGE (R162): the running merge of a corpus writes one segment, the last one completing it; it waits while WHEEL is
stopped or no Wheel pool is defined, on whose stream engines it runs (R412). -/
def doBgCorpusMerge (id : Nat) (s : State) : State :=
  match s.corpus? id, s.corpusCfg? id with
  | some k, some c =>
    (match k.merge with
     | none => s
     | some m =>
       if !(s.works fnWheel) || !(s.cfg.pools.any (·.has 0)) then s
       else if m.next < m.last then
         let s := s.mergeSegment c k m
         if m.next + 1 < m.last then s
         else match s.corpus? id with
           | some k => s.finishMerge c k { m with next := m.next + 1 }
           | none => s
       else s.finishMerge c k m)
  | _, _ => s

-- CORPUS_APPEND (R158 to R161, R364)

/-- A suppression record of the row of a version that holds an id (R158). -/
def suppress (c : CorpusCfg) (id seq : Nat) (v : CorpusVer) (s : State) : CorpusVer × State :=
  match s.liveRow c v id with
  | some p => s.addSupp c [(p.1, p.2, seq)] v
  | none => (v, s)

/-- The records of an entry in the current version and in a complete successor. -/
def suppressAll (c : CorpusCfg) (id seq : Nat) (k : Corpus) (s : State) : Corpus × State :=
  let y : Corpus × State := match k.current with
    | some v => let z := s.suppress c id seq v; ({ k with current := some z.1 }, z.2)
    | none => (k, s)
  match k.next with
  | some n => let z := y.2.suppress c id seq n.1; ({ y.1 with next := some (z.1, n.2) }, z.2)
  | none => y

/-- Live rows of a corpus: base rows that nothing suppresses, and live side entries. -/
def rowCount (s : State) (c : CorpusCfg) (k : Corpus) : Nat :=
  ((k.current.map fun v => ((positions c v).filter fun p => s.idOf c v p.1 p.2 != noId && !(v.hides p.1 p.2 notYet)).length).getD 0)
  + (k.side.filter fun e => e.op != 1 && e.superseded == notYet).length

/-- A corpus would hold more rows than the 4,294,967,295 it may (R134); they are counted only where its positions could hold so many. -/
def overRows (s : State) (c : CorpusCfg) (k : Corpus) : Bool :=
  decide (0xFFFFFFFF < ((k.current.map (·.segs)).getD 0) * c.segRows + k.side.length) && decide (0xFFFFFFFF < s.rowCount c k)

/-- An entry's vector can be quantised (R132). -/
def vectorOk (c : CorpusCfg) (xs : List W32) : Bool := xs.all f32Finite && !(c.distance == 1 && f32IsZero (f32Length xs))

/-- What a batch has given so far. -/
structure Batching where
  corpus : Corpus
  left : List (Nat × Nat) := []
  homes : List Nat := []
  deriving DecidableEq, Repr

/-- One entry of a batch applied to a corpus (R158, R160); `given` is the home that the other twin assigned. None without memory. -/
def appendEntry (c : CorpusCfg) (i : Nat) (e : Nat × Nat × List W32) (given : List Nat) (acc : Batching × State) : Option (Batching × State) :=
  let k := acc.1.corpus
  let s := acc.2
  let old := liveEntry k e.1
  let row := k.current.bind fun v => s.liveRow c v e.1
  let live := old.isSome || row.isSome
  if e.2.1 != 0 && !live then some ({ acc.1 with left := acc.1.left ++ [(i, 1)] }, s)
  else if e.2.1 != 1 && (e.1 == noId || !(vectorOk c e.2.2)) then some ({ acc.1 with left := acc.1.left ++ [(i, 2)] }, s)
  else
    let seq := k.nextSeq
    let op := if e.2.1 = 0 && live then 2 else e.2.1
    let prefer := if op = 2 then (match old with
      | some x => some x.home
      | none => row.map (·.1)) else none
    let home := if op = 1 then (0xFFFFFFFF, k.cursor) else match given[acc.1.homes.length]? with
      | some h => (h, k.cursor)
      | none => s.homeFor c k prefer
    let xs := unitVector c.distance e.2.2
    let codes := if op = 1 then zeros (codeBytes c) else packCodes (codeBits c) (codesOf (codeBits c) k.scale k.offset xs)
    let norm := if c.distance = 2 && op != 1 then normOf k.scale k.offset (unpackCodes (codeBits c) codes) else 0
    (s.alloc c.entryBytes 32).bind fun (a : Nat × State) =>
      let fine : Option (Option Nat × State) :=
        if c.fineBytes = 0 || op = 1 then some (none, a.2) else (a.2.alloc c.fineBytes 128).map fun f => (some f.1, f.2)
      fine.map fun (f : Option Nat × State) =>
        let x : SideEntry := { seq, op, id := e.1, home := home.1, norm, addr := a.1, fine := f.1 }
        let s := f.2.writeMem a.1 (fit c.entryBytes (x.header ++ codes))
        let s := match f.1 with
          | some at' => s.writeMem at' (fineOf c k xs)
          | none => s
        let s := match old with
          | some o => s.storeHbm none fnWheel o.addr ({ o with superseded := seq } : SideEntry).header
          | none => s
        let y := s.suppressAll c e.1 seq k
        let k := { y.1 with
          side := (k.side.map fun o => if some o == old then { o with superseded := seq } else o) ++ [x]
          nextSeq := seq + 1, cursor := home.2 }
        ({ acc.1 with corpus := k, homes := acc.1.homes ++ [home.1] }, y.2)

/-- The reply's data (R364). -/
def appendReply (first last : Nat) (left : List (Nat × Nat)) : Bytes :=
  leBytes 8 first ++ leBytes 8 last ++ leBytes 4 left.length ++ left.flatMap fun x => leBytes 4 (x.1 + x.2 * 2 ^ 24)

/-- CORPUS_APPEND applied (R158). A write that a MIRROR brought ends with the values that the other twin gave. -/
def applyAppend (w : Write) (s0 : State) : Applied :=
  let p := w.payload
  let id := uAt p 8 4
  let n := uAt p 12 4
  let elem := uAt p 16 4
  if p.length < 24 || 16 ≤ id || 2 ≤ elem || uAt p 20 4 != 0 then refused s0 w refMalformed
  else match s0.corpusCfg? id, s0.corpus? id with
    | some c, some k =>
      (match appendEntries elem c.dims n (p.drop 24) with
       | none => refused s0 w refMalformed
       | some (es, rest) =>
         if !w.brought && !rest.isEmpty then refused s0 w refMalformed
         else if k.current.isNone then refused s0 w refWrongState
         else
           let given := (chunks 4 (rest.drop 8)).map leNat
           match es.zipIdx.foldl (fun (acc : Option (Batching × State)) e => acc.bind (appendEntry c e.2 e.1 given)) (some ({ corpus := k }, s0)) with
           | none => refused s0 w refNoMemory
           | some (b, s) =>
             let applied := b.homes.length
             let first := if applied = 0 then 0 else k.nextSeq
             let last := if applied = 0 then 0 else b.corpus.tail
             if applied != 0 && (decide (c.sideCap < b.corpus.held) || decide (notYet ≤ b.corpus.nextSeq) || s.overRows c b.corpus) then
               refused s0 w refLimit
             else
               -- a batch that leaves every entry out commits nothing (R161, R163, R364)
               let s := if applied = 0 then s else
                 let s := if k.merge.isSome then (let f := s.freeBelow 48001; f.2.count (devCtr 14) f.1) else s
                 (s.setCorpus b.corpus).autoMerge id
               (s, some ({ data := appendReply first last b.left }, leBytes 8 k.nextSeq ++ b.homes.flatMap (leBytes 4)
                        , { w with payload := p.take (p.length - rest.length) })))
    | _, _ => refused s0 w refNotHeld

-- CORPUS_SWITCH (R131, R161, R166, R364, R365, R391)

/-- The fields of a CORPUS_SWITCH. -/
structure SwitchMsg where
  corpus : Nat
  op : Nat
  version : Nat
  offset : Nat
  total : Nat
  isFinal : Bool
  wrapped : Bool
  chunk : Bytes
  deriving DecidableEq, Repr

def switchMsg (p : Bytes) : SwitchMsg :=
  { corpus := uAt p 8 4, op := uAt p 12 4, version := uAt p 16 4, offset := uAt p 20 8, total := uAt p 28 8
    isFinal := bitAt (uAt p 36 4) 0, wrapped := bitAt (uAt p 36 4) 1, chunk := p.drop 40 }
def switchMsgOk (p : Bytes) : Bool :=
  let m := switchMsg p
  decide (40 ≤ p.length) && decide (m.corpus < 16) && decide (m.op ≤ 2) && decide (uAt p 36 4 < 4) && (m.op == 1 || m.chunk.isEmpty)

/-- A merge asked for (R161, R166). -/
def applySwitchMerge (w : Write) (s : State) : Applied :=
  let m := switchMsg w.payload
  if !(switchMsgOk w.payload) then refused s w refMalformed
  else match s.corpusCfg? m.corpus, s.corpus? m.corpus with
    | some c, some k =>
      if k.merge.isSome || k.due || (k.next.map (·.2)) == some false then (s, some ({}, [], w))
      else if k.next.isSome || k.current.isNone then refused s w refWrongState
      else if !(s.cfg.pools.any (·.has 0)) then (s.setCorpus { k with due := true }, some ({}, [], w))
      else match s.startMerge c k with
        | some s => (s, some ({}, [], w))
        | none => refused (s.count (devCtr 18) 1) w refNoMemory
    | _, _ => refused s w refNotHeld

/-- The whole image of a version load in plaintext (R391). -/
def corpusImage (s : State) (id : Nat) (l : CorpusLoad) : Except Outcome Bytes :=
  let raw := s.readMem l.base l.total
  if s.hasBadLine l.base l.total then .error refCheck
  else if l.wrapped then s.openBlob 7 id l.version raw else .ok raw

def dropCorpusLoad (k : Corpus) (l : CorpusLoad) (s : State) : State :=
  ((s.setCorpus { k with loads := k.loads.filter (·.version != l.version) }).release l.base l.total).bumpObjects

/-- A chunk of a version image (R364, R391): kept until an install names its version. A blob is opened when its last byte is there, and
mirrored then as its plaintext (R392). -/
def applySwitchChunk (w : Write) (s0 : State) : Applied :=
  let m := switchMsg w.payload
  if !(switchMsgOk w.payload) then refused s0 w refMalformed
  else match s0.corpus? m.corpus with
    | none => refused s0 w refNotHeld
    | some k =>
      let cur := k.loads.find? (·.version == m.version)
      let agrees := match cur with
        | some l => l.total == m.total && l.wrapped == m.wrapped
        | none => true
      if !agrees || decide (m.total < m.offset + m.chunk.length) || m.total = 0 then refused s0 w refMalformed
      else
        let placed : Option (CorpusLoad × State) := match cur with
          | some l => some (l, s0)
          | none => (s0.alloc m.total 4096).map fun (a : Nat × State) =>
              ({ version := m.version, total := m.total, wrapped := m.wrapped, base := a.1 }, a.2.bumpObjects)
        match placed with
        | none => refused s0 w refNoMemory
        | some (l, s) =>
          let l := { l with got := l.got ++ [(m.offset, m.chunk.length)] }
          let whole := covered l.total (l.got.length + 1) 0 l.got
          if m.isFinal && !whole then refused s0 w refIncomplete
          else
            let s := s.storeHbm none fnWheel (l.base + m.offset) m.chunk
            let k := { k with loads := k.loads.filter (·.version != m.version) ++ [l] }
            let s := s.setCorpus k
            if !m.wrapped then (s, some ({}, [], w))
            else if !whole then (s.answerWrite w {} [] false, none)
            else match s.corpusImage m.corpus l with
              | .error o => refused (s.dropCorpusLoad k l) w o
              | .ok img =>
                let plain := w.payload.take 20 ++ leBytes 8 0 ++ leBytes 8 img.length ++ leBytes 4 1 ++ img
                (s, some ({}, [], { w with payload := plain }))

/-- Bytes of a row of a version image (R365). -/
def imageRow (c : CorpusCfg) : Nat := alignUp (8 + codeBytes c + c.fineBytes) 8

/-- A version image's tables: scale, offset, and those for rescoring. -/
def imageTables (c : CorpusCfg) (img : Bytes) : List (List W32) :=
  (List.range (if c.rescore = 1 then 4 else 2)).map fun i => (chunks 4 (slice img (64 + 4 * c.dims * i) (4 * c.dims))).map fun b => BitVec.ofNat 32 (leNat b)

/-- A version image's layout alone is right (R365). -/
def imageOk (img : Bytes) : Bool :=
  let h := uAt img 0 64
  let c : CorpusCfg := { id := 0, distance := fld h 37 36, code := fld h 38 38, dims := fld h 63 48, slackPct := 0, sideCap := 0, mergeAt := 0
                         rescore := fld h 40 39, layoutCols := 0 }
  let at' := 64 + 4 * c.dims * (if c.rescore = 1 then 4 else 2)
  let row := imageRow c
  decide (64 ≤ img.length) && fld h 31 0 == 0x5643524F && fld h 47 41 == 0 && fld h 511 144 == 0 && decide (c.distance ≤ 2) && decide (c.rescore ≤ 2)
  && inRange 32 2048 c.dims && c.dims % 32 == 0 && img.length == at' + row * fld h 95 64
  && (List.range (fld h 95 64)).all fun i => allZero (slice img (at' + row * i + 8 + codeBytes c + c.fineBytes) (row - (8 + codeBytes c + c.fineBytes)))

/-- An install (R131, R166, R364, R365): refused without change, or the version waits for its switch; a corpus that has no version yet,
or that nothing rotates, takes it at once. -/
def applySwitchInstall (w : Write) (s : State) : Applied :=
  let m := switchMsg w.payload
  if !(switchMsgOk w.payload) then refused s w refMalformed
  else match s.corpusCfg? m.corpus, s.corpus? m.corpus with
    | some c, some k =>
      if k.merge.isSome || k.due || k.next.isSome then refused s w refWrongState
      else if m.version != k.version + 1 then refused s w refOrder
      else match k.loads.find? (·.version == m.version) with
        | none => refused s w refNotHeld
        | some l =>
          if !(covered l.total (l.got.length + 1) 0 l.got) then refused s w refIncomplete
          else match s.corpusImage m.corpus l with
            | .error o => refused s w o
            | .ok img =>
              let h := uAt img 0 64
              let mark := fld h 143 96
              let tabs := imageTables c img
              let tab := fun (i : Nat) => tabs.getD i []
              let first := k.current.isNone
              let at' := 64 + 4 * c.dims * tabs.length
              let row := imageRow c
              let rows := (List.range (fld h 95 64)).map fun i =>
                let b := slice img (at' + row * i) row
                (uAt b 0 8, storedRow c { k with scale := tab 0, offset := tab 1 } (slice b 8 (codeBytes c)), slice b (8 + codeBytes c) c.fineBytes)
              if !(imageOk img) then refused s w refMalformed
              else if fld h 35 32 != c.id || fld h 63 48 != c.dims || fld h 38 38 != c.code || fld h 37 36 != c.distance || fld h 40 39 != c.rescore
                  || (if first then mark != 0 || tabs.any (fun t => t.any fun x => !(f32Finite x)) || (tab 0 ++ tab 2).any f32IsZero
                      else tab 0 != k.scale || tab 1 != k.offset || (c.rescore == 1 && (tab 2 != k.fineScale || tab 3 != k.fineOffset)))
                  || decide (k.tail < mark) || decide (mark + 1 < k.head) || !(distinct (rows.map (·.1))) || rows.any (·.1 == noId) then
                refused s w refCheck
              else
                let parts := chunkList (max 1 c.fillLimit) rows
                match s.newVersion c m.version parts.length mark with
                | none => refused s w refNoMemory
                | some (v, s) =>
                  let k : Corpus := { k with scale := tab 0, offset := tab 1, fineScale := tab 2, fineOffset := tab 3 }
                  let s := parts.zipIdx.foldl (fun (s : State) x => s.placeRows c k v x.2 x.1) s
                  let (v, s) := s.addSupp c (s.suppAbove c k v) { v with digest := Config.sha384 img }
                  let k := { k with next := some (v, true) }
                  let s := s.dropCorpusLoad k l
                  (if first || !(s.rotates k.id) then s.switchCorpus k.id else s, some ({}, [], w))
    | _, _ => refused s w refNotHeld

end State
end Sys2Proof.Machine
end

