-- ==== Sys2Proof/Machine/MoveItems.lean ====
section
/-! DEFINITION. The stream engine's work items (R103, R104): COPY, GATHER, SCATTER, TRANSPOSE, DECOMPRESS and LEAT_SEND (R88), and
the landing of Leat payloads of work items (R89, R90). -/

namespace Sys2Proof.Machine

namespace State

/-- The bytes that slot 0 delivers go to slot 8; the descriptors say how each is visited (R73 to R79). -/
def moveItem (t code : Nat) (s : State) : State := s.runOp t code fun x get s => s.finishItem t x { writes := [(8, get 0)] }

def doCopy (t : Nat) (s : State) : State := s.moveItem t 0x40
/-- GATHER: slot 0's index stream chooses the blocks read (R79). -/
def doGather (t : Nat) (s : State) : State := s.moveItem t 0x41
/-- SCATTER: slot 8's index stream chooses the blocks written, the highest j last (R104). -/
def doScatter (t : Nat) (s : State) : State := s.moveItem t 0x42
/-- TRANSPOSE: slot 0 delivers its blocks transposed (R69). -/
def doTranspose (t : Nat) (s : State) : State := s.moveItem t 0x43
/-- DECOMPRESS: slot 0 delivers the decoded bytes of a Grist object (R77, R309). -/
def doDecompress (t : Nat) (s : State) : State := s.moveItem t 0x44

-- The Leat (R88 to R90)

/-- A payload leaves on the Leat, in order with what else its source sends in the mesh's control class (R89, R93). -/
def sendLeat (f : LeatFlight) (s : State) : State := ({ s with leats := s.leats ++ [{ f with sent := s.meshNext }] } : State).sendNext

/-- A payload of a work item enters the Hopper's intake (R88); what the Hopper makes of one is not said, and it leaves the intake with the next
SUBMIT that the Hopper takes (log 88). -/
def intakePayload (bs : Bytes) (s : State) : State := { s with intakePlain := s.intakePlain ++ [bs] }

/-- LEAT_SEND (R88): slot 0's 1 to 256 bytes leave as one payload, for tiles or for the Hopper's intake. -/
def doLeatSend (t : Nat) (s : State) : State :=
  s.runOp t 0x45 fun x get s =>
    let w := x.item.wi
    let d := Config.leatDest (wImm w 0)
    let dsts := d.1.map (s.poolTile x.item.pool)
    let bs := get 0
    if bs.isEmpty || decide (256 < bs.length) || dsts.any (fun u => decide (s.tileLimit u < d.2 + bs.length)) then s.faultItem t x 1
    else
      let f : LeatFlight := { src := t, dsts, offset := d.2, bytes := bs, queue := Config.leatQueue (wImm w 1), req := x.item.req
                              reqOrder := x.item.reqOrder, run := x.run, use := .plain }
      let s := if dsts.isEmpty then s.intakePayload bs else s.sendLeat f
      s.finishItem t x { writes := [] }

/-- A payload lands whole at one of its destinations; what its source sent there before arrives first (R89, R93). None when it cannot land
there now. -/
def leatArrives (i t : Nat) (s : State) : Option (LeatFlight × State) :=
  match s.leats[i]? with
  | none => none
  | some f =>
    let earlier := (s.leats.take i).any fun g => g.src == f.src && g.dsts.contains t
    if !(f.dsts.contains t) || earlier || s.overtakes f.src t f.sent then none
    else
      let left := f.dsts.erase t
      some (f, { s with leats := if left.isEmpty then s.leats.eraseIdx i else modifyAt i (fun g => { g with dsts := left }) s.leats })

/-- The payload of a work item lands: its bytes are visible, then its handle goes to the named queue (R89, R90). A handle of an
ended request is discarded (R87). -/
def landPlain (f : LeatFlight) (t : Nat) (s : State) : State :=
  let s := (s.tileWrite (some f.req) (tileWindow t + f.offset) f.bytes).2
  match f.queue with
  | none => s
  | some q =>
    let h := setLast (tileHandle t f.offset f.bytes.length (s.gen t (f.offset / 4096)) 0)
    if (s.live? f.req f.reqOrder).isNone then s.releaseBuffer h
    else s.sendHandle f.src t q { handle := h, req := f.req, reqOrder := f.reqOrder } f.run

end State
end Sys2Proof.Machine
end

