-- ==== Sys2Proof/Machine/Wheel.lean ====
section
/-! DEFINITION. The Wheel (R129, R135 to R156, R164, R165, R184): riders, scoring, boundaries, thresholds, evictions, results and
drops; DIST (R103, R147) and the landing of every Leat payload (R89, R90). -/

namespace Sys2Proof.Machine

-- Folding and scoring (R147)

/-- The score type of a corpus's scores (R150). -/
def scoreType (distance : Nat) : Nat := if distance = 2 then 1 else 0

/-- The score of a row for folded codes. -/
def riderScore (distance : Nat) (sigma constant square : W32) (acc : Acc) (norm : W32) : W32 :=
  let t := epilogue acc (sigma, constant)
  if distance = 2 then f32Add (f32Fma 0xC0000000#32 t square) norm else t

/-- The score of a corpus row for a rider: INT32 cannot overflow there (R147). -/
def distScore (distance : Nat) (sigma constant square : W32) (folded codes : List Int) (norm : W32) : W32 :=
  riderScore distance sigma constant square (.int (List.zipWith (fun (a b : Int) => a * b) folded codes).sum false) norm

/-- A segment counts by its number (R145). -/
def sameSeg : Seg → Seg → Bool
  | .base _ a, .base _ b => a == b
  | .side a, .side b => a == b
  | _, _ => false

/-- A row of a slice as riders see it: item id, codes, norm, low word of its candidate entry, and what decides who sees it: the
segment, position and version of a base row, or its side entry. -/
inductive SliceRow where
  | base (id : Nat) (codes : List Int) (norm : W32) (loc seg pos : Nat)
  | side (codes : List Int) (entry : SideEntry)
  deriving DecidableEq, Repr

/-- A tile list of at most `l` entries takes one (R151): the list, and what goes to the eviction buffer. -/
def tileTake (l theta : Nat) (list : List Cand) (c : Cand) : List Cand × List Cand :=
  if c.key < theta then (list, [])
  else
    let all := insertBy candLe c list
    (all.take l, all.drop l)

/-- The query record's header (R141) is right for a corpus. -/
def queryOk (c : CorpusCfg) (bs : Bytes) : Bool :=
  let h := uAt bs 0 32
  let k := fld h 95 80
  let n := fld h 111 96
  decide (32 + c.dims * (if fld h 33 32 = 0 then 4 else 2) ≤ bs.length) && fld h 31 0 == 0x57514859 && fld h 33 32 ≤ 1 && fld h 63 35 == 0
  && fld h 79 64 == c.dims && inRange 1 4096 k && (n == 0 || (inRange k 4096 n && c.rescore != 0)) && fld h 255 112 == 0

/-- The elements of a query record in FP32. -/
def queryElems (c : CorpusCfg) (bs : Bytes) : List W32 :=
  if fld (uAt bs 0 32) 33 32 = 0 then (chunks 4 (slice bs 32 (4 * c.dims))).map fun b => BitVec.ofNat 32 (leNat b)
  else (chunks 2 (slice bs 32 (2 * c.dims))).map fun b => bf16ToF32 (leNat b)

namespace State

-- Wheels

def wheel? (s : State) (p : Nat) : Option Wheel := s.wheels.find? (·.pool == p)
def setWheel (w : Wheel) (s : State) : State := { s with wheels := s.wheels.map fun x => if x.pool == w.pool then w else x }
/-- The Wheel whose pool a tile belongs to, and what the tile holds, while the pool's tiles work. -/
def wheelAt (s : State) (t : Nat) : Option (Wheel × WheelTile) :=
  (s.wheels.find? fun w => w.tiles.any (·.1 == t)).bind fun w =>
    if s.works fnWheel && s.poolActive w.pool then (w.tiles.find? (·.1 == t)).map fun x => (w, x.2) else none
def onTile (w : Wheel) (t : Nat) (f : WheelTile → WheelTile) : Wheel :=
  { w with tiles := w.tiles.map fun x => if x.1 == t then (t, f x.2) else x }
def onRider (w : Wheel) (slot : Nat) (f : Rider → Rider) : Wheel :=
  { w with riders := w.riders.map fun r => if r.slot == slot then f r else r }
def rider? (w : Wheel) (slot : Nat) : Option Rider := w.riders.find? (·.slot == slot)
/-- The request of a rider is undecided. -/
def riderLive (s : State) (r : Rider) : Bool := (s.live? r.req r.reqOrder).isSome
/-- The tile that keeps a slot (R142). -/
def keeperOf (s : State) (c : CorpusCfg) (p slot : Nat) : Nat := s.poolTile p (slot * (c.nTiles / 512))

/-- The first and last side block (R136); none when the side list is empty. -/
def blocksOf (c : CorpusCfg) (k : Corpus) : Option (Nat × Nat) :=
  if k.held = 0 then none else some (k.head / c.blockEntries, k.tail / c.blockEntries)

/-- Where the cycle begins (R136), and after a pending switch (R164). -/
def cycleStart (c : CorpusCfg) (k : Corpus) (switching : Bool) : Seg :=
  match (if switching then k.next.map (·.1) else none) with
  | some v => if 0 < v.segs then .base v.version 0 else if v.mark < k.tail then .side ((v.mark + 1) / c.blockEntries) else .pause
  | none =>
    match k.current with
    | none => .pause
    | some v => if 0 < v.segs then .base v.version 0 else (blocksOf c k).elim .pause fun b => .side b.1

/-- The segment after one (R136). -/
def segAfter (c : CorpusCfg) (k : Corpus) (switching : Bool) : Seg → Seg
  | .base _ n =>
    match k.current with
    | some v => if n + 1 < v.segs then .base v.version (n + 1) else (blocksOf c k).elim (cycleStart c k switching) fun b => .side b.1
    | none => cycleStart c k switching
  | .side j => match blocksOf c k with
    | some b => if j < b.2 then .side (j + 1) else cycleStart c k switching
    | none => cycleStart c k switching
  | .pause => cycleStart c k switching

/-- The segment after one is the first of a side pass, or of the cycle that follows an empty one (R164). -/
def endsBase (c : CorpusCfg) (k : Corpus) : Seg → Bool
  | .base _ n => (k.current.map fun v => decide (v.segs ≤ n + 1)).getD false
  | .side j => (k.current.map fun v => v.segs == 0).getD false && (blocksOf c k).all fun b => decide (b.2 ≤ j)
  | .pause => false

/-- A segment that follows another with a switch pending is the one that the switch takes effect with (R164). -/
def atSwitch (k : Corpus) (before : Seg) : Seg → Bool
  | .base v _ => v != k.version
  | .side j => match before with
    | .side i => decide (j ≤ i)
    | _ => false
  | .pause => true

/-- A Wheel that holds at the start of its cycle (R412). -/
def newWheel (p corpus : Nat) (s : State) : Wheel :=
  let held := match s.corpusCfg? corpus, s.corpus? corpus with
    | some c, some k => cycleStart c k false
    | _, _ => .pause
  { pool := p, corpus, release := { seg := .pause, next := .pause, tail := ((s.corpus? corpus).map Corpus.tail).getD 0 }
    held := some held, tiles := (s.poolTiles p).map fun t => (t, {}), at' := s.portTicks }

/-- A request's Wheel stage takes part in a cross-device merge (R184). -/
def merging (s : State) (r order : Nat) : Bool := s.collectives.any fun x => x.kind == 0 && x.req == r && x.reqOrder == order

/-- A ready WHEEL stage takes the lowest free slot (R142). -/
def giveRider (r st p : Nat) (q : Request) (s : State) : State :=
  match s.wheel? p with
  | none => s
  | some w =>
    let slot := ((List.range 512).find? fun i => (rider? w i).isNone).getD 0
    s.setWheel { w with riders := w.riders ++ [{ slot, req := r, reqOrder := q.order, stage := st }] }

-- Preparing a rider (R141, R142, R147, R149)

/-- The folded query of a rider; sums are taken in any order, or by FMA in dimension order. -/
def foldQuery (c : CorpusCfg) (k : Corpus) (r : Rider) (xs : List W32) (s : State) : Rider × State :=
  let q := unitVector c.distance xs
  let u := List.zipWith f32Mul q k.scale
  let limit : Int := if c.code = 0 then 127 else 7
  let sigma := f32DivExact (u.foldl (fun m x => f32Max m (f32Abs x)) 0) (f32OfInt limit)
  let way := s.freeBelow 2
  let dot := fun (a b : List W32) (s : State) =>
    if way.1 = 0 then s.sumF32 (List.zipWith f32Mul a b) else ((a.zip b).foldl (fun acc p => f32Fma p.1 p.2 acc) 0, s)
  let cc := dot q k.offset way.2
  let qq := dot q q cc.2
  let nan := !(f32Finite sigma && f32Finite cc.1 && f32Finite qq.1)
  let codes := if nan || f32IsZero sigma then u.map fun _ => (0 : Int) else u.map fun x => (satInt (codeBits c) (exactQuot x 0 sigma)).1
  ({ r with query := q, codes, sigma, constant := cc.1, square := qq.1, nan }, qq.2)

/-- A boarding position as results and rider records give it (R155): a base segment's number, or a side block's with bit 63 set. -/
def boardPos : Seg → Nat
  | .base _ n => n
  | .side j => 2 ^ 63 + j
  | .pause => 0

/-- A rider's state record, 32 bytes, in the table's order (R135; the places of its fields are log 143's): threshold, tail, boarding
position, scale, constant, and Q. -/
def riderRecord (r : Rider) (theta : Nat) : Bytes :=
  fit 32 (leBytes 4 theta ++ leBytes 6 r.tail ++ leBytes 8 (boardPos r.boardAt) ++ leBytes 4 r.sigma.toNat ++ leBytes 4 r.constant.toNat
    ++ leBytes 4 r.square.toNat)

-- A Wheel tile's memory (R135)

/-- Regions of a Wheel tile's memory, in the table's order, which fill its 384 KiB (R135; the order is log 143's): code ring, rider
vectors, rider state, tile lists, keeper list, eviction buffer. -/
def ringRegion (t : Nat) : Nat := tileWindow t
def vectorRegion (t : Nat) : Nat := tileWindow t + 0x18000
def stateRegion (t : Nat) : Nat := tileWindow t + 0x28000
def listRegion (t : Nat) : Nat := tileWindow t + 0x2C000
def keeperRegion (t : Nat) : Nat := tileWindow t + 0x44000
def evictRegion (t : Nat) : Nat := tileWindow t + 0x5C000
/-- Entries that an eviction buffer holds. -/
def evictRoom : Nat := 682
/-- A candidate entry, 24 bytes (R150). -/
def candBytes (x : Cand) : Bytes := leBytes 8 x.src ++ leBytes 4 x.score ++ leBytes 4 x.key ++ leBytes 8 x.id

/-- Entries of a tile list (R135). -/
def listRoom (s : State) (p : Nat) : Nat := 4096 / max 1 (s.riderCap p)

/-- What a tile keeps of its riders stands in its regions: of each rider aboard the record and the tile list, the keeper list of the slot that
it keeps, and the eviction buffer (R135). -/
def layTile (t : Nat) (s : State) : State :=
  match s.wheels.findSome? fun w => (w.tiles.find? (·.1 == t)).map fun x => (w, x.2) with
  | none => s
  | some (w, x) =>
    let put := fun (a : Nat) (bs : Bytes) (s : State) => (s.tileWrite none a bs).2
    let l := s.listRoom w.pool
    let s := x.aboard.foldl (fun (s : State) slot =>
      let s := match rider? w slot with
        | some r => put (stateRegion t + 32 * slot) (riderRecord r (lookupD slot x.theta 0)) s
        | none => s
      put (listRegion t + 24 * l * slot) ((lookupD slot x.lists []).flatMap candBytes) s) s
    let kept : Option Rider := match s.corpusCfg? w.corpus with
      | some c => w.riders.find? fun r => s.keeperOf c w.pool r.slot == t
      | none => none
    let s := match kept with
      | some r => put (keeperRegion t) (r.keeper.flatMap candBytes) s
      | none => s
    put (evictRegion t) (x.evict.flatMap fun e => candBytes e.2) s

/-- A part of a rider lands in a tile: folded codes in the rider vectors, the rest in the rider's state record (R135, R142). -/
def landPart (c : CorpusCfg) (t slot i : Nat) (bs : Bytes) (s : State) : State :=
  let b := codeBytes c
  let off := 256 * i
  let codes := bs.take (b - off)
  let s := (s.tileWrite none (vectorRegion t + slot * b + off) codes).2
  (s.tileWrite none (stateRegion t + 32 * slot + (off - b)) (bs.drop (b - off))).2

/-- A slice as a tile streams it: 256 KiB in 8 fills, of which the ring's three slots hold the last that they took (R135, R138). -/
def fillRing (t : Nat) (slice : Bytes) (s : State) : State :=
  [5, 6, 7].foldl (fun (s : State) i =>
    (s.tileWrite none (ringRegion t + 0x8000 * (i % 3)) ((slice.drop (0x8000 * i)).take 0x8000)).2) s

/-- Payloads that carry a rider to the tiles (R142). -/
def riderParts (c : CorpusCfg) : Nat := ceilDiv (codeBytes c + 32) 256

/-- A multicast over a Wheel pool (R90). -/
def multicast (src p : Nat) (r : Rider) (bytes : Bytes) (use : LeatUse) (s : State) : State :=
  s.sendLeat { src, dsts := s.poolTiles p, offset := 0, bytes, queue := none, req := r.req, reqOrder := r.reqOrder, run := 0, use }

/-- RIDER_PREPARE (R141, R142): the keeper reads and folds the query, and multicasts the rider. -/
def doRiderPrepare (p slot : Nat) (s : State) : State :=
  match s.wheel? p with
  | none => s
  | some w =>
    match rider? w slot, s.corpusCfg? w.corpus, s.corpus? w.corpus with
    | some r, some c, some k =>
      if r.phase != 0 || !(s.riderLive r) || !(s.poolActive p) then s
      else
        let inputs := (((s.req? r.req).bind fun q => stageRun? q r.stage).map (·.inputs)).getD []
        match inputs with
        | [h] =>
          if handlePoison h then s.failRequest r.req 5 (some r.stage)
          else match s.hopperGet r.req r.stage h with
            | .error s => s
            | .ok bs =>
              if !(queryOk c bs) then s.failRequest r.req 1 (some r.stage)
              else
                let hd := uAt bs 0 32
                let f := s.foldQuery c k { r with
                  phase := 1, k := fld hd 95 80, rescore := fld hd 111 96, listOut := bitAt hd 34 || s.merging r.req r.reqOrder } (queryElems c bs)
                let s := f.2.setWheel (onRider w slot fun _ => f.1)
                let t := s.keeperOf c p slot
                let body := packCodes (codeBits c) f.1.codes ++ riderRecord f.1 0
                (List.range (riderParts c)).foldl (fun (s : State) i => s.multicast t p f.1 (slice body (256 * i) 256) (.rider slot)) s
        | _ => s.failRequest r.req 1 (some r.stage)
    | _, _, _ => s

-- Leat payloads (R89, R90, R142, R146, R151)

/-- What a tile holds of a slot is discarded (R146). -/
def clearSlot (slot : Nat) (x : WheelTile) : WheelTile :=
  { x with
    landed := x.landed.filter (· != slot), parts := x.parts.filter (·.1 != slot), aboard := x.aboard.filter (· != slot)
    theta := x.theta.filter (·.1 != slot), lists := x.lists.filter (·.1 != slot), evict := x.evict.filter (·.1 != slot)
    todo := x.todo.filter (·.1 != slot) }

/-- A payload of a Wheel acts on a tile: part of a rider, a threshold, or a drop. -/
def landOnWheel (f : LeatFlight) (t : Nat) (s : State) : State :=
  match s.wheels.find? fun w => w.tiles.any (·.1 == t) with
  | none => s
  | some w =>
    match f.use, s.corpusCfg? w.corpus with
    | .rider slot, some c =>
      let n := lookupD slot (((w.tiles.find? (·.1 == t)).map (·.2.parts)).getD []) 0
      (s.landPart c t slot n f.bytes).setWheel (onTile w t fun x =>
        { x with parts := insertKey slot (n + 1) x.parts, landed := if n + 1 = riderParts c then x.landed ++ [slot] else x.landed })
    | .theta slot key, _ =>
      State.layTile t <| s.setWheel (onTile w t fun x =>
        if x.aboard.contains slot && decide (lookupD slot x.theta 0 < key) then
          { x with theta := insertKey slot key x.theta
                   lists := x.lists.map fun l => if l.1 == slot then (slot, l.2.filter fun c => decide (key ≤ c.key)) else l }
        else x)
    | .drop slot, _ => s.setWheel (onTile w t (clearSlot slot))
    | _, _ => s

-- Scoring a slice (R147 to R151, R159, R165)

/-- The rows of a tile's slice of the segment that a release starts. -/
def sliceRows (s : State) (c : CorpusCfg) (k : Corpus) (seg : Seg) (p : Nat) : List SliceRow :=
  let bits := codeBits c
  match seg, k.current with
  | .base _ n, some v => (List.range c.sliceRows).filterMap fun i =>
      let pos := p * c.sliceRows + i
      let id := s.idOf c v n pos
      if id = noId then none
      else
        let b := s.readMem (rowAt c v n pos) c.rowBytes
        some (.base id (unpackCodes bits (b.take (codeBytes c))) (if c.distance = 2 then BitVec.ofNat 32 (uAt b (codeBytes c) 4) else 0)
          (n * c.segRows + pos + v.version % 2 * 2 ^ 62) n pos)
  | .side j, _ =>
    let lo := j * c.blockEntries + p * c.sliceEntries
    (k.side.filter fun e => decide (lo ≤ e.seq) && decide (e.seq < lo + c.sliceEntries)).map fun e =>
      .side (unpackCodes bits (s.readMem (e.addr + 32) (codeBytes c))) e
  | _, _ => []

/-- A slice holds a listed line (R156): its 64-byte line number. -/
def sliceBad (s : State) (c : CorpusCfg) (k : Corpus) (seg : Seg) (p : Nat) : Option Nat :=
  match seg, k.current with
  | .base _ n, some v => s.badLineIn (rowAt c v n (p * c.sliceRows)) 262144
  | .side j, _ =>
    let lo := j * c.blockEntries + p * c.sliceEntries
    (k.side.filter fun e => decide (lo ≤ e.seq) && decide (e.seq < lo + c.sliceEntries)).findSome? fun e => s.badLineIn e.addr c.entryBytes
  | _, _ => none

/-- A rider scores a side entry at or below the mark of a pending switch only if it scored its home in the old version (R165). With
no base segment, only a rider of an earlier pass does. -/
def scoredHome (k : Corpus) (r : Rider) (block home : Nat) : Bool :=
  let sb := (k.current.map (·.segs)).getD 0
  if sb = 0 then (match r.boardAt with
    | .side b => decide (block < b)
    | _ => true)
  else r.scored.any (sameSeg (.base 0 (min home (sb - 1))))

/-- A rider sees a row (R159, R165). -/
def sees (k : Corpus) (switching : Bool) (seg : Seg) (r : Rider) : SliceRow → Bool
  | .base _ _ _ _ n pos => !((k.current.map fun v => v.hides n pos r.tail).getD false)
  | .side _ e =>
    decide (e.seq ≤ r.tail) && decide (r.tail < e.superseded) && e.op != 1
    && (match (if switching then k.next.map (·.1) else none), seg with
      | some v, .side j => decide (v.mark < e.seq) || scoredHome k r j e.home
      | _, _ => true)

/-- A row's candidate for a rider; none for a NaN score. -/
def rowCand (c : CorpusCfg) (r : Rider) (row : SliceRow) : Option Cand :=
  let (id, codes, norm, src) : Nat × List Int × W32 × Nat := match row with
    | .base id codes norm loc _ _ => (id, codes, norm, loc)
    | .side codes e => (e.id, codes, e.norm, e.seq + 2 ^ 63)
  if r.nan then none
  else
    let sc := distScore c.distance r.sigma r.constant r.square r.codes codes norm
    (keyOf (scoreType c.distance) sc).map fun key => { id, key, score := sc.toNat, src }

/-- What a rider scores of a slice: its candidates in row order, and its counts. -/
def scoreRider (c : CorpusCfg) (rows : List SliceRow) (r : Rider) : List (Nat × Cand) × Rider :=
  let cands := rows.map (rowCand c r)
  (cands.filterMap fun x => x.map fun y => (r.slot, y)
   , { r with rows := r.rows + rows.length, nans := r.nans + (cands.filter (·.isNone)).length })

/-- A tile's arrays take the candidates of its slice into the tile lists, in order, until none is left or the eviction buffer is full
(R151, R152). -/
def takeTodo (l : Nat) : List (Nat × Cand) → WheelTile → WheelTile
  | [], x => { x with todo := [], scored := true }
  | e :: r, x =>
    if evictRoom ≤ x.evict.length then { x with todo := e :: r }
    else
      let y := tileTake l (lookupD e.1 x.theta 0) (lookupD e.1 x.lists []) e.2
      takeTodo l r { x with
        lists := insertKey e.1 y.1 x.lists, evict := x.evict ++ y.2.map fun o => (e.1, o), evicted := x.evicted + y.2.length }

/-- A tile works on through its slice: a pause at a full eviction buffer counts its ac, whose number is open, and the segment's evictions
count (R152, R319). -/
def goOnSlice (t : Nat) (w : Wheel) (x : WheelTile) (s : State) : State :=
  let y := takeTodo (s.listRoom w.pool) x.todo x
  let s := (s.setWheel (onTile w t fun _ => y)).countMax (poolCtr w.pool 0xB0) y.evicted
  let s := if y.scored then s else s.chargeFree (poolCtr w.pool 0xA8)
  s.layTile t

/-- The bytes of a tile's slice of a segment: of a base segment its 256 KiB, of a side block its entries at their places. -/
def sliceBytes (s : State) (c : CorpusCfg) (k : Corpus) (seg : Seg) (p : Nat) : Bytes :=
  match seg, k.current with
  | .base _ n, some v => s.readMem (rowAt c v n (p * c.sliceRows)) 262144
  | .side j, _ => fit 262144 ((List.range c.sliceEntries).flatMap fun i =>
      match k.side.find? fun e => e.seq == j * c.blockEntries + p * c.sliceEntries + i with
      | some e => s.readMem e.addr c.entryBytes
      | none => zeros c.entryBytes)
  | _, _ => zeros 262144

/-- DIST of the rotation: a Wheel tile scores its slice for every rider aboard (R137, R151, R156), its time at its banks open (R62). -/
def wheelDist (t : Nat) (w : Wheel) (x : WheelTile) (s : State) : State :=
  match x.release, s.corpusCfg? w.corpus, s.corpus? w.corpus with
  | some rel, some c, some k =>
    if x.begun || x.scored then s
    else
      let p := s.relIndex w.pool t
      let rows := s.sliceRows c k rel.seg p
      let y := x.aboard.foldl (fun (acc : List (Nat × Cand) × Wheel) slot =>
        match rider? acc.2 slot with
        | some r =>
          if r.phase != 2 then acc
          else
            let z := scoreRider c (rows.filter (sees k (rel.switch == 1) rel.seg r)) r
            (acc.1 ++ z.1, onRider acc.2 slot fun _ => z.2)
        | none => acc) ([], w)
      let bad := s.sliceBad c k rel.seg p
      let s := (s.fillRing t (s.sliceBytes c k rel.seg p)).chargeFree (tileCtr t 0)
      let s := s.goOnSlice t y.2 { x with begun := true, todo := y.1, evicted := 0, fault := x.fault || bad.isSome }
      match bad with
      | some line =>
        let s := s.containedEvent { cause := 0x0B, unit := 1, unitIndex := stackOf (line * 64), addr := line * 64 } fnWheel
        s.containedEvent { cause := 0x21, unit := 9, unitIndex := t, addr := line * 64 } fnWheel
      | none => s
  | _, _, _ => s

/-- A line of a DIST: the slots give its codes no block scales, so a block-scaled format's are free (log 132). -/
def distLine (fmt dims : Nat) (bs : Bytes) (s : State) : Line × State :=
  let n := if isMx fmt then ceilDiv dims 32 else 0
  ({ fmt, codes := (unpackFmt fmt bs).take dims, scales := (List.range n).map fun i => (Config.freeByte (s.free + i)).toNat },
   { s with free := s.free + n })

/-- DIST of a plan (R103, R147): every rider of slot 0, its codes in the activation format and then its state record, against every row
of slot 1, whose codes have the weight format (R39). Raw INT32 has no epilogue (R43). -/
def distOp (w : Nat) (get : Nat → Bytes) (s : State) : OpOut × State :=
  let dims := wImm w 1
  let a := packedLen (fmtBits (wAFmt w)) dims
  let b := packedLen (fmtBits (wWFmt w)) dims
  let data := (chunks (max 1 b) (get 1)).filter fun r => r.length == b
  let rid := s.need (wImm w 2 * (a + 32)) (get 0)
  let nrm := rid.2.need (if wImm w 0 = 2 then 4 * data.length else 0) (get 2)
  let riders := chunks (a + 32) rid.1
  let rl := nrm.2.mapFree (fun r s => s.distLine (wAFmt w) dims (r.take a)) riders
  let dl := rl.2.mapFree (fun r s => s.distLine (wWFmt w) dims r) data
  let accs := dl.2.mapFree (fun r s => s.mapFree (fun c s => s.dot r c) dl.1) rl.1
  if wOutFmt w = 13 then (accOut 8 13 accs.1 [], accs.2)
  else
    let o := outRows (wOutFmt w) (List.zipWith (fun (r : Bytes) row => row.zipIdx.map fun (acc, i) =>
      let f := fun (o : Nat) => (BitVec.ofNat 32 (uAt r (a + o) 4) : W32)
      riderScore (wImm w 0) (f 0) (f 4) (f 8) acc (BitVec.ofNat 32 (uAt nrm.1 (4 * i) 4))) riders accs.1)
    ({ o with flags := if accs.1.any (fun r => r.any Acc.sat) then cbSat else o.flags }, accs.2)

/-- DIST of a plan. -/
def planDist (t : Nat) (s : State) : State :=
  s.runOp t 0x12 fun x get s => finishWith t x (s.distOp x.item.wi get)

/-- DIST (R103, R129, R147): on a Wheel tile the rotation's, elsewhere a plan's work item. -/
def doDist (t : Nat) (s : State) : State :=
  match s.wheelAt t with
  | some (w, x) => s.wheelDist t w x
  | none => s.planDist t

/-- WHEEL_SLICE_DONE (R137): a tile that has scored its slice for every rider aboard sends its token, with its landed bits and its fault
bit as they are now. -/
def doWheelSliceDone (t : Nat) (s : State) : State :=
  match s.wheelAt t with
  | some (w, x) =>
    if x.release.isSome && x.token.isNone && (x.scored || x.aboard.isEmpty) then
      s.setWheel (onTile w t fun x => { x with token := some (x.landed, x.fault) }) else s
  | none => s

-- Boundaries (R137 to R146, R164)

/-- Slots that board: prepared, landed in every tile, in slot order from the one after the last boarded (R143). -/
def boarders (w : Wheel) (landed : List Nat) : List Nat :=
  let at' := (w.riders.filter fun r => r.phase == 1 && landed.contains r.slot).map (·.slot)
  let up := sortBy (fun a b => decide (a ≤ b)) at'
  (up.filter fun i => decide (w.lastSlot < i)) ++ up.filter fun i => decide (i ≤ w.lastSlot)

/-- The root forms a release that starts `target` (R137 to R139, R143, R145, R146, R156, R164). -/
def formRelease (w : Wheel) (target : Seg) (landed : List Nat) (faulted : Bool) (s : State) : State :=
  match s.corpusCfg? w.corpus, s.corpus? w.corpus with
  | some c, some k0 =>
    let pending := w.release.switch == 1
    let q := (pending && atSwitch k0 w.release.seg target) || (target == .pause && k0.next.isSome)
    let s := if q then s.switchCorpus w.corpus else s
    let k := (s.corpus? w.corpus).getD k0
    let seg := if target == .pause then cycleStart c k false else target
    let failing := w.riders.filter fun r => r.phase == 2 && faulted
    let stays := fun (r : Rider) => r.phase == 2 && !faulted
    let leaving := w.riders.filter fun r => stays r && (seg == .pause || r.scored.any (sameSeg seg))
    let gone := w.riders.filter fun r => r.phase == 4 && !(landed.contains r.slot)
    let ready := boarders w landed
    let board := ready.take (s.cfg.mode.vals s.fuses.part).boardSlice
    let leave := leaving.map (·.slot) ++ (if seg == .pause then board else [])
    let riders := (w.riders.filter fun r => !(gone.contains r)).map fun r =>
      let r := if board.contains r.slot then { r with phase := 2, tail := k.tail, boardAt := seg, boardVersion := k.version, scored := [] } else r
      if leave.contains r.slot then { r with phase := 3, leftVersion := k.version } else if failing.contains r then { r with phase := 4 } else r
    let aboard := riders.filter (·.phase == 2)
    let switch := if q then 2 else if pending then 1
      else if endsBase c k seg && (k.next.map fun n => aboard.all fun r => decide (n.1.mark ≤ r.tail)).getD false then 1 else 0
    let position := segAfter c k (switch == 1) seg
    let next := if riders.any (·.phase != 3) then position else .pause
    let rel : Release := { seg, next, tail := k.tail, board, switch, faulted, leave, drop := gone.map (·.slot) }
    let s := if ready.length = board.length then s else s.count (poolCtr w.pool 0xA0) (ready.length - board.length)
    let s := match seg with
      | .base _ 0 => s.count (poolCtr w.pool 0x98) 1
      | _ => s
    let s := s.setWheel { w with
      release := rel, flying := w.tiles.map Prod.fst, held := if next == .pause then some position else none
      lastSlot := board.getLast?.getD w.lastSlot, riders, at' := s.portTicks }
    let s := failing.foldl (fun (s : State) r => if s.riderLive r then s.failRequest r.req 6 (some r.stage) else s) s
    let s := gone.foldl (fun (s : State) r => s.freeIfIdle r.req) s
    s.reapOld w.corpus
  | _, _ => s

/-- Slots whose landed bit every mask has. -/
def maskAll : List (List Nat) → List Nat
  | [] => []
  | x :: r => x.filter fun i => r.all fun y => y.contains i
/-- Slots whose landed bit every tile has now. -/
def landedAll (w : Wheel) : List Nat := maskAll (w.tiles.map (·.2.landed))
/-- Slots whose landed bit every tile's token carries (R137). -/
def tokenMask (w : Wheel) : List Nat := maskAll (w.tiles.map fun x => (x.2.token.map Prod.fst).getD [])
/-- Some token carries the fault bit (R137, R156). -/
def tokenFault (w : Wheel) : Bool := w.tiles.any fun x => (x.2.token.map Prod.snd).getD false

/-- Some rider is ready to board, or its slot to be taken out. -/
def stirs (w : Wheel) (landed : List Nat) : Bool :=
  w.riders.any fun r => (r.phase == 1 && landed.contains r.slot) || (r.phase == 4 && !(landed.contains r.slot))

/-- WHEEL_BOUNDARY_COMBINE (R137 to R139): every token is at the root, which forms a release or holds. -/
def doWheelBoundaryCombine (p : Nat) (s : State) : State :=
  match s.wheel? p with
  | none => s
  | some w =>
    if !(s.works fnWheel) || !(s.poolActive p) || !w.flying.isEmpty || w.tiles.isEmpty || !(w.tiles.all fun x => x.2.token.isSome) then s
    else
      let landed := tokenMask w
      let w := { w with riders := w.riders.map fun r => if r.phase == 2 then { r with scored := r.scored ++ [w.release.seg] } else r }
      if w.release.next != .pause then s.formRelease w w.release.next landed (tokenFault w)
      else if stirs w landed then s.formRelease w (w.held.getD .pause) landed (tokenFault w)
      else s.setWheel { w with tiles := w.tiles.map fun x => (x.1, { x.2 with release := none, token := none }) }

/-- The tiles wait for a release that the root holds (R139). -/
def paused (w : Wheel) : Bool := w.held.isSome && w.flying.isEmpty && w.tiles.all fun x => x.2.release.isNone

/-- WHEEL_WAKE (R139, R146): a landing or a drop wakes the root, which starts the held segment. -/
def doWheelWake (p : Nat) (s : State) : State :=
  match s.wheel? p with
  | none => s
  | some w =>
    let landed := landedAll w
    if s.works fnWheel && s.poolActive p && paused w && stirs w landed then s.formRelease w (w.held.getD .pause) landed false else s

/-- WHEEL_RELEASE_ARRIVAL (R138): a tile retires leaving riders, admits boarders and starts the segment. -/
def doWheelReleaseArrival (t : Nat) (s : State) : State :=
  match s.wheelAt t with
  | none => s
  | some (w, _) =>
    if !(w.flying.contains t) then s
    else
      let rel := w.release
      let w := onTile { w with flying := w.flying.erase t } t fun x =>
        let x := if rel.faulted then x.aboard.foldl (fun x i => clearSlot i x) x else x
        let x := rel.board.foldl (fun (x : WheelTile) i =>
          { x with aboard := x.aboard ++ [i], lists := insertKey i [] x.lists, theta := insertKey i 0 x.theta }) x
        { x with
          release := some rel, begun := false, scored := false, todo := [], evicted := 0, token := none, fault := false
          aboard := x.aboard.filter fun i => !(rel.leave.contains i)
          landed := x.landed.filter fun i => !(rel.leave.contains i), parts := x.parts.filter fun y => !(rel.leave.contains y.1) }
      (s.setWheel w).layTile t

/-- WHEEL_WATCHDOG (R446): no boundary release within 1 s while a rider is aboard stops WHEEL. -/
def doWheelWatchdog (p : Nat) (s : State) : State :=
  match s.wheel? p with
  | some w =>
    if s.works fnWheel && w.riders.any (·.phase == 2) then
      (s.atLeast (w.at' + ticksOfMs 1000)).functionEvent { cause := 0x2D, unit := 9, unitIndex := p } 3
    else s
  | none => s

-- Candidates at the keeper (R151)

/-- Entries that a rider keeps, k_list. -/
def kList (r : Rider) : Nat := if r.rescore = 0 then r.k else r.rescore

/-- The keeper merges one arrival: its list, θ and the ties that it dropped. -/
def keeperTake (r : Rider) (c : Cand) : Rider :=
  let all := insertBy candLe c r.keeper
  let kept := all.take (kList r)
  let full := decide (kList r ≤ kept.length)
  let last := (kept.getLast?.map (·.key)).getD 0
  let theta := if full then max r.theta last else r.theta
  let ties := if r.theta < theta then 0 else r.ties
  let dropped := (all.drop (kList r)).filter fun x => x.key == last
  { r with keeper := kept, theta, ties := ties + dropped.length }

/-- The arrays of a tile that paused at a full eviction buffer work on (R152). -/
def resumeSlice (t : Nat) (s : State) : State :=
  match s.wheelAt t with
  | some (w, x) => if x.begun && !x.scored then s.goOnSlice t w x else s
  | none => s

/-- LEAT_PAYLOAD_LAND (R89, R90): a payload lands whole at one of its destinations. A drop that makes room lets a paused tile work on
(R146, R152). -/
def doLeatPayloadLand (i t : Nat) (s : State) : State :=
  match s.leatArrives i t with
  | none => s
  | some (f, s) => match f.use with
    | .plain => s.landPlain f t
    | _ => (s.landOnWheel f t).resumeSlice t

/-- EVICTION_ARRIVAL (R151, R152): a tile's oldest evicted entry reaches its rider's keeper; when θ rises it is multicast. The place that it leaves
lets a paused tile work on. -/
def doEvictionArrival (t : Nat) (s : State) : State :=
  match s.wheels.find? fun w => w.tiles.any (·.1 == t) with
  | none => s
  | some w =>
    match ((w.tiles.find? (·.1 == t)).map (·.2.evict)).getD [], s.corpusCfg? w.corpus with
    | e :: rest, some c =>
      let w := onTile w t fun x => { x with evict := rest }
      match rider? w e.1 with
      | some r =>
        if r.phase = 2 || r.phase = 3 then
          let r' := keeperTake r e.2
          let keeper := s.keeperOf c w.pool e.1
          let s := (s.setWheel (onRider w e.1 fun _ => r')).layTile keeper
          (if r.theta < r'.theta && r.phase = 2 then
            s.multicast keeper w.pool r' (leBytes 4 r'.theta) (.theta e.1 r'.theta) else s).resumeSlice t |>.layTile t
        else ((s.setWheel w).resumeSlice t).layTile t
      | none => ((s.setWheel w).resumeSlice t).layTile t
    | _, _ => s

-- Results (R153 to R155, R184)

/-- The rescoring vector of a candidate (R154): of the version that VPAR names, or of its side entry; of a side entry that a switch folded,
its row's in the version that took it in. -/
def fineAddr (s : State) (c : CorpusCfg) (k : Corpus) (x : Cand) : Option Nat :=
  if x.side then
    match k.side.find? (·.seq == x.stamp) with
    | some e => e.fine
    | none => k.current.bind fun v => ((positions c v).find? fun p => s.idOf c v p.1 p.2 == x.id).map fun p => fineAt c v p.1 p.2
  else
    ((k.current.toList ++ k.old).find? fun v => v.version % 2 == b01 (bitAt x.src 62)).map fun v => v.fine + c.fineBytes * x.stamp

/-- A rescored candidate's score (R154). -/
def fineScore (distance : Nat) (q xs : List W32) : W32 :=
  (q.zip xs).foldl (fun acc p => if distance = 2 then (let d := f32Sub p.1 p.2; f32Fma d d acc) else f32Fma p.1 p.2 acc) 0

/-- The candidates of a rider rescored: their scores, unless a listed line is met. A vector that is no longer held is free. -/
def rescoreAll (c : CorpusCfg) (k : Corpus) (r : Rider) : List Cand → State → Except (Nat × Nat) (List W32) × State
  | [], s => (.ok [], s)
  | x :: rest, s =>
    let one : Except (Nat × Nat) W32 × State := match s.fineAddr c k x with
      | some a =>
        if s.hasBadLine a c.fineBytes then (.error (a, c.fineBytes), s)
        else (.ok (fineScore c.distance r.query (fineValues c k (s.readMem a c.fineBytes))), s)
      | none => let f := s.freeW32; (.ok f.1, f.2)
    match one with
    | (.error e, s) => (.error e, s)
    | (.ok v, s) =>
      match rescoreAll c k r rest s with
      | (.ok vs, s) => (.ok (v :: vs), s)
      | e => e

/-- The final selection of a rider: kept entries in candidate order, ties left out, NaN count (R153, R154). -/
def finalList (r : Rider) (lists : List Cand) : List Cand × Nat :=
  let b := selectBest (kList r) (r.keeper ++ lists)
  let last := (b.1.getLast?.map (·.key)).getD 0
  let keeperLast := (r.keeper.getLast?.map (·.key)).getD 0
  (b.1, b.2 + (if !r.keeper.isEmpty && keeperLast == last then r.ties else 0))

/-- The result header and entries (R155). -/
def wheelResult (c : CorpusCfg) (r : Rider) (l : SelList) : Bytes :=
  record 64 [(0, 0x57524553), (32, c.id), (36, c.distance), (64, l.cands.length), (80, r.k), (96, l.flags), (112, satTo 16 l.tieLeft)
      , (128, r.leftVersion), (160, satTo 32 l.nans), (192, satTo 64 r.rows), (272, r.tail), (320, boardPos r.boardAt)]
    ++ (l.cands.flatMap fun x => leBytes 8 x.id ++ leBytes 4 (b01 x.side * 2 ^ 31) ++ leBytes 4 x.score)
    ++ (List.replicate (r.k - l.cands.length) (leBytes 8 noId ++ leBytes 4 0 ++ leBytes 4 (worstScore l.type).toNat)).flatten

/-- An entry of a list for a cross-device merge (R184). -/
def mergeEntry (s : State) (r : Rider) (x : Cand) : Cand :=
  let stamp := if x.side then x.stamp else if r.leftVersion % 2 == b01 (bitAt x.src 62) then r.leftVersion else r.leftVersion - 1
  { x with src := stamp + s.pairIndex * 2 ^ 48 + b01 (bitAt x.src 62) * 2 ^ 62 + b01 x.side * 2 ^ 63 }

/-- A rider's slot is free (R155, R164). -/
def freeSlot (w : Wheel) (slot : Nat) (r : Rider) (s : State) : State :=
  let w := { w with riders := w.riders.filter (·.slot != slot), tiles := w.tiles.map fun x => (x.1, clearSlot slot x.2) }
  ((s.setWheel w).reapOld w.corpus).freeIfIdle r.req

/-- A WHEEL stage has completed: its pool passes a stage boundary, at which it takes changed weights, having no refills (R272). -/
def endWheelStage (r st : Nat) (s : State) : State :=
  let pool := ((s.req? r).bind fun q => stageRun? q st).map (·.pool)
  let s := s.setStage r st fun x => { x with dispatched := true, done := true }
  match pool with
  | some p => s.passBoundary p
  | none => s

/-- The result of a rider is written and handed to the Hopper: its stage has completed (R116, R155); a list of a cross-device merge
waits for the merge, and a participant's own request has then done its part (R184, R369). -/
def handResult (c : CorpusCfg) (r : Rider) (l : SelList) (s : State) : State :=
  let bytes := if r.listOut then listBytes { l with cands := l.cands.map (s.mergeEntry r) } else wheelResult c r l
  match s.devWrite r.req [bytes] with
  | some ([a], s) =>
    if s.merging r.req r.reqOrder then
      let s : State := { s with collectives := s.collectives.map fun x =>
        if x.kind == 0 && x.req == r.req && x.reqOrder == r.reqOrder then { x with own := some bytes } else x }
      if ((s.req? r.req).bind (·.origin)).isSome then s.endRequest r.req stDone else s
    else
    let hand : Hand := { stage := r.stage, template := 0, order := 0, handle := setLast (hbmHandle a bytes.length 0) }
    let s := s.setReq r.req fun q => { q with flags := q.flags ||| l.flags, hands := q.hands ++ [hand] }
    s.endWheelStage r.req r.stage
  | _ => s.failRequest r.req 1 (some r.stage)

/-- RIDER_FINAL_MERGE (R153 to R155): the tile lists and the keeper list of a rider that has left in every tile make its result. -/
def doRiderFinalMerge (p slot : Nat) (s : State) : State :=
  match s.wheel? p with
  | none => s
  | some w =>
    match rider? w slot, s.corpusCfg? w.corpus, s.corpus? w.corpus with
    | some r, some c, some k =>
      let waits := !w.flying.isEmpty || w.tiles.any fun x => x.2.evict.any (·.1 == slot)
      if r.phase != 3 || waits || !(s.poolActive p) then s
      else if !(s.riderLive r) then s.freeSlot w slot r
      else
        let f := finalList r (w.tiles.flatMap fun x => lookupD slot x.2.lists [])
        let ty := scoreType c.distance
        if r.rescore = 0 then
          let l : SelList := { k := r.k, type := ty, cands := f.1, tieLeft := f.2, nans := r.nans
                               flags := (if f.2 = 0 then 0 else flTie) + (if f.1.length < r.k then flShort else 0) + (if r.nans = 0 && !r.nan then 0 else flNan) }
          (s.handResult c r l).freeSlot w slot r
        else match s.rescoreAll c k r f.1 with
          | (.error e, s) => (s.hopperFault r.req r.stage e.1 e.2).freeSlot w slot r
          | (.ok vs, s) =>
            let l := topkList r.k ty (vs.map (·.toNat)) (f.1.map (·.id)) (f.1.map (·.src))
            let nans := r.nans + l.nans
            let l := { l with nans, flags := if nans = 0 && !r.nan then l.flags else l.flags ||| flNan }
            (s.handResult c r l).freeSlot w slot r
    | _, _, _ => s

/-- RIDER_DROP (R146): the keeper of a slot whose request ended discards its list and multicasts a drop. -/
def doRiderDrop (p slot : Nat) (s : State) : State :=
  match s.wheel? p with
  | none => s
  | some w =>
    match rider? w slot, s.corpusCfg? w.corpus with
    | some r, some c =>
      if 3 ≤ r.phase || s.riderLive r || !(s.poolActive p) then s
      else
        let t := s.keeperOf c p slot
        let w := onRider w slot fun r => { r with phase := 4, keeper := [] }
        let w := onTile w t fun x => { x with landed := x.landed.filter (· != slot) }
        (s.setWheel w).multicast t p r [] (.drop slot)
    | _, _ => s

end State
end Sys2Proof.Machine
end

