-- ==== Sys2Proof/Machine/Collectives.lean ====
section
/-! DEFINITION. Collectives over devices (R29, R184 to R186, R191, R339, R369): cross-device merges of Wheel lists, selection groups
that continue on peers, and the rounds of a selection group (R189). -/

namespace Sys2Proof.Machine

-- The binomial tree (R184)

/-- The level at which a rank above 0 sends: its lowest set bit. -/
def rankLevel (r : Nat) : Nat := ((List.range 9).find? fun j => bitAt r j).getD 0
def rankParent (r : Nat) : Nat := r - 2 ^ rankLevel r
/-- The ranks that send to a rank, lowest level first. -/
def rankKids (d r : Nat) : List Nat := (List.range 8).filterMap fun j => if r % 2 ^ (j + 1) = 0 && r + 2 ^ j < d then some (r + 2 ^ j) else none

/-- The bits of a mask, lowest first. -/
def maskBits (m : Nat) : List Nat := (List.range 256).filter (bitAt m)
def maskOf (xs : List Nat) : Nat := (xs.map fun i => 2 ^ i).sum

/-- A list of R169 is whole, and its reserved fields are 0 (R10, R169). -/
def listWhole (bs : Bytes) : Bool :=
  let h := leNat (bs.take 32)
  uAt bs 0 4 == 0x5453494C && fld h 63 36 == 0 && decide (32 + 24 * fld h 159 128 ≤ bs.length)
  && (chunks 24 (slice bs 32 (24 * fld h 159 128))).all fun e => fld (leNat e) 61 56 == 0

/-- A decision as SEL_DECISION carries it, 32 bytes, as the model lays it out (R189). -/
def Decision.encode (d : Decision) : Bytes := fit 32 (leBytes 4 d.kind ++ leBytes 4 d.round ++ leBytes 8 d.key ++ leBytes 8 d.id ++ leBytes 8 d.tie)
def Decision.decode (b : Bytes) : Decision := { kind := uAt b 0 4, round := uAt b 4 4, key := uAt b 8 8, id := uAt b 16 8, tie := uAt b 24 8 }

namespace State

def setColl (c : Collective) (s : State) : State :=
  { s with collectives := s.collectives.map fun x => if x.kind == c.kind && x.number == c.number && x.origin == c.origin then c else x }
def dropColl (c : Collective) (s : State) : State :=
  { s with collectives := s.collectives.filter fun x => !(x.kind == c.kind && x.number == c.number && x.origin == c.origin) }
def coll? (s : State) (kind number origin : Nat) : Option Collective :=
  s.collectives.find? fun x => x.kind == kind && x.number == number && x.origin == origin

/-- The device of a rank is LOST to this device (R339). -/
def rankLost (s : State) (c : Collective) (rank : Nat) : Bool := (c.members[rank]?).all fun d => !(s.ownIndex d) && !(s.ownerLive d)
/-- A message to a rank. -/
def toRank (c : Collective) (rank op coverage : Nat) (body : Bytes) (s : State) : State :=
  match (c.members[rank]?).bind s.ownerSession with
  | some sid =>
    let budget := ((s.req? c.req).map s.collBudget).getD 0
    s.sendColl sid { op, level := rankLevel (max c.rank rank), rank := c.rank, origin := c.origin, number := c.number, req := c.originReq, budget, coverage } body
  | none => s
/-- The rank of the device at the other end of a session. -/
def rankOf (s : State) (c : Collective) (q : Session) : Option Nat := c.members.findIdx? fun d => (s.answersFor d).contains q.dev

-- Cross-device merges (R184, R185, R339, R369)

/-- A request's WHEEL stage starts its merge over peers (R186, R339): the named devices that are LIVE take part. -/
def startMergeOver (r st : Nat) (q : Request) (query : Bytes) (s : State) : State :=
  match q.collective with
  | some (n, 0, mask) =>
    let named := (maskBits mask).filter fun d => !(s.ownIndex d)
    let live := named.filter s.ownerLive
    let c : Collective := {
      number := n, origin := s.pairIndex, originReq := r, kind := 0, members := s.pairIndex :: live, rank := 0, req := r, reqOrder := q.order
      k := 1 + Config.mergeK n (fld (uAt query 0 32) 95 80) % 65536, stage := st, missing := decide (live.length < named.length) }
    if (s.coll? 0 n s.pairIndex).isSome then s
    else
      let s : State := { s with collectives := s.collectives ++ [c] }
      (rankKids c.members.length 0).foldl (fun (s : State) kid =>
        s.toRank c kid 5 (maskOf c.members) (leBytes 4 q.shareClass ++ leBytes 4 c.k ++ query)) s
  | _ => s

/-- A participant's request of one WHEEL stage (R369): none when its admission rules refuse it. -/
def admitMerge (h : CollHead) (body : Bytes) (s0 : State) : Option ((Nat × Nat) × State) :=
  let corpus := Config.mergeCorpus h.origin h.number
  let share := uAt body 0 4
  let k := uAt body 4 4
  let query := body.drop 8
  let stage : Stage := { kind := 0, repeats := false, preds := [], wiFirst := 0, wiCount := 0, cycles := 0, footprint := 0, minCols := 0, object := corpus }
  let m : SubmitMsg := { plan := 0, entry := 0, final := 0, shareClass := share, priority := 0, model := none, tokeniser := none, grammar := none
                         adapter := none, budgetUs := h.budget, maxNew := 0, bound := 0, bodyAt := 0 }
  match bindStage s0.cfg.pools stage with
  | none => none
  | some p =>
    let damaged := (((s0.corpus? corpus).bind (·.current)).map (·.damaged)).getD false
    if !(s0.runs (stagesNeed [stage])) || (s0.cfg.twin.role != 0 && s0.twin.state == 1) || 64 ≤ share || !(inRange 1 65536 k) || query.length < 32
        || damaged || s0.shareRefused m [stage] || s0.entryRefused [stage] then none
    else
      let bs := query.take 4 ++ leBytes 4 (uAt query 4 4 ||| 4) ++ query.drop 8
      (s0.alloc (max 128 bs.length) 128).bind fun (a : Nat × State) =>
        let n := alignUp (32 + 24 * k) 128
        (a.2.alloc n 4096).map fun (b : Nat × State) =>
          let s := b.2.portWrite a.1 bs
          let r := s.freeEntry
          let q : Request := {
            state := 1, order := s.admitted, session := 0, plan := 0, planImage := 0, entry := 0, final := 0
            stages := [{ stage := 0, pool := p, inputs := [hbmHandle a.1 bs.length 0] }], needs := stagesNeed [stage], shareClass := share
            deadline := if h.budget = 0 then none else some (s.meshCount + countsOf h.budget)
            payload := (a.1, max 128 bs.length), scratch := b.1, scratchBytes := n, devNext := b.1, devEnd := b.1 + n
            origin := some (h.origin, h.req, h.number, corpus) }
          ((r, q.order), ({ s with
            reqs := sortBy (fun a b => decide (a.1 ≤ b.1)) ((r, q) :: s.reqs), admitted := s.admitted + 1 } : State).count (devCtr 0) 1)

/-- MERGE_START (R369): forwarded to the children of this rank, then admitted here or refused. -/
def doMergeStart (m : Msg) (s : State) : State :=
  s.onColl 5 m (fun (_ : Session) h body s =>
    let members := h.origin :: (maskBits h.coverage).filter (· != h.origin)
    match members.findIdx? s.ownIndex with
    | none => s
    | some rank =>
      let old := s.coll? 0 h.number h.origin
      -- a merge that this device has done its part in makes way for the next of its number
      if rank = 0 || old.any (fun c => c.upward.isNone) then s
      else
        let s := match old with
          | some c => s.dropColl c
          | none => s
        let c : Collective := { number := h.number, origin := h.origin, originReq := h.req, kind := 0, members, rank, req := 4096, reqOrder := 0
                                k := uAt body 4 4, limit := if h.budget = 0 then none else some (s.meshCount + countsOf h.budget) }
        let s := (rankKids members.length rank).foldl (fun (s : State) kid =>
          match (members[kid]?).bind s.ownerSession with
          | some sid => s.sendColl sid { op := 5, level := rankLevel kid, rank, origin := h.origin, number := h.number, req := h.req
                                         budget := h.budget, coverage := h.coverage } body
          | none => s) s
        match s.admitMerge h body with
        | some (x, s) => { s with collectives := s.collectives ++ [{ c with req := x.1, reqOrder := x.2 }] }
        | none => { s with collectives := s.collectives ++ [c] })

/-- MERGE_LIST (R185): kept for the merge, unless its coverage overlaps what rank 0 has; a list without coverage says that its
rank refused. A rank that has sent its own list, or meets a refusal, passes it to rank 0. -/
def doMergeList (m : Msg) (s : State) : State :=
  s.onColl 6 m (fun (_ : Session) h body s =>
    match s.coll? 0 h.number h.origin with
    | none => s
    | some c =>
      let refusal := h.coverage == 0 || !(listWhole body)
      let c' := if refusal then { c with arrived := c.arrived ++ [h.rank] } else { c with waiting := c.waiting ++ [(h.rank, h.coverage, body)] }
      if c.rank = 0 then
        if !refusal && h.coverage &&& c.covered != 0 then s
        else s.setColl { c' with covered := if refusal then c.covered else c.covered ||| h.coverage }
      else if refusal || c.sent then
        let s := s.setColl { c with arrived := c.arrived ++ [h.rank] }
        match (c.members[0]?).bind s.ownerSession with
        | some sid => s.sendColl sid h body
        | none => s
      else s.setColl c')

/-- A list with others merged into it in the order of their levels (R184); with none to merge it stands as it was written. -/
def mergeInto (k : Nat) (own : Bytes) (lists : List (Nat × Nat × Bytes)) : SelList :=
  let sorted := sortBy (fun (a b : Nat × Nat × Bytes) => decide (rankLevel a.1 < rankLevel b.1) || (rankLevel a.1 == rankLevel b.1 && decide (a.1 ≤ b.1))) lists
  let first := listRead own
  sorted.foldl (fun (acc : SelList) x => mergeLists k first.type [acc, listRead x.2.2]) first

/-- The merge at rank 0 is complete: its list is written, and the stage has completed (R155, R185). -/
def finishMergeOver (c : Collective) (own : Bytes) (s : State) : State :=
  let l := mergeInto c.k own c.waiting
  let missing := c.missing || c.covered ||| 1 != 2 ^ c.members.length - 1
  let l := if missing then { l with flags := l.flags ||| flPartial } else l
  let bytes := listBytes l
  let s := s.dropColl c
  match s.devWrite c.req [bytes] with
  | some ([a], s) =>
    let hand : Hand := { stage := c.stage, template := 0, order := 0, handle := setLast (hbmHandle a bytes.length 0) }
    let s := s.setReq c.req fun q => { q with flags := q.flags ||| l.flags, hands := q.hands ++ [hand] }
    s.endWheelStage c.req c.stage
  | _ => s.failRequest c.req 1 (some c.stage)

/-- A cross-device merge goes on as far as it can (R185, R339). A participant whose parent becomes LOST after it took the list sends it to rank 0, which
discards it if it has those entries; it keeps its list for that until the budget ends. -/
def stepMerge (c : Collective) (s : State) : State :=
  let d := c.members.length
  let live := (s.live? c.req c.reqOrder).isSome
  let known := fun (m : Nat) => c.waiting.any (·.1 == m) || c.arrived.contains m || s.rankLost c m
  if c.rank = 0 then
    if !live then s.dropColl c
    else match c.own with
      | some own =>
        if (List.range d).all fun m => m == 0 || bitAt c.covered m || c.arrived.contains m || s.rankLost c m then s.finishMergeOver c own else s
      | none => s
  else
    let kids := rankKids d c.rank
    let up := if s.rankLost c (rankParent c.rank) then 0 else rankParent c.rank
    match c.upward with
    | some l =>
      if !(kids.all known) then s
      else if up = 0 && rankParent c.rank != 0 then
        -- the parent that took the list is lost, perhaps with it (R185)
        (s.toRank c 0 6 l.1 l.2).dropColl c
      else if up = 0 || s.rankLost c 0 || c.limit.any (fun n => decide (n ≤ s.meshCount)) then s.dropColl c
      else s
    | none =>
      match c.own with
      | some own =>
        if kids.all known then
          let coverage := c.waiting.foldl (fun a x => a ||| x.2.1) (2 ^ c.rank)
          let list := listBytes (mergeInto c.k own c.waiting)
          (s.toRank c up 6 coverage list).setColl { c with
            sent := true, upward := some (coverage, list), waiting := [], arrived := c.arrived ++ c.waiting.map (·.1) }
        else s
      | none =>
        if live then s
        else
          let none' := listBytes { k := 0, type := 0, cands := [] }
          let s := s.toRank c up 6 0 none'
          -- lists that were here already go on to rank 0
          let s := c.waiting.foldl (fun (s : State) x => match (c.members[0]?).bind s.ownerSession with
            | some sid => s.sendColl sid { op := 6, level := rankLevel x.1, rank := x.1, origin := c.origin, number := c.number, req := c.originReq, coverage := x.2.1 } x.2.2
            | none => s) s
          s.setColl { c with sent := true, upward := some (0, none'), waiting := [], arrived := c.arrived ++ c.waiting.map (·.1) }

-- Rounds of a selection group (R189, R191)

/-- The collective that a group continues on: the request's own of that number (R187). -/
def groupColl (s : State) (g : SelectSlot) : Option (Nat × Nat) :=
  ((s.req? g.req).bind (·.collective)).bind fun x => if g.collective != 0 && x.1 == g.collective && x.2.1 == 1 then some (x.1, x.2.2) else none

/-- A group's members start again from round 1 (R191). -/
def restartRounds (p i : Nat) (s : State) : State :=
  s.setSelect p i fun g => { g with
    decision := { kind := 0, round := 1 }, certain := 0, flying := (g.arrived ++ g.flying).eraseDups, arrived := [], bins := [], valid := 0, nans := 0
    gathered := [] }

/-- The place of a collective's group among its pool's slots. -/
def collSlot (s : State) (c : Collective) : Option Nat :=
  (s.pool c.pool).selects.findIdx? fun g => g.req == c.req && g.reqOrder == c.reqOrder && g.collective == c.number

/-- The collective of a group, bound to it; messages of peers may have come before. -/
def bindColl (p : Nat) (g : SelectSlot) (number mask : Nat) (s : State) : Collective × State :=
  let old := s.collectives.find? fun x => x.kind == 1 && x.number == number
  let blank : Collective := { number, origin := 0, originReq := g.req, kind := 1, members := [], rank := 0, req := 4096, reqOrder := 0, k := g.k }
  let c := old.getD blank
  let s : State := if old.isSome then s else { s with collectives := s.collectives ++ [blank] }
  if !c.members.isEmpty then (c, s)
  else
    let named := maskBits mask
    let members := named.filter fun d => s.ownIndex d || s.ownerLive d
    let c := { c with
      members, rank := (members.findIdx? s.ownIndex).getD 0, req := g.req, reqOrder := g.reqOrder, originReq := g.req, k := g.k, stage := g.stage
      missing := decide (members.length < named.length), pool := p, round := 1 }
    (c, s.setColl c)

/-- SELECT_ROUND_COMBINE (R189, R191): every member's counts of a round are at member 0, which decides, or sends the sums to the
peers' tree. -/
def doSelectRoundCombine (p i : Nat) (s : State) : State :=
  match (s.pool p).selects[i]? with
  | none => s
  | some g =>
    if 65536 ≤ g.group || g.size = 0 || g.arrived.length != g.size then s
    else match s.groupColl g with
      | none =>
        let d := decide' g.k g.decision g.bins g.valid g.certain
        s.releaseDecision p i d.1 d.2
      | some (n, mask) =>
        let b := s.bindColl p g n mask
        let c := b.1
        if c.req != g.req || c.reqOrder != g.reqOrder || c.round != g.decision.round || c.arrived.contains 256 then s
        else
          -- 256 stands for this device's own sums
          b.2.setColl { c with
            bins := addBins c.bins g.bins, arrived := c.arrived ++ [256], valid := c.valid + (if c.round = 1 then g.valid else 0)
            nans := c.nans + (if c.round = 1 then g.nans else 0) }

/-- SELECT_DECISION_ARRIVAL (R189): a member counts the next round, or its selected entries go to member 0. -/
def doSelectDecisionArrival (t : Nat) (s : State) : State :=
  match (s.tile t).running with
  | none => s
  | some x =>
    let w := x.item.wi
    let p := x.item.pool
    match s.selectAt x.item (fld (wImm w 2) 31 16) with
    | none => s
    | some i =>
      match (s.pool p).selects[i]? with
      | none => s
      | some g =>
        if wOpcode w != opTopk || x.waits != 2 || !(g.flying.contains t) then s
        else
          let s := s.setSelect p i fun g => { g with flying := g.flying.erase t }
          if g.decision.kind = 0 then s.memberCounts t p i x
          else
            let mine := g.gathered ++ [(wImm w 3, decided g.decision (memberCands x))]
            let s := s.setSelect p i fun g => { g with gathered := mine }
            if mine.length != g.size then s
            else
              let sorted := (sortBy (fun (a b : Nat × List Cand) => decide (a.1 ≤ b.1)) mine).flatMap Prod.snd
              let ty := wImm w 1
              match s.collectives.find? fun c => c.kind == 1 && c.req == g.req && c.reqOrder == g.reqOrder && c.number == g.collective with
              | some c => s.setColl { c with own := some (listBytes { k := g.k, type := ty, cands := (candSort sorted).take g.k }) }
              | none => s.finishGroup p i (some (groupList g.k ty g.decision g.nans false sorted))

/-- Sums of a peer's round enter the collective's. -/
def addSums (c : Collective) (dev : Nat) (body : Bytes) : Collective :=
  { c with
    bins := addBins c.bins ((chunks 4 (slice body 20 1024)).map leNat), arrived := c.arrived ++ [dev]
    valid := c.valid + (if c.round = 1 then uAt body 4 8 else 0), nans := c.nans + (if c.round = 1 then uAt body 12 8 else 0) }

/-- A decision reaches this device's members, and its children (R191); its coverage field carries the participants that are left (log 147). -/
def takeDecision (c : Collective) (d : Decision) (certain : Nat) (s : State) : State :=
  let s := (rankKids c.members.length c.rank).foldl (fun (s : State) kid => s.toRank c kid 8 (maskOf c.members) d.encode) s
  let again := d.kind == 0 && d.round == 1
  let s := match s.collSlot c with
    | some i => if again then s.restartRounds c.pool i else s.releaseDecision c.pool i d certain
    | none => s
  s.setColl { c with round := d.round, arrived := [], bins := [], sent := false, valid := if again then 0 else c.valid, nans := if again then 0 else c.nans }

/-- The group's list is complete at rank 0, or this device's share is on its way to it: the group ends here. -/
def endSelection (c : Collective) (list : SelList) (s : State) : State :=
  let s := if list.flags &&& flPartial != 0 then s.setReq c.req fun q => { q with flags := q.flags ||| flPartial } else s
  match s.collSlot c with
  | some i => (s.dropColl c).finishGroup c.pool i (some list)
  | none => s.dropColl c

/-- Peers that became LOST leave a selection: it starts again without them, unless its final decision stands (R191). -/
def loseMembers (c : Collective) (s : State) : Collective × State :=
  let members := c.members.filter fun d => s.ownIndex d || s.ownerLive d
  if members.length = c.members.length then (c, s)
  else
    let c := { c with members, rank := (members.findIdx? s.ownIndex).getD 0, missing := true }
    if c.round = 13 then (c, s.setColl c)
    else
      let c := { c with waiting := c.waiting.filter fun x => x.2.1 == 13, arrived := [], bins := [], valid := 0, nans := 0, sent := false, round := 0 }
      let s := s.setColl c
      if c.rank = 0 then
        let s := s.takeDecision c { kind := 0, round := 1 } 0
        ((s.collectives.find? fun x => x.kind == 1 && x.number == c.number).getD c, s)
      else (c, s)

/-- A selection over peers goes on as far as it can (R191). -/
def stepSelection (c0 : Collective) (s : State) : State :=
  if c0.members.isEmpty then s
  else if (s.live? c0.req c0.reqOrder).isNone then s.dropColl c0
  else
    let y := s.loseMembers c0
    let c := y.1
    let s := y.2
    match (s.collSlot c).bind fun i => (s.pool c.pool).selects[i]? with
    | none => s
    | some g =>
      if c.round = 13 then
        match c.own with
        | none => s
        | some own =>
          if c.rank != 0 then
            let l := listRead own
            let flags := (if l.cands.length < g.k then flShort else 0) + (if c.missing then flPartial else 0)
            (s.toRank c 0 9 0 own).endSelection c { l with flags }
          else if (c.members.drop 1).all fun d => c.waiting.any fun x => x.1 == d && x.2.1 == 13 then
            let mine := listRead own
            let theirs := (c.members.drop 1).flatMap fun d => ((c.waiting.find? fun x => x.1 == d && x.2.1 == 13).map fun x => (listRead x.2.2).cands).getD []
            s.endSelection c (groupList g.k mine.type g.decision c.nans c.missing (mine.cands ++ theirs))
          else s
      else
        let kids := (rankKids c.members.length c.rank).filterMap fun k => c.members[k]?
        let come := c.waiting.filter fun x => kids.contains x.1 && x.2.1 == c.round && !(c.arrived.contains x.1)
        let c := come.foldl (fun (c : Collective) x => if c.arrived.contains x.1 then c else addSums c x.1 x.2.2) c
        let c := { c with waiting := c.waiting.filter fun x => !(come.contains x) }
        let s := s.setColl c
        if c.sent || !(c.arrived.contains 256) || !(kids.all c.arrived.contains) then s
        else if c.rank = 0 then
          let d := decide' g.k g.decision c.bins c.valid g.certain
          s.takeDecision c d.1 d.2
        else
          let s := s.toRank c (rankParent c.rank) 7 0 (leBytes 4 c.round ++ leBytes 8 c.valid ++ leBytes 8 c.nans ++ c.bins.flatMap fun n => leBytes 4 (satTo 32 n))
          s.setColl { c with sent := true }

/-- A message of a selection is kept by its sender and round until the selection takes it up. -/
def keepSel (q : Session) (number round : Nat) (body : Bytes) (s : State) : State :=
  let c := (s.collectives.find? fun x => x.kind == 1 && x.number == number).getD
    { number, origin := 0, originReq := 0, kind := 1, members := [], rank := 0, req := 4096, reqOrder := 0, k := 0 }
  let dev := match s.rankOf c q with
    | some r => c.members.getD r q.dev
    | none => q.dev
  let c' := { c with waiting := c.waiting.filter (fun x => !(x.1 == dev && x.2.1 == round)) ++ [(dev, round, body)] }
  if s.collectives.contains c then s.setColl c' else { s with collectives := s.collectives ++ [c'] }

/-- SEL_BINS (R191): a device's sums of a round. -/
def doSelBins (m : Msg) (s : State) : State :=
  s.onColl 7 m (fun (q : Session) h body s => if body.length = 1044 then s.keepSel q h.number (uAt body 0 4) body else s)

/-- SEL_GATHER (R191): a device's selected entries reach rank 0. -/
def doSelGather (m : Msg) (s : State) : State :=
  s.onColl 9 m (fun (q : Session) h body s => if listWhole body then s.keepSel q h.number 13 body else s)

/-- SEL_DECISION (R191): a decision comes down the tree and is passed on. -/
def doSelDecision (m : Msg) (s : State) : State :=
  s.onColl 8 m (fun (_ : Session) h body s =>
    match s.collectives.find? fun x => x.kind == 1 && x.number == h.number && !x.members.isEmpty with
    | some c =>
      let d := Decision.decode body
      let members := maskBits h.coverage
      if body.length != 32 || c.rank = 0 || !(inRange 1 13 d.round) then s
      else if d.kind = 0 && d.round = 1 && h.coverage != 0 then
        -- a restart names who takes part from now on
        (match members.findIdx? s.ownIndex with
        | some rank => s.takeDecision { c with members, rank, missing := c.missing || decide (members.length < c.members.length)
                                               waiting := c.waiting.filter fun x => x.2.1 == 13 } d 0
        | none => s)
      else s.takeDecision c d 0
    | none => s)

/-- Every collective goes on as far as it can. -/
def stepColls (s : State) : State :=
  s.collectives.foldl (fun (s : State) c => if c.kind = 0 then s.stepMerge c else s.stepSelection c) s

end State
end Sys2Proof.Machine
end

