-- ==== Sys2Proof/Machine/Generate.lean ====
section
/-! DEFINITION. Generation serving (R275 to R290): KV pages as they fill, write-back, prefill pieces, decode steps, the endings of a
step, and prefix handles retained. -/

namespace Sys2Proof.Machine

/-- Work items of a step that serve sampling and its text, which a prefill piece has no part in (R283). -/
def samples (w : Nat) : Bool := [0x36, 0x63, 0x64, 0x65].contains (wOpcode w) || (wOpcode w == opTopk && wImm w 0 == 0)

namespace State

/-- The model image that a request bound. -/
def modelOf (s : State) (q : Request) : Option Model := q.model.bind fun m => s.modelKey? m.2

-- Pages (R276 to R279)

/-- Staged lines of some pages go to HBM and leave every pool, and the pages leave the pools' bitmaps (R278, R279). -/
def unstage (bases : List Nat) (bytes : Nat) (s : State) : State :=
  let inPage := fun (a : Nat) => bases.any fun b => decide (b ≤ a) && decide (a < b + bytes)
  let lines := (s.pools.flatMap fun p => p.2.staged.filter fun l => inPage l.addr)
  if lines.isEmpty && !(s.pools.any fun p => p.2.openPages.any bases.contains) then s
  else
    let s := (lines.filter (·.dirty)).foldl (fun (s : State) l => s.portWrite l.addr l.data) s
    { s with pools := s.pools.map fun p => (p.1, { p.2 with
        staged := p.2.staged.filter fun l => !(inPage l.addr), spilled := p.2.spilled.filter fun a => !(inPage a)
        openPages := p.2.openPages.filter fun b => !(bases.contains b) }) }

/-- The pages with the positions below `len` written, in every layer (R276, R277). -/
def filledPages (layers len : Nat) (ps : List KvPage) : List KvPage :=
  ps.zipIdx.map fun (p, i) =>
    if p.shared || p.isSealed then p
    else
      let f := min 64 (len - 64 * (i / max 1 layers))
      { p with fill := max p.fill f, isSealed := decide (64 ≤ max p.fill f) }

/-- KV of a request's positions below `len` is written: FILL advances, full pages are sealed and their staged lines written back
(R277, R278). -/
def advanceKv (r len : Nat) (s : State) : State :=
  match s.req? r with
  | none => s
  | some q =>
    let ps := filledPages (((s.modelOf q).map (·.layers)).getD 1) len q.pages
    let sealed' := ((q.pages.zip ps).filter fun p => p.2.isSealed && !p.1.isSealed).map (·.2.base)
    let s := if sealed'.isEmpty then s else s.unstage sealed' (s.pageBytes q)
    (s.setReq r fun q => { q with length := len, pages := ps }).writePageList r

/-- A request has staged lines or open pages in a pool. -/
def stagedFor (s : State) (q : Request) : Bool :=
  let own := (q.pages.filter fun p => !p.shared).map (·.base)
  s.pools.any fun p => p.2.openPages.any own.contains

/-- The request's KV work moves to a pool: what is staged elsewhere is written back first (R279). -/
def moveKv (r p : Nat) (s : State) : State :=
  match s.req? r with
  | none => s
  | some q => s.setReq r fun x => { x with kvPool := some p, writeback := x.writeback || ((q.kvPool.map (· != p)).getD false && s.stagedFor q) }

-- Prefill (R264, R280, R282, R288)

/-- Tokens of a prompt (R264): `COUNT` of a prompt or a token list, else four bytes a token. -/
def promptCount (bs : Bytes) : Nat :=
  if uAt bs 0 4 = 0x504D5250 then uAt bs 20 4 else if uAt bs 0 4 = 0x4E4B4F54 then uAt bs 8 4 else bs.length / 4

/-- The pool of a model's decode steps (R21). -/
def decodePool (s : State) : Option Nat := bindKind s.cfg.pools 5

/-- Two requests take their decode steps together (R282, R284): one model image. -/
def stepMates (a b : Request) : Bool := a.model.map (·.2) == b.model.map (·.2)

/-- Requests that run in a step now. -/
def inStep (s : State) (r order : Nat) : Bool := s.steps.any fun d => d.batch.contains (r, order) || d.pieces.any fun p => p.1 == r && p.2.1 == order

/-- Some request of the same model is in DECODE (R282). -/
def stepExpected (s : State) (q : Request) : Bool := s.reqs.any fun x => x.2.state == 6 && x.2.status.isNone && stepMates x.2 q

/-- Room of the next step for prefill tokens: `PIGGYBACK` less those assigned (R282). -/
def stepRoom (s : State) (q : Request) (m : Model) : Nat :=
  m.piggyback - ((s.reqs.filter fun x => x.2.status.isNone && stepMates x.2 q && !(s.inStep x.1 x.2.order)).map fun x =>
    match x.2.piece with
    | some (1, n) => n
    | _ => 0).sum

/-- The next piece of a request's prefill is assigned (R266, R279, R282). -/
def assignPiece (r : Nat) (x : StageRun) (s : State) : State :=
  match s.req? r with
  | none => s
  | some q =>
    match s.modelOf q, s.decodePool with
    | some m, dp =>
      let n := q.promptLen - q.length
      let room := s.stepRoom q m
      let joins := dp.isSome && s.stepExpected q && decide (min 64 n ≤ room) && decide (0 < room)
      let piece := if joins then (1, min n room) else (0, min n m.chunk)
      let s := (s.setReq r fun q => { q with piece := some piece, state := max 5 q.state }).setStage r x.stage fun y => { y with dispatched := false }
      s.moveKv r (if joins then dp.getD x.pool else x.pool)
    | none, _ => s.failRequest r 1 (some x.stage)

/-- A PREFILL stage becomes ready (R264): the prompt's length is known. An empty prompt, one beyond its bound, or one without a
position after its reused prefix cannot be prefilled. -/
def startPrefill (r : Nat) (x : StageRun) (s : State) : State :=
  match s.req? r with
  | none => s
  | some q =>
    match x.inputs.head? with
    | none => s.failRequest r 1 (some x.stage)
    | some h =>
      match s.handleFault h, s.hopperRead h with
      | some f, _ => s.failRequest r f (some x.stage)
      | none, none => s.hopperFault r x.stage (handleAddr h) (handleBytes h)
      | none, some bs =>
        let n := promptCount bs
        if q.promptKnown then s
        else if n = 0 || q.promptLen < n || n ≤ q.length then s.failRequest r 1 (some x.stage)
        else s.setReq r fun q => { q with promptLen := n, promptKnown := true }

/-- KV pages for a copy of a partial page, evicting handles as an admission may (R288, R290). -/
def retainRoom (n pb : Nat) (s : State) : Option (List Nat × State) := (s.reserveKv none n pb 0 s.prefixes.length).map fun x => (x.1.1, x.2)

/-- A retaining request's last prompt piece is written (R288, R289): its full pages become SHARED, its partial one is copied. -/
def retainPrefix (r : Nat) (s : State) : State :=
  match s.req? r with
  | none => s
  | some q =>
    if !q.retain || q.retained || q.retainCancelled then s
    else
      let layers := ((s.modelOf q).map (·.layers)).getD 1
      let full := q.promptLen / 64 * layers
      let part := if q.promptLen % 64 = 0 then [] else ((q.pages.drop full).take layers).map (·.base)
      let bytes := q.promptLen % 64 * (s.pageBytes q / 64)
      match part.find? fun a => s.hasBadLine a bytes, s.retainRoom part.length (s.pageBytes q) with
      | some a, _ => s.copyFault r a bytes
      | none, none => s
      | none, some (copies, s) =>
        let s := (part.zip copies).foldl (fun (s : State) p => s.storeHbm (some r) fnHopper p.2 (s.readMem p.1 bytes)) s
        let h : Prefix := {
          handle := q.prefixHandle, model := (q.model.map (·.2)).getD 0, adapter := q.adapter, tokens := q.promptLen
          pages := (q.pages.take full).map (·.base), partialPages := copies, evictable := q.evictable, lastBound := s.admitted }
        let s : State := { s with prefixes := s.prefixes ++ [h] }
        (s.setReq r fun q => { q with retained := true, pages := q.pages.zipIdx.map fun (p, i) => if i < full then { p with shared := true } else p }).writePageList r

/-- The last prompt piece is written and, where the prompt is retained, written back (R279, R282, R288). -/
def finishPrefill (r : Nat) (x : StageRun) (s : State) : State :=
  match s.req? r with
  | none => s
  | some q =>
    if q.retain && !q.retained && !q.retainCancelled && s.stagedFor q then s.setReq r fun q => { q with writeback := true }
    else (s.retainPrefix r).setStage r x.stage fun y => { y with dispatched := true, done := true }

/-- What a piece wrote stands, and the next one can be assigned (R282). -/
def endPiece (r n : Nat) (s : State) : State :=
  match s.req? r with
  | none => s
  | some q => (s.advanceKv r (q.length + n)).setReq r fun q => { q with piece := none }

/-- The handles of an earlier piece are released when the next one starts. -/
def dropHands (r st : Nat) (s : State) : State :=
  match s.req? r with
  | none => s
  | some q =>
    let mine := (q.hands.filter (·.stage == st)).map (·.handle)
    if mine.isEmpty then s else (s.setReq r fun q => { q with hands := q.hands.filter (·.stage != st) }).releaseBuffers mine

/-- A request's prefill goes on as far as it can: the rest after a piece, up to `k` pieces that need no work item. -/
def goOnPrefill (r : Nat) (x : StageRun) : Nat → State → State
  | 0, s => s
  | k + 1, s =>
    match s.req? r, (s.req? r).bind fun q => stageRun? q x.stage with
    | some q, some x =>
      if q.status.isSome || q.writeback || q.copying || x.done then s
      else match q.piece with
        | some (0, n) =>
          if !x.dispatched then
            if (s.pool x.pool).blocked.contains (r, x.stage) then s
            else
              let s := (s.dropHands r x.stage).dispatch r x.stage
              if ((s.req? r).bind fun q => stageRun? q x.stage).any (·.dispatched) then goOnPrefill r x k s else s
          else if s.stageBusy r q.order x.stage then s
          else goOnPrefill r x k (s.endPiece r n)
        | some _ =>
          -- a piece whose step will not come is assigned anew
          if s.stepExpected q || s.inStep r q.order then s else goOnPrefill r x k (s.setReq r fun q => { q with piece := none })
        | none => if q.length < q.promptLen then goOnPrefill r x k (s.assignPiece r x) else s.finishPrefill r x
    | _, _ => s

/-- KV_WRITEBACK_DONE (R279): the staged lines of a request are in HBM. -/
def doKvWritebackDone (r : Nat) (s : State) : State :=
  match s.req? r with
  | some q =>
    if q.writeback && q.status.isNone then
      (s.unstage ((q.pages.filter fun p => !p.shared).map (·.base)) (s.pageBytes q)).setReq r fun q => { q with writeback := false }
    else s
  | none => s

/-- PREFIX_PAGE_COPY_DONE (R288): the positions of a reused handle's partial page stand in the request's own page, in every layer. -/
def doPrefixPageCopyDone (r : Nat) (s : State) : State :=
  match s.req? r with
  | some q =>
    if q.copying && q.status.isNone then
      let layers := ((s.modelOf q).map (·.layers)).getD 1
      let own := ((q.pages.drop (q.length / 64 * layers)).take layers).map (·.base)
      let src := match s.prefixes.find? fun p => some p.handle == q.reuse with
        | some p => p.partialPages
        | none => []
      let bytes := q.length % 64 * (s.pageBytes q / 64)
      match src.find? fun a => s.hasBadLine a bytes with
      | some a => s.copyFault r a bytes
      | none =>
        let s := (src.zip own).foldl (fun (s : State) p => s.storeHbm (some r) fnHopper p.2 (s.readMem p.1 bytes)) s
        (s.setReq r fun q => { q with copying := false }).advanceKv r q.length
    else s
  | none => s

-- Decode steps (R245, R246, R283, R284)

/-- The step that runs under a request's number. -/
def stepOf (s : State) (r order : Nat) : Option DecodeStep := s.steps.find? fun d => d.leader == r && d.leaderOrder == order
def setStep (d : DecodeStep) (s : State) : State :=
  { s with steps := s.steps.map fun x => if x.leader == d.leader && x.leaderOrder == d.leaderOrder then d else x }

/-- The requests that a step's stages run for: its leader, for the shared work items, and the members that have not ended. -/
def stepUnits (s : State) (d : DecodeStep) : List Nat :=
  let members := (d.batch ++ d.pieces.map fun p => (p.1, p.2.1)).filter fun p => (s.live? p.1 p.2).isSome
  (d.leader :: members.map Prod.fst).eraseDups

/-- The REPEAT stages that a step runs: those on its leader's path, and those on the path of a member that bound another plan image, whose
per-request work items are its own plan's (log 102). -/
def stepStages (s : State) (d : DecodeStep) : List Nat :=
  let reps := fun (q : Request) => (q.stages.map (·.stage)).filter fun st => ((s.stageOf q st).map (·.repeats)).getD false
  let all := (s.stepUnits d).flatMap fun r => match s.req? r with
    | some q => if r == d.leader || q.planImage != d.plan then reps q else []
    | none => []
  sortBy (fun a b => decide (a ≤ b)) all.eraseDups

/-- The stages that a stage of a step comes after, as its units' plans say. -/
def stepPreds (s : State) (d : DecodeStep) (st : Nat) : List Nat :=
  (s.stepUnits d).flatMap fun r => match (s.req? r).bind fun q => s.stageOf q st with
    | some x => x.preds
    | none => []

/-- Handles of a stage in the numbering of R117. -/
def handsOf (hs : List Hand) (st : Nat) : List Nat :=
  (sortBy (fun (a b : Hand) => decide (a.template < b.template) || (a.template == b.template && decide (a.order ≤ b.order)))
    (hs.filter (·.stage == st))).map (·.handle)

/-- A stage's input handles for a request (R117): its predecessors' in the order PRED0 to PRED3. -/
def inputsFor (pl : Plan) (q : Request) (hs : List Hand) (st : Nat) : List Nat := (predsOn pl q st).flatMap (handsOf hs)

/-- The request as a unit of a step's stage: what its templates instantiate under its number, and the signals that the Hopper increments for
the templates it skips (R284). A stage of the bound adapter has none for a request without one (R292). -/
def unitItems (d : DecodeStep) (pl : Plan) (q : Request) (r st : Nat) : List (Nat × Nat) × List Nat :=
  let all := if ((pl.stages[st]?).map (·.object)) == some 0x4000 && q.adapter.isNone then [] else stageItems pl st
  let isPiece := d.pieces.any fun p => p.1 == r && p.2.1 == q.order
  let member := isPiece || d.batch.contains (r, q.order)
  let skips := fun (w : Nat) => (adapterOnly w && q.adapter.isNone) || (isPiece && samples w)
  let own := fun (t : Nat × Nat) => if perRequest t.2 then member && q.status.isNone && !(skips t.2)
    else r == d.leader && q.order == d.leaderOrder
  (all.filter own, if member && q.status.isNone then ((all.map Prod.snd).filter fun w => perRequest w && skips w).filterMap wDone else [])

/-- What a unit of a step's stage brings: its request, plan and stage run, and what it instantiates. -/
structure StepUnit where
  r : Nat
  q : Request
  pl : Plan
  x : StageRun
  items : List (Nat × Nat)
  skipped : List Nat
  deriving DecidableEq, Repr

/-- A unit of a step's stage; the work items are those of the plan that its request bound (R28). -/
def stepUnit (s : State) (d : DecodeStep) (st r : Nat) : Option StepUnit :=
  (s.req? r).bind fun q => (s.planOf q).bind fun pl =>
    let x := if q.planImage == d.plan then (s.req? d.leader).bind fun l => stageRun? l st else stageRun? q st
    x.map fun x => let u := unitItems d pl q r st; { r, q, pl, x, items := u.1, skipped := u.2 }

/-- Increments of a request's signals, each saturating at 24 bits (R119); a pool whose queue has work that this makes ready wakes its idle
tiles (R122). -/
def addSignals (r : Nat) (gs : List (Nat × Nat)) (s : State) : State :=
  if gs.isEmpty then s else
    let s' := s.setReq r fun q => { q with signals := gs.foldl (fun v g => v.modify g.1 fun n => satTo 24 (n + g.2)) q.signals }
    s.pools.foldl (fun s' p => if p.2.queue.any fun i => i.req == r && !(s.signalled i) && s'.signalled i then s'.wakePool p.1 else s') s'

/-- The work items of a unit of a step's stage enter its pool's queue. -/
def pushUnit (d : DecodeStep) (st : Nat) (u : StepUnit) (s : State) : State :=
  let s := (s.zeroSignals u.r ((stageItems u.pl st).map Prod.snd)).addSignals u.r (u.skipped.map fun g => (g, 1))
  let first := !((predsOn u.pl u.q st).any fun p => (u.pl.stages[p]?).any (·.repeats))
  let hs := if u.r == d.leader then u.q.hands ++ d.hands else u.q.hands
  let x := { u.x with inputs := (if first then [d.record] else []) ++ inputsFor u.pl u.q hs st }
  s.pushItems x.pool (u.items.map fun t => s.makeItem u.q u.r u.pl x t.1 (!(perRequest t.2)))

/-- A step's stage is dispatched: the work items of all its units enter their pools' queues, unless it finds too few free slots for all
their barriers and groups (R127, R188, R284). -/
def dispatchStep (d : DecodeStep) (st : Nat) (s : State) : State :=
  let us := (s.stepUnits d).filterMap (s.stepUnit d st)
  let filled := fun (u : StepUnit) => u.items.map fun t => fillItem u.q u.r st t.2
  let pool := ((us.head?).map (·.x.pool)).getD d.pool
  match us.foldl (fun (acc : Option State) u => acc.bind fun s => s.takeSlots u.q u.r st u.x.pool (filled u)) (some s) with
  | none => s.blockStage d.leader st pool (us.map fun u => (barriersOf (filled u)).length).sum (us.map fun u => (groupsOf (filled u)).length).sum
  | some s =>
    let s := us.foldl (fun (s : State) u => s.pushUnit d st u) s
    let s := us.foldl (fun (s : State) u => s.setStage u.r st fun y => { y with version := s.corpusVersion (((u.pl.stages[st]?).map (·.object)).getD 0xFFFF) }) s
    s.setPool pool fun p => { p with blocked := p.blocked.filter (· != (d.leader, st)) }

/-- Work of a step's stage is still under way. -/
def stepBusy (s : State) (d : DecodeStep) (st : Nat) : Bool :=
  (s.stepUnits d).any fun r => match s.req? r with
    | some q => s.stageBusy r q.order st || s.pools.any fun p => p.2.blocked.contains (r, st)
    | none => false

/-- The text state's matcher has matched, and what a step's text work items emitted for a request: the bytes of the handles that its last
text work item, else its final stage, sent to the Hopper (R283). -/
def emittedHands (s : State) (q : Request) : List Nat :=
  let opcode := fun (h : Hand) => ((s.planOf q).bind fun p => p.items[h.template]?).map wOpcode
  let by' := fun (c : Nat) => q.hands.filter fun h => opcode h == some c
  let hs := if !(by' 0x64).isEmpty then by' 0x64 else if !(by' 0x63).isEmpty then by' 0x63 else q.hands.filter (·.stage == q.final)
  (sortBy (fun (a b : Hand) => decide (a.stage < b.stage) || (a.stage == b.stage && (decide (a.template < b.template)
    || (a.template == b.template && decide (a.order ≤ b.order))))) hs).map (·.handle)

/-- A transition entry's token and next state (R242). -/
def transToken (e : Nat) : Nat := fld e 17 0
def transNext (e : Nat) : Nat := fld e 63 44

/-- The state after a token (R242, R245): that of its transition entry, else the default. Where there is neither the manual gives none. -/
def grammarNext (g : Grammar) (state token : Nat) (s : State) : Nat × State :=
  let e := leNat (s.readMem (g.obj.base + g.offStates + 16 * state) 16)
  let ts := (List.range (fld e 95 64)).map fun i => leNat (s.readMem (g.obj.base + g.offTrans + fld e 63 32 + 8 * i) 8)
  match ts.find? fun t => transToken t == token with
  | some t => (transNext t, s)
  | none => if gsHasDefault e then (gsNext e, s) else s.freeBelow g.states

/-- A sampled token reaches the Hopper (R245): the grammar's state moves. -/
def seeToken (r : Nat) (s : State) : State :=
  match s.req? r with
  | none => s
  | some q =>
    match q.token with
    | some t =>
      if q.tokenSeen then s
      else match q.grammar.bind fun g => s.grammarKey? g.2 with
        | some g =>
          let n := s.grammarNext g q.grammarState t
          n.2.setReq r fun q => { q with tokenSeen := true, grammarState := n.1 }
        | none => s.setReq r fun q => { q with tokenSeen := true }
    | none => s

/-- The ending that a step meets, the first that applies (R246). -/
def stepEnding (s : State) (q : Request) : Option Nat :=
  let eos := (q.tokeniser.bind fun k => s.cfg.toks.find? (·.id == k)).map (·.eos)
  let ctx := ((s.modelOf q).map (·.ctxMax)).getD 0
  if q.textRecord.isSome && (s.textState q).matched then some stDoneStop
  else if q.token.isSome && eos != some none32 && eos == q.token then some stDone
  else match s.grammarEnds q with
    | some st => some st
    | none => if q.maxNew ≤ q.newTokens + 1 || ctx ≤ q.length then some stDoneLength else none

/-- Bytes of some handles in order; the first that cannot be read. -/
def readHands (s : State) : List Nat → Except Nat Bytes
  | [] => .ok []
  | h :: r =>
    if (s.handleFault h).isSome then .error h
    else match s.hopperRead h, readHands s r with
      | some b, .ok bs => .ok (b ++ bs)
      | none, _ => .error h
      | _, e => e

/-- A handle that the Hopper reads for a request is stale, out of range, or in a listed line. -/
def handFault (r st h : Nat) (s : State) : State :=
  match s.handleFault h with
  | some f => s.failRequest r f (some st)
  | none => s.hopperFault r st (handleAddr h) (handleBytes h)

/-- A step's text for a request is done (R246, R283): an ending ends it with the bytes emitted, else they leave as a fragment. -/
def decideStep (r : Nat) (s : State) : State :=
  let s := s.seeToken r
  match s.req? r with
  | none => s
  | some q =>
    if q.status.isSome || q.textDone then s
    else
      let hs := s.emittedHands q
      match s.readHands hs with
      | .error h => s.handFault r q.final h
      | .ok bytes =>
        match s.stepEnding q with
        | some st => (s.setReq r fun q => { q with newTokens := q.newTokens + 1 }).endWith r st bytes
        | none =>
          let s := s.setReq r fun q => { q with textDone := true, hands := q.hands.filter fun h => !(hs.contains h.handle) }
          let s := if bytes.isEmpty then s else s.sendResult r false bytes
          s.releaseBuffers hs

/-- A request of a step's batch at the step's end (R283): a step that sampled no token for it is the plan's fault. -/
def endStepFor (r order : Nat) (s : State) : State :=
  match s.live? r order with
  | none => s
  | some q =>
    if q.token.isNone then s.failRequest r 1 none
    else
      let s := s.decideStep r
      match s.live? r order with
      | none => s
      | some q => (s.advanceKv r (q.length + 1)).setReq r fun q => { q with newTokens := q.newTokens + 1, token := none }

/-- A decode step completes (R283, R284). -/
def finishStep (d : DecodeStep) (s : State) : State :=
  let s : State := { s with steps := s.steps.erase d }
  let s := s.releaseBuffers (d.hands.map (·.handle))
  let s := d.batch.foldl (fun (s : State) p => s.endStepFor p.1 p.2) s
  let s := d.pieces.foldl (fun (s : State) p => if (s.live? p.1 p.2.1).isSome then s.endPiece p.1 p.2.2 else s) s
  let s := if (s.live? d.leader d.leaderOrder).isNone then s.dropHandles d.leader d.leaderOrder else s
  s.freeIfIdle d.leader

/-- A stage of some requests has completed: its rings are emptied, its slots free (R82, R127, R188), and the pool has passed a stage
boundary (R272). -/
def freeSlots (rs : List Nat) (st p : Nat) (s : State) : State :=
  let s := s.setPool p fun x => { x with
    barriers := x.barriers.filter fun b => !(rs.contains b.req && b.stage == st)
    selects := x.selects.filter fun b => !(rs.contains b.req && b.stage == st) }
  let s := rs.foldl (fun (s : State) r => match s.req? r with
    | some q => s.endRings (q.order * 4096 + r, st)
    | none => s) s
  s.passBoundary p

/-- A step goes on as far as it can: its REPEAT stages in order, each once those before it have completed (R116, R284). -/
def goOnStep (d : DecodeStep) (s : State) : State :=
  let sts := s.stepStages d
  let s := sts.foldl (fun (s : State) st =>
    match s.stepOf d.leader d.leaderOrder with
    | none => s
    | some d =>
      let preds := (s.stepPreds d st).filter sts.contains
      let (d, s) := if d.started.contains st || !(preds.all d.finished.contains) then (d, s)
        else
          let d := { d with started := d.started ++ [st] }
          (d, (s.setStep d).dispatchStep d st)
      if d.started.contains st && !(d.finished.contains st) && !(s.stepBusy d st) then
        let pool := (((s.req? d.leader).bind fun q => stageRun? q st).map (·.pool)).getD d.pool
        (s.setStep { d with finished := d.finished ++ [st] }).freeSlots (d.leader :: d.batch.map Prod.fst ++ d.pieces.map Prod.fst) st pool
      else s) s
  match s.stepOf d.leader d.leaderOrder with
  | some d => if sts.all d.finished.contains then s.finishStep d else s
  | none => s

/-- Request order across classes by descending weight in force in the pool, then that of R272 (R284). -/
def batchBefore (s : State) (pool : Nat) (a b : Nat × Request) : Bool :=
  let w := fun (x : Nat × Request) => s.poolWeight pool x.2.shareClass
  if w a != w b then Nat.blt (w b) (w a)
  else if a.2.priority != b.2.priority then Nat.blt b.2.priority a.2.priority
  else match a.2.deadline, b.2.deadline with
    | some x, some y => if x != y then Nat.blt x y else Nat.ble a.2.order b.2.order
    | some _, none => true
    | none, some _ => false
    | none, none => Nat.ble a.2.order b.2.order

/-- The step record as the model lays it out (R284): the batch's size and entries, then the pieces as entry, first position, tokens. -/
def stepRecord (s : State) (batch : List (Nat × Nat)) (pieces : List (Nat × Nat × Nat)) : Bytes :=
  leBytes 4 batch.length ++ batch.flatMap (fun p => leBytes 4 p.1) ++ leBytes 4 pieces.length
    ++ pieces.flatMap fun p => leBytes 4 p.1 ++ leBytes 4 (((s.req? p.1).map (·.length)).getD 0) ++ leBytes 4 p.2.2

/-- The next step of the requests that go with one of them is formed (R113, R282, R284); a leader whose step record area does not fit ends,
and the next one leads. -/
def formStep (q0 : Request) (pool : Nat) (m : Model) : Nat → State → State
  | 0, s => s
  | k + 1, s =>
    let idle := s.reqs.filter fun x => stepMates x.2 q0 && x.2.status.isNone && !x.2.writeback && !x.2.copying
    let ready := sortBy (s.batchBefore pool) (idle.filter fun x => x.2.state == 6)
    let batch : List (Nat × Nat) := (ready.take m.batchMax).map fun x => (x.1, x.2.order)
    let pieces : List (Nat × Nat × Nat) := idle.filterMap fun x => match x.2.piece with
      | some (1, n) => some (x.1, x.2.order, n)
      | _ => none
    match ready with
    | [] => s
    | (r, q) :: _ =>
      let n := 8 + 4 * m.batchMax + 12 * m.piggyback
      let area : Option (Nat × State) := match q.stepArea with
        | some a => some (a, s)
        | none => (s.devAlloc r n).map fun a => (a.1, a.2.setReq r fun x => { x with stepArea := some a.1 })
      match area with
      | none => formStep q0 pool m k (s.failRequest r 1 none)
      | some (a, s) =>
        let rec' := s.stepRecord batch pieces
        let s := (s.storeHbm (some r) fnHopper a rec').count (poolCtr pool 0x48) (ready.length - batch.length)
        let reps := fun (x : Request) (h : Hand) => ((s.stageOf x h.stage).map fun (g : Stage) => g.repeats).getD false
        let s := batch.foldl (fun (s : State) (p : Nat × Nat) =>
          let old := match s.req? p.1 with
            | some x => (x.hands.filter (reps x)).map fun (h : Hand) => h.handle
            | none => []
          (s.setReq p.1 fun x => { x with token := none, tokenSeen := false, textDone := false, hands := x.hands.filter fun h => !(reps x h) }).releaseBuffers old) s
        let d : DecodeStep := { pool, model := m.obj.key, plan := q.planImage, leader := r, leaderOrder := q.order, batch, pieces
                                record := hbmHandle a rec'.length 0 }
        ({ s with steps := s.steps ++ [d] } : State).goOnStep d

/-- A request enters DECODE once every stage before its REPEAT stages has completed (R266, R282). -/
def enterDecode (r : Nat) (s : State) : State :=
  match s.req? r, s.decodePool with
  | some q, some p =>
    let reps := fun (st : Nat) => ((s.stageOf q st).map (·.repeats)).getD false
    let firsts := (q.stages.filter fun x => reps x.stage).flatMap fun x => (match s.planOf q with
      | some pl => predsOn pl q x.stage
      | none => []).filter fun st => !(reps st)
    if q.status.isSome || 6 ≤ q.state || !(q.stages.any fun x => reps x.stage) || !(firsts.all fun st => (stageRun? q st).any (·.done)) then s
    else (s.setReq r fun q => { q with state := 6 }).moveKv r p
  | _, _ => s

/-- Steps in progress go on (R284). -/
def goOnSteps (s : State) : State := s.steps.foldl (fun (s : State) d => s.goOnStep d) s

/-- The next step of each model with requests in DECODE is formed where none runs: a model holds at most one step at a time (R284, R321). -/
def formSteps (s : State) : State :=
  (s.reqs.filter fun x => x.2.state == 6 && x.2.status.isNone).foldl (fun (s : State) x =>
    match s.modelOf x.2, s.decodePool with
    | some m, some p =>
      if s.steps.any (fun d => d.model == m.obj.key) || !(s.works (fnHopper + fnPools)) then s else s.formStep x.2 p m s.reqs.length
    | _, _ => s) s

end State
end Sys2Proof.Machine
end

