-- ==== Sys2Proof/Machine/Protect.lean ====
section
/-! DEFINITION. Protective trips and what fires them (R431 to R433, R457, R459, R465), device-wide failures (R446, R452),
the end of a recovery (R450), telemetry and deferral counts (R453, R454, R477). -/

namespace Sys2Proof.Machine

/-- Current limits of the eight rails in mA (R457). -/
def railLimits : List Nat := [2600000, 90000, 360000, 720000, 25000, 65000, 16000, 1000]

/-- The hottest of some readings, and the first sensor that reads it. -/
def hottestOf (temps : List (Nat × Int)) : Nat × Int :=
  match temps with
  | [] => (0, 0)
  | t :: r => r.foldl (fun a b => if a.2 < b.2 then b else a) t

namespace State

/-- The device is past its start-up and has not halted. -/
def awake (s : State) : Bool := !s.pins.resetLow && !s.boot.halted && s.boot.service != 0

/-- The cap in force in watts (R431). -/
def capInForce (s : State) : Nat := min (s.cfg.mode.vals s.fuses.part).cap s.power.cap

/-- THERMAL_CHECK (R431, R432): the sensor out for calibration is not read; its neighbour stands in. -/
def doThermalCheck (temps : List Int) (s : State) : State :=
  if !s.awake then s else
    let read := ((temps.take 64).zipIdx.map fun t => (t.2, t.1)).filter fun t => some t.1 != s.tele.sensorOut
    let h := hottestOf read
    let s := { s with
      power := { s.power with hottest := h.2 }
      tele := { s.tele with sensorOut := none }
      pins := { s.pins with thermtrip := s.pins.thermLatched || (s.pins.thermtrip && decide (1680 ≤ h.2)) } }
    if 1840 ≤ h.2 then (s.trip 1 h.1 h.2.toNat).settle else s

/-- POWER_CHECK (R431): rail currents against R457, then the input power averaged over 1 ms against the cap. -/
def doPowerCheck (x : Sample) (inputMw : Nat) (s : State) : State :=
  if !s.awake then s else
    let s := { s with power := { s.power with inputMw } }
    let above := (x.iout.zip railLimits).findIdx? fun p => decide (p.2 < p.1)
    let s := match above with
      | some k => s.trip 2 k (x.iout.getD k 0)
      | none => s
    let s := if s.capInForce * 1000 < inputMw then s.trip 3 0 (inputMw / 1000) else s
    s.settle

/-- PMBUS_POLL (R459): every controller answers with its voltage and current. -/
def doPmbusPoll (vout iout : List Nat) (s : State) : State :=
  if s.awake then { s with power := { s.power with rails := (vout.zip iout).take 8, silent := [] } } else s

/-- PMBUS_NO_ANSWER (R459): a controller silent for 1 ms is treated as exceeding its limit. -/
def doPmbusNoAnswer (k : Nat) (s : State) : State :=
  if s.awake && decide (k < 8) then
    (({ s with power := { s.power with silent := k :: s.power.silent.filter (· != k) } } : State).trip 2 k 0).settle
  else s

/-- PMB_ALERT (R459). -/
def doPmbAlert (s : State) : State := if s.awake then (s.trip 2 0 0).settle else s

/-- THERMAL_COMPARATOR (R465): THERMTRIP_N latches until reset. -/
def doThermalComparator (_sensor : Nat) (s : State) : State :=
  if s.pins.resetLow then s else { s with pins := { s.pins with thermtrip := true, thermLatched := true } }

/-- The unit and index under which the loss of a PLL is logged. -/
def pllUnit : Pll → Nat × Nat
  | .arith => (8, 0)
  | .mesh => (2, 0)
  | .hbm k => (1, k)
  | .port => (4, 0)
  | .ctrl => (6, 0)

/-- A DEVICE event of a cause (R446, R452). -/
def deviceCause (cause unit idx : Nat) (s : State) : State :=
  if s.awake then s.deviceEvent { cause, unit, unitIndex := idx } else s

/-- PLL_LOCK_LOSS, FW_WATCHDOG, ENTROPY_FAIL and HBM_STACK_TRAINING_LOSS (R374, R446). -/
def doPllLockLoss (p : Pll) (s : State) : State := s.deviceCause 0x36 (pllUnit p).1 (pllUnit p).2
def doFwWatchdog (s : State) : State := s.deviceCause 0x37 6 0
def doEntropyFail (s : State) : State := s.deviceCause 0x35 7 0
def doHbmStackTrainingLoss (stack : Nat) (s : State) : State := s.deviceCause 0x0C 1 (stack % 16)

/-- FUNCTION_RECOVERY_DONE (R450): the functions it stopped stay stopped, ready for RESTART. -/
def doFunctionRecoveryDone (f : Nat) (s : State) : State :=
  if bitAt s.fns.recovering f && decide (f < 8) then
    State.settle { s with fns := { s.fns with
      recovering := maskWithout s.fns.recovering (2 ^ f), recoveries := s.fns.recoveries.erase (stopClosure (2 ^ f)) } }
  else s

/-- The 64 words of the telemetry block from one sample (R477). -/
def telemetryWords (s : State) (x : Sample) : List Nat :=
  let temps := fit 128 ((x.temps.take 64).flatMap fun t => leBytes 2 (unsignedOf 16 t))
  let h := hottestOf ((x.temps.take 64).zipIdx.map fun t => (t.2, t.1))
  let rails := (List.range 8).map fun k => x.vout.getD k 0 % 2 ^ 16 + x.iout.getD k 0 % 2 ^ 32 * 2 ^ 16
  words64 temps ++ [unsignedOf 16 h.2 + h.1 * 2 ^ 16] ++ rails ++ [s.power.inputMw % 2 ^ 32 + s.capInForce % 2 ^ 16 * 2 ^ 32]
  ++ [s.power.state + s.power.pLevel * 8 + s.power.gate * 256] ++ s.tele.trips ++ s.tele.errs ++ [s.deviceStatus % 2 ^ 48]
  ++ List.replicate 29 0

/-- BG_TELEMETRY (R477). -/
def doBgTelemetry (x : Sample) (s : State) : State :=
  if s.awake then { s with tele := { s.tele with block := s.telemetryWords x } } else s

/-- BG_SENSOR_CAL (R454): the sensor is out until the next trip check, its neighbour standing in. -/
def doBgSensorCal (sensor : Nat) (s : State) : State :=
  if s.awake && decide (sensor < 64) then { s with tele := { s.tele with sensorOut := some sensor } } else s

/-- BG_DEFERRAL_EXPIRY (R453, R454): the limit passed is counted, and the slots taken after it. -/
def doBgDeferralExpiry (task slots : Nat) (s : State) : State :=
  if s.awake && decide (task < 9) then (s.count (bgLate task) 1).count (bgSlots task) slots else s

end State
end Sys2Proof.Machine
end

