-- ==== Sys2Proof/Machine/Mgmt.lean ====
section
/-! DEFINITION. The TAP and debug authorisation (R395, R396, R463, R466), and the management bus (R464, R477). -/

namespace Sys2Proof.Machine

/-- IDCODE of the part (R466). -/
def idcode : Part → Nat
  | .a => 0x1C16A7AB
  | .b => 0x1C16B7AB

namespace State

/-- A TAP instruction is loaded; leaving EXTEST takes its drive away. -/
def tapLoad (instr : Nat) (s : State) : State :=
  { s with pins := { s.pins with tapReset := false, tapInstr := instr, extestDrive := none } }

/-- TAP_RESET (R463): Test-Logic-Reset; no EXTEST is in force, and IDCODE is the instruction. -/
def doTapReset (s : State) : State :=
  { s with pins := { s.pins with tapReset := true, tapInstr := 0, extestDrive := none } }

/-- TAP_IDCODE (R395, R466). -/
def doTapIdcode (s : State) : State := (s.tapLoad 0).emit (.tdo 32 (idcode s.fuses.part))

/-- TAP_BYPASS (R466): the one-bit register captures 0. The locked TAP does not offer it (R395). -/
def doTapBypass (s : State) : State := if s.pins.resetLow then (s.tapLoad 1).emit (.tdo 1 0) else s

/-- TAP_SAMPLE_PRELOAD (R466): the sampled balls leave on TDO; what is shifted in preloads the boundary register. -/
def doTapSamplePreload (pins : Nat) (load : Option Nat) (s : State) : State :=
  if s.pins.resetLow then
    let s := s.tapLoad 2
    ({ s with pins := { s.pins with boundary := load.getD s.pins.boundary } } : State).emit (.boundary pins)
  else s

/-- TAP_EXTEST (R463, R466): the boundary register drives the boundary-scan outputs. -/
def doTapExtest (s : State) : State :=
  if s.pins.resetLow then
    let s := s.tapLoad 3
    ({ s with pins := { s.pins with extestDrive := some s.pins.boundary } } : State).emit (.extest s.pins.boundary)
  else s

/-- The scope that an authorisation record grants (R396), or none. -/
def grantedScope (s : State) (r : Bytes) : Option Nat :=
  let scope := uAt r 80 4
  match s.enrolledKey with
  | none => none
  | some k =>
    if r.length == 4807 && r.take 48 == fit 48 ownDigest && slice r 48 32 == s.boot.challenge && (scope == 1 || scope == 2)
        && Config.hybridVerify k (Config.sha384 (r.take 84)) (r.drop 84) then some scope else none

/-- What scope 2 does (R396): functions stop with abort, sessions close with REASON 4, all memory is zeroised. -/
def fullDebug (s : State) : State :=
  let s := (s.abortFunctions 0xFF stCancelled).dropCurrent 0
  let s := s.closeAll 4
  let s := s.zeroHbm.zeroTiles
  { s with boot := { s.boot with debugFull := true, debugPending := false } }

/-- DBG_AUTH (R395, R396): verified, a fresh challenge drawn; a grant extends M3 and is logged. Scope 2 takes effect, by `advance`, once no
durable write is being applied. -/
def doDbgAuth (r : Bytes) (s : State) : State :=
  if !s.awake || decide (8 ≤ s.boot.authFailures) then s else
    let g := s.grantedScope r
    let c := s.random 32
    let s := { c.2 with boot := { c.2.boot with challenge := c.1 } }
    match g with
    | none => { s with boot := { s.boot with authFailures := s.boot.authFailures + 1 } }
    | some scope =>
      let s := (s.extendM3 4 r).logEvent { cause := 0, unit := 7, detail := scope, cls := some 0 }
      if scope == 1 then { s with boot := { s.boot with debugStatus := true } }
      else { s with boot := { s.boot with debugPending := true } }

/-- The management bus answers: out of reset, at the address the straps set (R464). -/
def mgmtAnswers (s : State) (addr : Nat) : Bool := s.awake && addr == s.pins.mgmtAddr

/-- SMBUS_BLOCK_READ (R477): command n returns the 8 bytes at offset 8 × n. -/
def doSmbusBlockRead (addr cmd : Nat) (s : State) : State :=
  if s.mgmtAnswers addr then
    if cmd < 64 then s.emit (.mgmt (leBytes 8 (s.tele.block.getD cmd 0))) else s.emit .mgmtNack
  else s

/-- I3C_PRIVATE_READ (R477): the 512 bytes of the block. -/
def doI3cPrivateRead (addr : Nat) (s : State) : State :=
  if s.mgmtAnswers addr then s.emit (.mgmt ((List.range 64).flatMap fun i => leBytes 8 (s.tele.block.getD i 0))) else s

/-- MGMT_WRITE_NACK (R464, R477). -/
def doMgmtWriteNack (addr : Nat) (s : State) : State := if s.mgmtAnswers addr then s.emit .mgmtNack else s

end State
end Sys2Proof.Machine
end

