-- ==== Sys2Proof/Machine/Writes.lean ====
section
/-! DEFINITION. Durable writes as they arrive from hosts (R343 to R345, R356 to R358, R363, R364, R410): TABLE_WRITE, TABLE_SWITCH,
TABLE_RELEASE, HOT_SET, CORPUS_APPEND, CORPUS_SWITCH, LOAD_MODEL, LOAD_PLAN, LOAD_ADAPTER, LOAD_GRAMMAR and removals. -/

namespace Sys2Proof.Machine

/-- The function that a durable write needs (R410). -/
def writeFn (type : Nat) (p : Bytes) : Nat :=
  if type = 0x20 || type = 0x21 || type = 0x22 then (if bitAt (uAt p (if type = 0x20 then 24 else 12) 4) 9 then fnServe else fnLookup)
  else if type = 0x23 then fnLookup
  else if type = 0x28 || type = 0x29 then fnWheel
  else loadFn type

/-- A load message of a blob: its chunks are not mirrored one by one, but the whole image once, as plaintext (R392). -/
def wrappedLoad (w : Write) : Bool := decide (0x30 ≤ w.type) && lhWrapped (uAt w.payload 0 32) && !(lhRemove (uAt w.payload 0 32))

namespace State

/-- A durable write applied by its type (R357). -/
def applyWrite (w : Write) (s : State) : Applied :=
  match w.type with
  | 0x20 => s.applyTableWrite w
  | 0x21 => s.applyTableSwitch w
  | 0x22 => s.applyTableRelease w
  | 0x23 => s.applyHotSet w
  | 0x28 => s.applyAppend w
  | 0x29 =>
    (match (switchMsg w.payload).op with
    | 1 => s.applySwitchChunk w
    | 2 => s.applySwitchInstall w
    | _ => s.applySwitchMerge w)
  | _ => let r := s.applyLoad w; (r.1, r.2.map fun o => (o, [], w))

/-- A durable write is applied, and answered unless its application goes on. -/
def performWrite (w : Write) (s : State) : State :=
  let r := s.applyWrite w
  match r.2 with
  | some (o, assigned, w') => r.1.answerWrite w' o assigned (!(wrappedLoad w'))
  | none => r.1

/-- A write of this session that must be applied before this message: a lower message is still incomplete, or delivered and not
taken, or waits (R356). -/
def earlierWrite (s : State) (q : Session) (d : Delivered) : Bool :=
  let before := fun (w : Write) => w.session == q.id && serialLt w.msgId d.msgId
  !(serialLt d.msgId q.rxLow)
  || s.delivered.any (fun e => e.session == q.id && durableType e.type && serialLt e.msgId d.msgId)
  || s.twin.waiting.any before || s.twin.forwarded.any before || s.tables.any fun v => v.waiting.any before

/-- The outcome that this twin remembers of a WRITE_ID (R345). -/
def remembered (s : State) (wid : Nat) : Option Outcome := (s.twin.outcomes.find? (·.1 == wid)).map Prod.snd

/-- A durable write of a host (R30, R342 to R345, R410): refused, kept until the write of its WRITE_ID has ended, answered from memory, forwarded, or applied once this twin holds the token
of its object. -/
def takeWrite (w : Write) (s : State) : State :=
  let twin := s.cfg.twin.role != 0
  if w.payload.length < 8 then s.reply w.session w.msgId refMalformed 0
  else if !(s.runs (writeFn w.type w.payload)) then s.reply w.session w.msgId refStopped w.writeId
  else if twin && (s.twin.state == 0 || !(s.runs fnTwin)) then s.reply w.session w.msgId refTwinState w.writeId
  else if s.writePending w.writeId then { s with twin := { s.twin with repeats := s.twin.repeats ++ [w] } }
  else match s.remembered w.writeId with
    | some o => s.reply w.session w.msgId o w.writeId
    | none =>
      if twin && s.twin.state == 1 then
        let s : State := { s with twin := { s.twin with forwarded := s.twin.forwarded ++ [w] } }
        s.sendTwin 3 w.kind w.obj 0 w.writeId w.payload
      else if twin && !(s.holdsToken w.kind w.obj) then
        let asked := s.twin.waiting.any fun x => x.kind == w.kind && x.obj == w.obj
        let s : State := { s with twin := { s.twin with waiting := s.twin.waiting ++ [w] } }
        if asked then s else s.sendTwin 1 w.kind w.obj 0 w.writeId []
      else s.performWrite w

/-- Writes whose WRITE_ID no longer belongs to a write in progress are taken, in the order they came (R30, R345). -/
def drainRepeats (s : State) : State :=
  (s.twin.repeats.filter fun w => !(s.writePending w.writeId)).foldl (fun (s : State) w =>
    ({ s with twin := { s.twin with repeats := s.twin.repeats.erase w } } : State).takeWrite w) s

/-- A durable write of a type that `test` says is this command's; one that an earlier write of its session must precede stays as it was
delivered (R356). -/
def durableWrite (type : Nat) (m : Msg) (test : Bytes → Bool) (s : State) : State :=
  match s.taken? type m, s.session? m.session with
  | some d, some q =>
    if s.earlierWrite q d then s
    else s.onMessage type m false test (fun (q : Session) (d : Delivered) p s =>
      let o := writeObject type p
      s.takeWrite { session := q.id, msgId := d.msgId, type, writeId := uAt p 0 8, kind := o.1, obj := o.2, payload := p })
  | _, _ => s

def doTableWrite (m : Msg) (s : State) : State := s.durableWrite 0x20 m fun _ => true
def doTableSwitch (m : Msg) (s : State) : State := s.durableWrite 0x21 m fun _ => true
def doTableRelease (m : Msg) (s : State) : State := s.durableWrite 0x22 m fun _ => true
def doHotSet (m : Msg) (s : State) : State := s.durableWrite 0x23 m fun _ => true
def doCorpusAppend (m : Msg) (s : State) : State := s.durableWrite 0x28 m fun _ => true
/-- CORPUS_SWITCH by its OP (R364); one with a reserved OP is taken with the merges, and refused. -/
def doCorpusSwitchMerge (m : Msg) (s : State) : State :=
  s.durableWrite 0x29 m fun p => (switchMsg p).op != 1 && (switchMsg p).op != 2
def doCorpusSwitchChunk (m : Msg) (s : State) : State := s.durableWrite 0x29 m fun p => (switchMsg p).op == 1
def doCorpusSwitchInstall (m : Msg) (s : State) : State := s.durableWrite 0x29 m fun p => (switchMsg p).op == 2
/-- Load messages that do not remove (R363). -/
def doLoadModel (m : Msg) (s : State) : State := s.durableWrite 0x30 m fun p => !(lhRemove (uAt p 0 32))
def doLoadPlan (m : Msg) (s : State) : State := s.durableWrite 0x31 m fun p => !(lhRemove (uAt p 0 32))
def doLoadAdapter (m : Msg) (s : State) : State := s.durableWrite 0x32 m fun p => !(lhRemove (uAt p 0 32))
def doLoadGrammar (m : Msg) (s : State) : State := s.durableWrite 0x33 m fun p => !(lhRemove (uAt p 0 32))
/-- A load message with REMOVE (R363, R394). -/
def doLoadRemove (kind : LoadKind) (m : Msg) (s : State) : State := s.durableWrite (loadType kind) m fun p => lhRemove (uAt p 0 32)

end State
end Sys2Proof.Machine
end

