-- ==== Sys2Proof/Machine/TwinSync.lean ====
section
/-! DEFINITION. The redundant pair at work (R342 to R347, R370): order tokens, mirrored writes, and catch-up. -/

namespace Sys2Proof.Machine

/-- What catch-up copies of one object version, beside the memory it takes (R342). -/
inductive SyncObject where
  | plan (p : Plan)
  | model (m : Model)
  | adapter (a : Adapter)
  | grammar (g : Grammar)
  /-- a table version -/
  | table (v : TableVer)
  | store (v : StoreVer)
  /-- a corpus with its versions, side list and loads -/
  | corpus (k : Corpus)
  | hot (v : HotVer)
  /-- a load in progress -/
  | load (l : Load)
  deriving DecidableEq, Repr

/-- One copy: the object, and the memory it takes at the sender as address and bytes. -/
structure SyncCopy where
  object : SyncObject
  parts : List (Nat × Bytes)
  deriving DecidableEq, Repr

/-- The bytes of one object version in SYNC_CHUNK messages (R370 does not give their form). -/
opaque Config.syncEncode : SyncCopy → Bytes
/-- The object version that such bytes are. -/
opaque Config.syncDecode : Bytes → Option SyncCopy

/-- Where memory that was copied stands now: old address, bytes, new address. -/
abbrev Moves := List (Nat × Nat × Nat)

/-- An address of the sender's memory in this twin's. -/
def moveAddr (m : Moves) (a : Nat) : Nat :=
  match m.find? fun r => decide (r.1 ≤ a) && decide (a < r.1 + r.2.1) with
  | some r => r.2.2 + (a - r.1)
  | none => a

def moveObj (m : Moves) (key : Nat) (o : Obj) : Obj := { o with base := moveAddr m o.base, key }
def moveRegions (m : Moves) (rs : List Region) : List Region := rs.map fun r => { r with base := moveAddr m r.base }
def moveVersion (m : Moves) (v : CorpusVer) : CorpusVer :=
  { v with base := moveAddr m v.base, ids := moveAddr m v.ids, fine := moveAddr m v.fine }

/-- The header of a TWIN message (R370). -/
def twinOp (p : Bytes) : Nat := fld (uAt p 0 32) 7 0
def twinKind (p : Bytes) : Nat := fld (uAt p 0 32) 15 8
def twinObj (p : Bytes) : Nat := fld (uAt p 0 32) 31 16
def twinSeq (p : Bytes) : Nat := fld (uAt p 0 32) 95 32
def twinWid (p : Bytes) : Nat := fld (uAt p 0 32) 159 96
/-- A TWIN message with an operation and a whole header, its reserved bits 0 (R10). -/
def twinIs (op : Nat) (p : Bytes) : Bool := decide (32 ≤ p.length) && twinOp p == op && fld (uAt p 0 32) 255 160 == 0

/-- A list without the element at a place's key. -/
def dropKey (k : Nat × Nat) (l : List ((Nat × Nat) × Nat)) : List ((Nat × Nat) × Nat) := l.filter (·.1 != k)

namespace State

/-- A TWIN message of one operation from the partner. -/
def onTwin (op : Nat) (m : Msg) (test : Bytes → Bool) (f : Bytes → State → State) (s : State) : State :=
  s.onMessage 0x78 m false (fun p => twinIs op p && test p) (fun _ _ p s => f p s)

/-- Mirrored writes and copies are taken in the order the partner sent them (R343). -/
def inTurn (s : State) (m : Msg) : Bool :=
  match s.session? m.session with
  | none => false
  | some q => serialLt m.msgId q.rxLow && !(s.delivered.any fun e =>
      let p := e.frags.flatten
      e.session == q.id && e.type == 0x78 && (twinIs 5 p || twinIs 6 p || (twinIs 3 p && twinSeq p != 0)) && serialLt e.msgId m.msgId)

-- Order tokens (R343)

/-- Writes of an object that this twin ordered and that are not yet applied on both. -/
def objectBusy (s : State) (k : Nat × Nat) : Bool :=
  let f := fun (w : Write) => w.kind == k.1 && w.obj == k.2
  s.twin.mirrored.any (fun m => f m.2.1) || s.tableWaits f || s.removals.any fun r => f r.1

/-- The other holder holds an object's token from now on. -/
def moveToken (k : Nat × Nat) (s : State) : State :=
  { s with twin := { s.twin with moved := if s.twin.moved.contains k then s.twin.moved.filter (· != k) else s.twin.moved ++ [k] } }

/-- TOKEN_REQUEST (R343): the token is handed over once the partner has applied every write of the object; `advance` does so. -/
def doTokenRequest (m : Msg) (s : State) : State :=
  s.onTwin 1 m (fun _ => true) (fun p s =>
    let k := (twinKind p, twinObj p)
    if s.twin.state == 2 && s.holdsToken k.1 k.2 && !(s.twin.granting.contains k) then
      { s with twin := { s.twin with granting := s.twin.granting ++ [k] } }
    else s)

/-- Tokens that may be handed over go to the partner, with the last mirror sequence applied of their object (R343, R370). -/
def giveTokens (s : State) : State :=
  (s.twin.granting.filter fun k => !(s.objectBusy k)).foldl (fun (s : State) k =>
    let s := s.moveToken k
    let s : State := { s with twin := { s.twin with granting := s.twin.granting.filter (· != k) } }
    s.sendTwin 2 k.1 k.2 0 0 (leBytes 8 (((s.twin.appliedOf.find? (·.1 == k)).map Prod.snd).getD 0))) s

/-- TOKEN_GRANT (R343): this twin holds the token; its waiting writes are applied, which `advance` does. -/
def doTokenGrant (m : Msg) (s : State) : State :=
  s.onTwin 2 m (fun _ => true) (fun p s =>
    let k := (twinKind p, twinObj p)
    if s.twin.state == 2 && !(s.holdsToken k.1 k.2) then s.moveToken k else s)

/-- Writes whose token this twin holds by now are applied, in the order they came (R343, R346). -/
def drainWaiting (s : State) : State :=
  let ready := s.twin.waiting.filter fun w => s.twin.state != 1 && s.holdsToken w.kind w.obj
  ready.foldl (fun (s : State) w =>
    let s : State := { s with twin := { s.twin with waiting := s.twin.waiting.erase w } }
    match s.remembered w.writeId with
    | some o => if w.fromSyncing then s.sendApplied w o else s.endWrite w o
    | none => s.performWrite w) s

-- Mirrored writes (R342, R343, R370)

/-- A write that the syncing partner forwarded: it is applied here first (R342). -/
def takeForwarded (w : Write) (s : State) : State :=
  if s.twin.state != 2 && s.twin.state != 3 then s.sendApplied w refTwinState
  else match s.remembered w.writeId with
    | some o => s.sendApplied w o
    | none =>
      if !(s.runs (writeFn w.type w.payload)) then s.sendApplied w refStopped
      else if s.holdsToken w.kind w.obj then s.performWrite w
      else
        let asked := s.twin.waiting.any fun x => x.kind == w.kind && x.obj == w.obj
        let s : State := { s with twin := { s.twin with waiting := s.twin.waiting ++ [w] } }
        if asked then s else s.sendTwin 1 w.kind w.obj 0 w.writeId []

/-- MIRROR (R342, R343, R410): the partner's writes are applied in mirror sequence order with the values it gave, whatever functions are
stopped, each after the ones before it; sequence 0 marks a write that the partner forwards. -/
def doMirror (m : Msg) (s : State) : State :=
  let ready := fun (p : Bytes) => twinSeq p == 0
    || (s.inTurn m && twinSeq p == s.twin.mirrorIn + 1 && s.twin.copy.isNone && !(s.tables.any fun v => v.waiting.any (·.brought)))
  s.onTwin 3 m ready (fun p s =>
    let body := p.drop 32
    let w : Write := {
      session := mirrorSession, msgId := twinSeq p, type := Config.mirrorType (twinKind p) body, writeId := twinWid p
      kind := twinKind p, obj := twinObj p, payload := body }
    if twinSeq p = 0 then s.takeForwarded w
    else if s.twin.state != 1 && s.twin.state != 2 then s
    else
      let k := (twinKind p, twinObj p)
      let s : State := { s with twin := { s.twin with
        mirrorIn := twinSeq p, appliedOf := (k, twinSeq p) :: dropKey k s.twin.appliedOf } }
      s.performWrite w)

/-- APPLIED (R342, R344, R370): the partner has applied a write, and its host is answered; a differing outcome makes both twins SPLIT. The
answer to SYNC_DONE ends catch-up. -/
def doApplied (m : Msg) (s : State) : State :=
  s.onTwin 4 m (fun p => p.length == 36) (fun p s =>
    let o := refuse (uAt p 32 2) (uAt p 34 2)
    let q := twinSeq p
    if q = 0 then
      if o.status != 0 || s.twin.state == 2 then (s.remember (twinWid p) o).answerForwarded (twinWid p) o else s.remember (twinWid p) o
    else if s.twin.doneSeq == some q && s.twin.syncing then
      { s with twin := { s.twin with state := 2, moved := [], syncing := false, doneSeq := none } }
    else match s.twin.mirrored.find? (·.1 == q) with
      | none => s
      | some (_, w, own) =>
        if own.status != o.status || own.reason != o.reason then s.enterSplit
        else
          let s : State := { s with twin := { s.twin with
            mirrored := s.twin.mirrored.filter (·.1 != q), appliedOf := ((w.kind, w.obj), q) :: dropKey (w.kind, w.obj) s.twin.appliedOf } }
          if w.session = mirrorSession then s else s.endWrite w own)

-- Catch-up (R342, R370)

/-- The object version that a copy is of, as it stands; none when it is gone. -/
def syncObject (s : State) (kind id version : Nat) : Option SyncObject :=
  match kind with
  | 1 => (s.plan? id).map .plan
  | 2 => (s.model? id).map .model
  | 3 => (s.adapters.find? fun a => a.obj.id == id && a.obj.version == version && a.obj.state == 2).map .adapter
  | 4 => (s.grammar? id).map .grammar
  | 5 => (s.tables.find? fun v => v.table == id && v.version == version && !v.released).map fun v => .table { v with waiting := [] }
  | 6 => (s.stores.find? fun v => v.store == id && v.version == version && !v.released).map .store
  | 7 => (s.corpora.find? (·.id == id)).map fun k => .corpus { k with merge := none, due := k.due || k.merge.isSome, old := [] }
  | 8 => (s.hotSets.find? fun v => v.table == id && v.version == version && v.current).map .hot
  | _ => (s.loads.find? fun l => loadObjKind l.type + 16 == kind && l.id == id).map fun l => .load { l with session := mirrorSession, final := none }

/-- The memory that an object takes, as address and length. -/
def syncRanges (s : State) : SyncObject → List (Nat × Nat)
  | .plan p => [(p.obj.base, p.obj.bytes)]
  | .model p => [(p.obj.base, p.obj.bytes)]
  | .adapter p => [(p.obj.base, p.obj.bytes)]
  | .grammar p => [(p.obj.base, p.obj.bytes)]
  | .table v => (v.base, 4096) :: v.slabs.map Prod.snd
  | .store v => v.passages.map fun p => (p.addr, 4 * p.tokens)
  | .corpus k => ((s.cfg.corpora.find? (·.id == k.id)).map fun c => corpusRanges c k).getD []
  | .hot v => [(v.replica, v.replicaBytes)]
  | .load l => [(l.base, l.total)]

/-- Memory for the parts of a copy, with their bytes in it; none without memory. -/
def placeParts (parts : List (Nat × Bytes)) (s : State) : Option (Moves × State) :=
  parts.foldl (fun (acc : Option (Moves × State)) p => acc.bind fun a =>
    if p.2.isEmpty then some a
    else (a.2.alloc p.2.length 4096).map fun (r : Nat × State) => (a.1 ++ [(p.1, p.2.length, r.1)], r.2.writeMem r.1 p.2)) (some ([], s))

/-- The copied object is held from now on. -/
def holdCopy (o : SyncObject) (m : Moves) (s : State) : State :=
  let k := s.newKey
  match o with
  | .plan p => { k.2 with plans := k.2.plans ++ [{ p with obj := moveObj m k.1 p.obj }] }
  | .model x => { k.2 with models := k.2.models ++ [{ x with obj := moveObj m k.1 x.obj, regions := moveRegions m x.regions }] }
  | .adapter x => { k.2 with adapters := k.2.adapters ++ [{ x with obj := moveObj m k.1 x.obj, regions := moveRegions m x.regions }] }
  | .grammar x => { k.2 with grammars := k.2.grammars ++ [{ x with obj := moveObj m k.1 x.obj }] }
  | .table v =>
    let v := { v with base := moveAddr m v.base, slabs := v.slabs.map fun x => (x.1, moveAddr m x.2.1, x.2.2) }
    let run := s.tableRun v.table
    (({ s with tables := s.tables ++ [v] } : State).writeSlabTable v).setTableRun { run with last := max run.last v.version }
  | .store v =>
    let v := { v with passages := v.passages.map fun p => { p with addr := moveAddr m p.addr } }
    let run := s.storeRun v.store
    ({ s with stores := s.stores ++ [v] } : State).setStoreRun { run with last := max run.last v.version }
  | .corpus c => s.setCorpus { c with
      current := c.current.map (moveVersion m), next := c.next.map fun n => (moveVersion m n.1, n.2)
      side := c.side.map fun e => { e with addr := moveAddr m e.addr, fine := e.fine.map (moveAddr m) }
      loads := c.loads.map fun l => { l with base := moveAddr m l.base } }
  | .hot v =>
    let run := s.tableRun v.table
    ({ s with hotSets := s.hotSets ++ [{ v with replica := moveAddr m v.replica }], hotStale := true } : State).setTableRun
      { run with lastHot := max run.lastHot v.version, half := 1 - v.half }
  | .load l => { s with loads := s.loads ++ [{ l with base := moveAddr m l.base, lastChunk := s.portTicks }] }

/-- A whole copy has arrived (R342): the object is held, unless no memory is left for it. -/
def takeCopy (bytes : Bytes) (s : State) : State :=
  match Config.syncDecode bytes with
  | none => s
  | some c =>
    match s.placeParts c.parts with
    | some (m, s) => (s.holdCopy c.object m).bumpObjects
    | none => s

/-- SYNC_CHUNK (R342, R370): the bytes of one object version are stored in order; after the last the version is held. -/
def doSyncChunk (m : Msg) (s : State) : State :=
  s.onTwin 5 m (fun p => decide (48 ≤ p.length) && s.inTurn m) (fun p s =>
    let off := uAt p 32 8
    let total := uAt p 40 8
    let c : Copying := match s.twin.copy with
      | some c => c
      | none => { kind := twinKind p, obj := twinObj p, total, bytes := [] }
    if s.twin.state != 1 || c.kind != twinKind p || c.obj != twinObj p || c.total != total || c.bytes.length != off then s
    else
      let bytes := c.bytes ++ p.drop 48
      if bytes.length < total then { s with twin := { s.twin with copy := some { c with offset := bytes.length, bytes } } }
      else ({ s with twin := { s.twin with copy := none } } : State).takeCopy bytes)

/-- SYNC_DONE (R342, R370): this twin holds what its partner holds: both are PAIRED; writes it forwarded are answered. -/
def doSyncDone (m : Msg) (s : State) : State :=
  s.onTwin 6 m (fun p => s.inTurn m && s.twin.copy.isNone && !(s.tables.any fun v => v.waiting.any (·.brought))
      && (s.twin.state != 1 || twinSeq p == s.twin.mirrorIn + 1)) (fun p s =>
    if s.twin.state != 1 then s
    else
      let s : State := { s with twin := { s.twin with state := 2, moved := [], mirrorIn := twinSeq p } }
      let s := s.sendTwin 4 (twinKind p) (twinObj p) (twinSeq p) (twinWid p) (leBytes 4 0)
      s.twin.forwarded.foldl (fun (s : State) w =>
        match s.remembered w.writeId with
        | some o => s.answerForwarded w.writeId o
        | none => s) s)

/-- Bytes of an object version in one SYNC_CHUNK at most. -/
def syncStep : Nat := 1048576

/-- One SYNC_CHUNK of the copy on its way goes to the partner. -/
def sendChunk (c : Copying) (s : State) : State :=
  let part := slice c.bytes c.offset syncStep
  let s := s.sendTwin 5 c.kind c.obj 0 0 (leBytes 8 c.offset ++ leBytes 8 c.total ++ part)
  let off := c.offset + part.length
  if c.total ≤ off then { s with twin := { s.twin with copy := none, syncSent := s.twin.syncSent + 1 } }
  else { s with twin := { s.twin with copy := some { c with offset := off } } }

/-- BG_TWIN_SYNC (R342, R454): a background slot sends the next bytes of the copy under way, or starts the next one; when none is left
SYNC_DONE is sent, with the count of the versions sent. -/
def doBgTwinSync (s : State) : State :=
  if !s.twin.syncing || !(s.liveDevice s.cfg.twin.partner) || s.twin.doneSeq.isSome then s
  else match s.twin.copy, s.twin.syncTodo with
    | some c, _ => s.sendChunk c
    | none, t :: rest =>
      let s : State := { s with twin := { s.twin with syncTodo := rest } }
      (match s.syncObject t.1 t.2.1 t.2.2 with
      | none => s
      | some o =>
        let bytes := Config.syncEncode { object := o, parts := (s.syncRanges o).map fun r => (r.1, s.readMem r.1 r.2) }
        s.sendChunk { kind := t.1 % 16, obj := t.2.1, total := bytes.length, bytes })
    | none, [] =>
      let seq := s.twin.mirrorOut
      let s : State := { s with twin := { s.twin with mirrorOut := seq + 1, doneSeq := some seq } }
      s.sendTwin 6 0 0 seq 0 (leBytes 8 s.twin.syncSent)

/-- TWIN_PARTNER_LOST (R346): the partner has been silent for TWIN_MISS × TWIN_HB_US: it is told, and is LOST. -/
def doTwinPartnerLost (s : State) : State :=
  if s.cfg.twin.role = 0 then s
  else match s.entryOfDevice s.cfg.twin.partner with
    | some (i, e) =>
      if e.state != 3 then s
      else
        let s := s.atLeast (max e.lastHeard e.since + s.silenceTicks e.role e.devIndex)
        (if e.session = 0 then s else s.closeSession e.session 3).partnerGone i 4
    | none => s

end State
end Sys2Proof.Machine
end

