-- ==== Sys2Proof/Machine/Complete.lean ====
section
/-! DEFINITION. What the Hopper does with completion records and hand-offs (R105, R106, R116, R117), the stages of a request (R108, R116,
R251, R266), and `advance`: everything that goes on as soon as it can. -/

namespace Sys2Proof.Machine

/-- The flag that each bit of a completion record sets (R106, R372); TRUNCATED means the prompt from PACK alone. -/
def recordFlags (rec' opcode : Nat) : Nat :=
  let f := fun (b flag : Nat) => if bitAt rec' b then 2 ^ flag else 0
  f 16 9 ||| f 17 8 ||| f 18 2 ||| f 19 3 ||| f 20 7 ||| f 21 6 ||| (if bitAt rec' 22 then 2 ^ (if opcode = opPack then 1 else 0) else 0) ||| f 23 4

/-- The state that a ready stage gives its request (R265, R266). -/
def stageState (x : Stage) : Nat :=
  if x.kind = 0 then 2 else if isPassage x then (if bitAt x.object 5 then 3 else 4) else 1

namespace State

-- Stages (R116, R117, R222, R251, R264, R266)

/-- Input handles of a text field's stage go to the queue of its NORMALISE work item; the last has LAST (R222). -/
def sendText (r : Nat) (q : Request) (pl : Plan) (x : StageRun) (s : State) : State :=
  match (stageItems pl x.stage).find? fun t => wOpcode t.2 == opNormalise && (wInQ t.2).isSome with
  | some t =>
    let tile := s.poolTile x.pool (if wPinned t.2 then wPinTile t.2 else 0)
    x.inputs.zipIdx.foldl (fun (s : State) y =>
      s.sendHandle hopperSrc tile ((wInQ t.2).getD 0) { handle := if y.2 + 1 = x.inputs.length then setLast y.1 else y.1, req := r, reqOrder := q.order } 0) s
  | none => s

/-- A ready WHEEL stage starts its merge over peers, if it has one, and takes a slot (R142, R184, R186). -/
def startRider (r : Nat) (q : Request) (x : StageRun) (s : State) : State :=
  match q.collective, x.inputs.head? with
  | some (_, 0, _), some h =>
    (match s.hopperGet r x.stage h with
    | .ok b => (s.startMergeOver r x.stage q b).giveRider r x.stage x.pool q
    | .error s => s)
  | _, _ => s.giveRider r x.stage x.pool q

/-- A stage becomes ready (R116, R266): its inputs are numbered, and its kind says how it runs. -/
def startStage (r : Nat) (x : StageRun) (s : State) : State :=
  match s.req? r with
  | none => s
  | some q =>
    let inputs := match s.planOf q with
      | some pl => if x.stage = q.entry then x.inputs else inputsFor pl q q.hands x.stage
      | none => x.inputs
    let x := { x with inputs, started := true }
    let s := s.setStage r x.stage fun _ => x
    match s.planOf q, s.stageOf q x.stage with
    | some pl, some g =>
      let s := s.setReq r fun q => { q with state := if q.state ≤ 4 then max q.state (stageState g) else q.state }
      if g.kind = 0 then s.startRider r q x
      else if isPassage g then s.resolve r x.stage
      else if g.kind = 4 then s.startPrefill r x
      else (s.sendText r q pl x).dispatch r x.stage
    | _, _ => if q.origin.isSome then (s.setReq r fun q => { q with state := 2 }).startRider r q x else s

/-- Stages on a request's path that take a stage's handles. -/
def succsOn (s : State) (q : Request) (st : Nat) : List StageRun :=
  match s.planOf q with
  | some pl => q.stages.filter fun x => (predsOn pl q x.stage).contains st
  | none => []

/-- Handles that every stage which takes them has completed with are released (R27, R84). -/
def releaseSpent (r : Nat) (s : State) : State :=
  match s.req? r with
  | none => s
  | some q =>
    let spent := fun (h : Hand) => let xs := s.succsOn q h.stage
      h.stage != q.final && !xs.isEmpty && xs.all (·.done)
    let hs := (q.hands.filter spent).map (·.handle)
    if hs.isEmpty then s else (s.setReq r fun q => { q with hands := q.hands.filter fun h => !(spent h) }).releaseBuffers hs

/-- The final stage has completed: its handles' bytes are the result (R110, R361). -/
def finishFinal (r : Nat) (s : State) : State :=
  match s.req? r with
  | none => s
  | some q =>
    let done := (stageRun? q q.final).any (·.done)
    if !done || q.status.isSome || q.origin.isSome then s
    else match s.readHands (handsOf q.hands q.final) with
      | .error h => s.handFault r q.final h
      | .ok bytes => s.endWith r stDone bytes

/-- One stage of a request goes on as far as it can. -/
def goOnStage (r st : Nat) (s : State) : State :=
  match s.req? r with
  | none => s
  | some q =>
    match stageRun? q st with
    | none => s
    | some x =>
      let reps := ((s.stageOf q st).map (·.repeats)).getD false
      let ready := match s.planOf q with
        | some pl => (predsOn pl q st).all fun p => (stageRun? q p).any (·.done)
        | none => true
      let kind := ((s.stageOf q st).map (·.kind)).getD 0
      if q.status.isSome || x.done || reps then s
      else
        let s := if !x.started && ready then s.startStage r x else s
        match s.req? r with
        | none => s
        | some q =>
          match stageRun? q st with
          | none => s
          | some x =>
            if q.status.isSome || !x.started then s
            else if kind = 4 then
              let s := s.goOnPrefill r x 8
              if ((s.req? r).bind fun q => stageRun? q st).any (·.done) then s.freeSlots [r] st x.pool else s
            else if x.dispatched && kind != 0 && !(s.stageBusy r q.order st) then
              (s.setStage r st fun y => { y with done := true }).freeSlots [r] st x.pool
            else s

/-- A request goes on as far as it can: its stages in order, then its decode steps or its end. -/
def goOn (r : Nat) (s : State) : State :=
  match s.req? r with
  | none => s
  | some q =>
    if q.status.isSome then s.freeIfIdle r
    else
      let s := q.stages.foldl (fun (s : State) x => s.goOnStage r x.stage) s
      ((s.releaseSpent r).finishFinal r).enterDecode r

/-- Stages that wait for slots are tried again (R127, R188). -/
def retryBlocked (s : State) : State :=
  (s.pools.flatMap fun p => p.2.blocked).foldl (fun (s : State) b =>
    match s.req? b.1 with
    | none => s
    | some q =>
      if ((s.stageOf q b.2).map (·.repeats)).getD false then
        (match s.stepOf b.1 q.order with
        | some d => s.dispatchStep d b.2
        | none => s)
      else if q.status.isSome then s else s.dispatch b.1 b.2) s

-- What starting functions leaves to be done (R162, R217, R412)

/-- The rows of a hot-set version that tiles hold: each from this device's slabs or from the replica. -/
def loadHot (v : HotVer) (s : State) : State :=
  match s.tableCfg? v.table, s.table? v.table v.forVersion with
  | some t, some tv =>
    (v.rows.take t.hotTileRows).zipIdx.foldl (fun (s : State) p =>
      let row := match v.replicaSlots.findIdx? (· == p.2) with
        | some i => s.readMem (v.replica + i * t.stride) t.stride
        | none => s.rowBytesOf t.stride tv ((tv.map.locate p.1).getD (0, 0)).2
      s.placeHot t v.half v.replica [] p.2 row) s
  | _, _ => s

/-- Images of an earlier TEXT section are freed once no dispatched stage that has not completed reads a tokeniser (R109). -/
def reapText (s : State) : State :=
  let reads := s.reqs.any fun r => r.2.stages.any fun x => (x.dispatched && !x.done)
    && (((s.stageOf r.2 x.stage).map fun g => g.object / 0x100 == 0x10).getD false)
  if s.textOld.isEmpty || reads then s else ({ s with textOld := [] } : State).releaseAll s.textOld

/-- Wheels of running pools that have none stand at their start; hot areas are loaded; merges that wait for a pool start; a successor that waits in a corpus
that no Wheel pool rotates is switched to at once (R164); old versions go when nothing needs them (R109, R164). -/
def setUp (s : State) : State :=
  let missing := s.cfg.pools.zipIdx.filter fun p => p.1.has 0 && s.poolActive p.2 && (s.wheel? p.2).isNone
  let s := if s.works fnWheel then missing.foldl (fun (s : State) p => { s with wheels := s.wheels ++ [s.newWheel p.2 p.1.corpus] }) s else s
  let s := if s.hotStale && s.runs fnLookup && (s.hotPool.map s.poolActive).getD false then
      s.hotSets.foldl (fun (s : State) v => s.loadHot v) { s with hotStale := false } else s
  let s := (s.corpora.filter (·.due)).foldl (fun (s : State) k => s.autoMerge k.id) s
  let s := (s.corpora.filter fun k => k.next.isSome && !(s.rotates k.id)).foldl (fun (s : State) k => s.switchCorpus k.id) s
  ((s.corpora.filter fun k => !k.old.isEmpty).foldl (fun (s : State) k => s.reapOld k.id) s).reapText

/-- Everything goes on as far as it can: owners and peers that are LOST, writes whose token came and tokens asked for, requests in order of entry, decode steps, stages that waited,
and the control message in progress. -/
def advance (s : State) : State :=
  let s := if s.boot.debugPending && !s.writesApplying then s.fullDebug else s
  let s := s.setUp
  let s := ((((s.lostOwners).stepColls).drainWaiting).drainRepeats).giveTokens
  let s := s.reqs.foldl (fun (s : State) r => s.goOn r.1) s
  let s := s.goOnSteps.retryBlocked
  let s := s.reqs.foldl (fun (s : State) r => s.goOn r.1) s
  (s.formSteps).settle

/-- The state after a command whose direct effect on `s` is `t`: everything goes on. The queue is not a command's to change, and only
start-up burns fuses (R388, R389). -/
def after (s t : State) : State := { t.advance with pending := s.pending, fuses := s.fuses }

/-- The state after start-up, which alone burns fuses (R388, R389): as `startFuses` says. -/
def afterStart (r : StartReport) (s t : State) : State := { t.advance with pending := s.pending, fuses := s.startFuses r }

-- Completion records (R86, R99, R105, R106, R119, R125, R272, R286)

/-- Handles, hand-offs or payloads of a work item are still on their way (R105). -/
def runFlying (s : State) (c : Completion) : Bool :=
  s.sluiceFlights.any (fun f => f.src == c.tile && f.run == c.run)
  || s.handoffs.any (fun h => h.run == c.run && !(h.reqOrder != c.reqOrder))
  || s.leats.any fun f => f.src == c.tile && f.run == c.run && f.use == .plain

/-- The requests that a record's fault or failure ends: of a shared work item every request of its step (R284). -/
def recordOwners (s : State) (c : Completion) : List Nat :=
  let r := fld c.record 63 52
  if c.isShared then
    match s.stepOf r c.reqOrder with
    | some d => ((d.batch ++ d.pieces.map fun p => (p.1, p.2.1)).filter fun p => (s.live? p.1 p.2).isSome).map Prod.fst
    | none => []
  else if (s.live? r c.reqOrder).isSome then [r] else []

/-- A record takes effect (R106): flags, signals, the token of SAMPLE, the text of a step, and its ending when it reports one. -/
def takeRecord (c : Completion) (s : State) : State :=
  let r := fld c.record 63 52
  let st := fld c.record 51 43
  let owners := s.recordOwners c
  -- TEXT_REPLACED of a NORMALISE that rejects is not reported (R225)
  let flags := if c.rejected && c.opcode == opNormalise then 0 else recordFlags c.record c.opcode
  let s := if owners.isEmpty && !c.isShared then s
    else (s.setReq r fun q => { q with flags := q.flags ||| flags }).addSignals r c.signals
  if fld c.record 26 24 != 0 then owners.foldl (fun (s : State) o => s.failRequest o (fld c.record 26 24) (some st)) s
  else if c.rejected then
    owners.foldl (fun (s : State) o => if c.opcode = opNormalise then s.endRequest o stTextInvalid
      else (s.setReq o fun q => { q with flags := q.flags ||| 256 }).failRequest o 0 (some st)) s
  else if owners.isEmpty then s
  else
    let texts := match (s.req? r).bind fun q => (s.planOf q).bind fun p => p.stages[st]?.map fun g => (p, g) with
      | some (p, g) => if g.repeats then ((p.items.drop g.wiFirst).take g.wiCount).map wOpcode else []
      | none => []
    if c.opcode = 0x36 && !texts.isEmpty then s.seeToken r
    else if texts.contains c.opcode && (c.opcode = 0x64 || (c.opcode = 0x63 && !(texts.contains 0x64))) then s.decideStep r
    else s

/-- WORK_COMPLETION_RECORD (R106): once everything that the work item sent has been taken up, its record reaches the Hopper. -/
def doWorkCompletionRecord (i : Nat) (s : State) : State :=
  match s.completions[i]? with
  | none => s
  | some c =>
    if s.runFlying c then s
    else
      let r := fld c.record 63 52
      let s : State := { s with completions := s.completions.eraseIdx i }
      let s := s.releaseBuffers c.released
      let s := s.chargeShare c.pool (((s.req? r).map (·.shareClass)).getD 0)
      (s.takeRecord c).freeIfIdle r

-- Hand-offs (R117)

/-- A stage that takes a stage's handles has 256 already; `hs` are the hand-offs collected for the request. -/
def handsFull (s : State) (q : Request) (hs : List Hand) (st : Nat) : Bool :=
  match s.planOf q with
  | some pl => (s.succsOn q st).any fun x => decide (256 ≤ (hs.filter fun h => (predsOn pl q x.stage).contains h.stage).length)
  | none => false

/-- The producer of a handle that no stage can take faults with cause 4 (R117): its record carries it, whether it is on its way or still to
come. -/
def faultProducer (run order : Nat) (s : State) : State :=
  let hit := fun (c : Completion) => c.run == run && c.reqOrder == order && fld c.record 26 24 == 0
  let bad := fun (c : Completion) => if hit c then { c with record := c.record + 4 * 2 ^ 24 } else c
  let late := fun (c : Closing) => c.x.run == run && c.x.item.reqOrder == order && c.done.isNone && c.fault == 0
  let s := (s.completions.filter hit ++ s.tiles.flatMap fun t => (t.2.closing.filterMap (·.done)).filter hit).foldl
    (fun (s : State) c => s.noteFault c.tile (fld c.record 63 52) 4) s
  { s with
    completions := s.completions.map bad
    tiles := s.tiles.map fun t => (t.1, { t.2 with
      closing := t.2.closing.map fun c => if late c then { c with fault := 4 } else { c with done := c.done.map bad } }) }

/-- HOPPER_HANDOFF (R117): a handle reaches the Hopper; those of one work item come in order. Handles of an ended request are discarded
(R87), but a decode step keeps those of its shared work items. -/
def doHopperHandoff (i : Nat) (s : State) : State :=
  match s.handoffs[i]? with
  | none => s
  | some h =>
    if (s.handoffs.take i).any fun g => g.run == h.run && g.reqOrder == h.reqOrder then s
    else
      let s : State := { s with handoffs := s.handoffs.eraseIdx i }
      match s.req? h.req with
      | none => s.releaseBuffer h.hand.handle
      | some q =>
        let shared := match (s.stageOf q h.hand.stage).map (·.repeats), (s.planOf q).bind fun p => p.items[h.hand.template]? with
          | some true, some w => !(perRequest w)
          | _, _ => false
        match (if shared then s.stepOf h.req h.reqOrder else none) with
        | some d =>
          if s.handsFull q (q.hands ++ d.hands) h.hand.stage then (s.releaseBuffer h.hand.handle).faultProducer h.run h.reqOrder
          else s.setStep { d with hands := d.hands ++ [h.hand] }
        | none =>
          if q.order != h.reqOrder || q.status.isSome then s.releaseBuffer h.hand.handle
          else if s.handsFull q q.hands h.hand.stage then (s.releaseBuffer h.hand.handle).faultProducer h.run h.reqOrder
          else
            let s := s.setReq h.req fun q => { q with hands := q.hands ++ [h.hand] }
            if h.opcode = 0x36 then s.seeToken h.req else s

/-- DEADLINE_EXPIRY (R24, R270): a request's budget runs out. -/
def doDeadlineExpiry (r : Nat) (s : State) : State :=
  match s.req? r with
  | some q =>
    match q.deadline, q.status with
    | some d, none => ({ s with meshCount := max s.meshCount d } : State).endRequest r stDeadline
    | _, _ => s
  | none => s

end State
end Sys2Proof.Machine
end

