-- ==== Sys2Proof/Machine/Errors.lean ====
section
/-! DEFINITION. Errors of memories and links found by reads, scrubs and flit checks (R98, R300, R443, R447 to R449, R454). -/

namespace Sys2Proof.Machine

namespace State

/-- A function that an object's kind belongs to (R410): its event stops it. -/
def tableFn : Nat := 4

/-- Where a corpus version's suppression records stand: address and bytes. -/
def suppRange (s : State) (id : Nat) (v : CorpusVer) : Nat × Nat :=
  match s.cfg.corpora.find? (·.id == id) with
  | some c => (suppAt c v, v.fine - suppAt c v)
  | none => (0, 0)

/-- Objects with data or metadata in a line become damaged (R448, R450); a listed slab table is a FUNCTION event of LOOKUP, listed suppression records are one
of WHEEL (R448). -/
def damageObjects (line : Nat) (s : State) : State :=
  let hit := fun (a n : Nat) => meets a n (line * 64) 64
  let obj := fun (o : Obj) => if hit o.base o.bytes then { o with damaged := true } else o
  let region := fun (o : Obj) (rs : List Region) => if rs.any fun r => hit r.base r.held then { o with damaged := true } else o
  let supp := fun (id : Nat) (v : CorpusVer) => let r := s.suppRange id v; hit r.1 r.2
  let ver := fun (v : CorpusVer) => if hit v.base v.bytes then { v with damaged := true } else v
  let metaHit := s.tables.any fun v => hit v.base 4096
  let suppHit := s.corpora.any fun c => (c.current.toList ++ (c.next.map Prod.fst).toList ++ (c.merge.map (·.build)).toList).any (supp c.id)
  let s : State := { s with
    plans := s.plans.map fun p => { p with obj := obj p.obj }
    models := s.models.map fun m => { m with obj := region m.obj m.regions }
    adapters := s.adapters.map fun a => { a with obj := region a.obj a.regions }
    grammars := s.grammars.map fun g => { g with obj := obj g.obj }
    tables := s.tables.map fun v => if hit v.base 4096 || v.slabs.any (fun x => hit x.2.1 x.2.2) then { v with damaged := true } else v
    stores := s.stores.map fun v => if v.passages.any (fun p => hit p.addr (4 * p.tokens)) then { v with damaged := true } else v
    corpora := s.corpora.map fun c => { c with
      current := c.current.map ver, next := c.next.map fun n => (ver n.1, n.2), old := c.old.map ver } }
  let e : Event := { cause := 0x2C, unit := 1, unitIndex := stackOf (line * 64), addr := line * 64 }
  let s := if metaHit then s.functionEvent e tableFn else s
  if suppHit then s.functionEvent e 3 else s

/-- An uncorrectable line enters the bad-line table (R447): when the table is full, or it is the 257th of its stack, the device
fails under cause 0x0C. -/
def listLine (line : Nat) (s : State) : State :=
  let g := stackOf (line * 64)
  let bad := s.errors.badLines
  let full := decide (4096 ≤ bad.length) || decide (256 ≤ (bad.filter fun l => stackOf (l * 64) == g).length)
  let s : State := { s with errors := { s.errors with badLines := if bad.length < 4096 then bad ++ [line] else bad } }
  let s := s.damageObjects line
  if full then s.deviceEvent { cause := 0x0C, unit := 1, unitIndex := g, addr := line * 64 } else s

/-- A tile of a Wheel pool: its function is WHEEL. -/
def wheelTile (s : State) (t : Nat) : Bool := s.wheels.any fun w => w.tiles.any (·.1 == t)

/-- A Wheel tile met an uncorrectable word of its slice: its token carries the fault (R156). -/
def wheelFault (t : Nat) (s : State) : State :=
  { s with wheels := s.wheels.map fun w => { w with tiles := w.tiles.map fun x => if x.1 == t then (x.1, { x.2 with fault := true }) else x } }

/-- HBM_ECC_RETRY (R300, R447): a line found uncorrectable was read again: delivered, or listed and failing its reader. -/
def doHbmEccRetry (line : Nat) (reader : EccReader) (outcome : EccOutcome) (s : State) : State :=
  let e : Event := { cause := 0x09, unit := 1, unitIndex := stackOf (line * 64), addr := line * 64 }
  let (there, req, fn) := match reader with
    | .tile t => (((s.tile t).running.isSome && s.workTile t) || s.wheelTile t, (s.tile t).running.map (fun (x : Running) => x.item.req),
        if s.wheelTile t then fnWheel else fnPools)
    | .request r => ((s.req? r).isSome, some r, fnHopper)
    | .background => (true, none, 0)
  let pool := match reader with
    | .tile t => s.poolOf t
    | _ => none
  if s.errors.badLines.contains line || !there || s.boot.service != 1 then s
  else
    -- the work item that waits for the line charges the wait (R310)
    let s := match pool with
      | some p => s.chargeFree (poolCtr p 0x18)
      | none => s
    match outcome with
    | .failed =>
      let s := (s.containedEvent { e with cause := 0x0A, req } fn).listLine line
      match reader with
      | .tile t =>
        if s.wheelTile t then (s.wheelFault t).containedEvent { cause := 0x21, unit := 9, unitIndex := t, addr := line * 64 } fnWheel
        else (match (s.tile t).running with
          | some x => s.faultItem t x 6
          | none => s)
      | .request r => s.failRequest r 6 none
      | .background => s
    | _ => s.correctedEvent e fn

/-- The HBM scrub's next line. -/
def nextScrub (line : Nat) : Nat := (line + 1) % (hbmBytes / 64)

/-- BG_HBM_SCRUB (R454): the scrub reads its next line: a corrected one is rewritten, an uncorrectable one listed. -/
def doBgHbmScrub (line : Nat) (outcome : EccOutcome) (s : State) : State :=
  if line != s.tele.scrubNext || s.boot.service != 1 || s.boot.offPrep then s
  else
    let s : State := { s with tele := { s.tele with scrubNext := nextScrub line } }
    let e : Event := { cause := 0x08, unit := 1, unitIndex := stackOf (line * 64), addr := line * 64 }
    match outcome with
    | .clean => s
    | .corrected => if s.errors.badLines.contains line then s else s.correctedEvent e 0
    | .failed =>
      if s.errors.badLines.contains line then s.containedEvent { e with cause := 0x0B } 0
      else (s.containedEvent { e with cause := 0x0A } 0).listLine line

/-- A running work item owns a word of its tile: one of its slots spans it. -/
def ownsWord (s : State) (t a : Nat) : Bool :=
  match (s.tile t).running with
  | none => false
  | some x => x.slots.any fun p => (streamOffsets p.2 none).any fun o => match o with
    | some o => decide (dBase p.2 + o < (a : Int) + 8) && decide ((a : Int) < dBase p.2 + o + dUnit p.2)
    | none => false

/-- A word of a tile's memory lies in its cache banks (R63). -/
def inCacheBanks (s : State) (t word : Nat) : Bool := decide (s.tileLimit t ≤ 8 * word) && decide (8 * word < 393216)

/-- The cache line whose data a word of the cache banks holds: line j of the banks belongs to set j ÷ 2 and, in order of use, way j mod 2
(log 140). -/
def lineInBanks (s : State) (t word : Nat) : Option CacheLine :=
  let j := (8 * word - s.tileLimit t) / 128
  let sets := ((s.poolOf t).map s.cacheSets).getD 0
  ((s.tile t).cache.filter fun l => l.addr / 128 % max 1 sets == j / 2)[j % 2]?

/-- A cache line's data has an uncorrectable error (R68): a clean line is refilled from HBM, where a listed line leaves it out; a dirty one is
lost, and the request whose work item wrote it ends FAILED_CONTAINED. -/
def badCacheWord (t word : Nat) (s : State) : State :=
  match s.lineInBanks t word with
  | none => s
  | some l =>
    if l.dirty || (s.badLineIn l.addr 128).isSome then
      let s := s.setTile t fun x => { x with cache := x.cache.filter (·.addr != l.addr) }
      if l.dirty then s.failRequest l.req 6 none else s
    else s.setTile t fun x => { x with cache := x.cache.map fun y => if y.addr == l.addr then { y with data := s.readMem l.addr 128 } else y }

/-- A word of the model context that a tile holds, which is fetched again from its HBM copy (R302). -/
def inContext (s : State) (t word : Nat) : Bool :=
  match (s.tile t).context.bind s.modelKey? with
  | some m => decide ((s.tile t).contextAt ≤ 8 * word) && decide (8 * word + 8 ≤ (s.tile t).contextAt + m.ctxTileBytes) && (s.contextBad m).isNone
  | none => false

/-- BG_TM_SCRUB (R449, R454): the scrub of a tile rewrites a corrected word; an uncorrectable one it rewrites with zeros, unless a
work item owns it; the second time since reset the device fails. A word of a pinned copy is refetched (R302), one of a cache line treated by
R68. -/
def doBgTmScrub (t word : Nat) (outcome : EccOutcome) (s : State) : State :=
  match s.poolOf t with
  | none => s
  | some p =>
    if !(s.poolActive p) then s
    else
      let addr := tileWindow t + 8 * word
      let fn := if ((s.poolCfg? p).map fun c => c.has 0).getD false then fnWheel else fnPools
      let e : Event := { cause := 0x01, unit := 0, unitIndex := t, addr }
      let s := s.chargeFree (tileCtr t 0)
      match outcome with
      | .clean => s
      | .corrected => (s.count (tileCtr t 0x78) 1).correctedEvent e fn
      | .failed =>
        let s := s.containedEvent { e with cause := 0x02 } fn
        if s.errors.tileWords.contains (t, word) then s.deviceEvent { e with cause := 0x03 }
        else if s.inCacheBanks t word then
          ({ s with errors := { s.errors with tileWords := (t, word) :: s.errors.tileWords } } : State).badCacheWord t word
        else if s.inContext t word then
          ({ s with errors := { s.errors with tileWords := (t, word) :: s.errors.tileWords } } : State).chargeFree (poolCtr p 0x18)
        else
          let owned := s.ownsWord t addr
          let s : State := { s with errors := { s.errors with
            tileWords := (t, word) :: s.errors.tileWords, badWords := if owned then (t, word) :: s.errors.badWords else s.errors.badWords } }
          if owned then s else s.clearMem addr 8

/-- MESH_FLIT_CRC_FAIL (R98, R443), in ACTIVE and IDLE, where tiles and mesh run (R423): a flit that fails its check is sent again, a counted retry; when 16 retries of one flit failed
the link is dead. `again` says that the flit was itself a retry. -/
def doMeshFlitCrcFail (t dir : Nat) (again : Bool) (s : State) : State :=
  let mine := fun (f : Nat × Nat × Nat) => f.1 == t && f.2.1 == dir
  let before := (s.errors.flitFails.find? mine).map (·.2.2)
  if !(s.boot.service == 1 && decide (s.power.state ≤ 1)) || (again && before.isNone) then s
  else
    let n := if again then before.getD 0 + 1 else 0
    let s : State := { s with errors := { s.errors with flitFails := (t, dir, n) :: s.errors.flitFails.filter fun f => !(mine f) } }
    if 16 ≤ n then s.deviceEvent { cause := 0x11, unit := 2, unitIndex := t, detail := dir }
    else (s.count (tileCtr t (0x80 + 8 * dir)) 1).correctedEvent { cause := 0x10, unit := 2, unitIndex := t, detail := dir } fnPools

end State
end Sys2Proof.Machine
end

