-- ==== Sys2Proof/Machine/RowsBackground.lean ====
section
/-! DEFINITION. Background tasks (chapters 7, 11, 13, 20): the effect of each command of this group. -/

namespace Sys2Proof.Machine

/-- BG_CORPUS_MERGE (R162). -/
def execBgCorpusMerge (corpus : Nat) (s : State) : Host.Outcome State Fault Refusal := .next (s.after (s.doBgCorpusMerge corpus))

/-- BG_SLAB_COPY (R197). -/
def execBgSlabCopy (table : Nat) (version : Nat) (slab : Nat) (s : State) : Host.Outcome State Fault Refusal := .next (s.after (s.doBgSlabCopy table version slab))

/-- BG_HBM_SCRUB (R454). -/
def execBgHbmScrub (line : Nat) (outcome : EccOutcome) (s : State) : Host.Outcome State Fault Refusal := .next (s.after (s.doBgHbmScrub line outcome))

/-- BG_TM_SCRUB (R449). -/
def execBgTmScrub (t : Nat) (word : Nat) (outcome : EccOutcome) (s : State) : Host.Outcome State Fault Refusal := .next (s.after (s.doBgTmScrub t word outcome))

/-- BG_ZEROISE (R394). -/
def execBgZeroise (s : State) : Host.Outcome State Fault Refusal := .next (s.after (s.doBgZeroise))

/-- BG_TELEMETRY (R477). -/
def execBgTelemetry (x : Sample) (s : State) : Host.Outcome State Fault Refusal := .next (s.after (s.doBgTelemetry x))

/-- BG_SENSOR_CAL (R454). -/
def execBgSensorCal (sensor : Nat) (s : State) : Host.Outcome State Fault Refusal := .next (s.after (s.doBgSensorCal sensor))

/-- BG_DEFERRAL_EXPIRY (R453). -/
def execBgDeferralExpiry (task : Nat) (slots : Nat) (s : State) : Host.Outcome State Fault Refusal := .next (s.after (s.doBgDeferralExpiry task slots))

end Sys2Proof.Machine
end

