-- ==== Sys2Proof/Machine/RowsHopper.lean ====
section
/-! DEFINITION. The Hopper: endings, completions, queues and stealing (chapters 4, 10, 12): the effect of each command of this group. -/

namespace Sys2Proof.Machine

/-- DEADLINE_EXPIRY (R270). -/
def execDeadlineExpiry (req : Nat) (s : State) : Host.Outcome State Fault Refusal := .next (s.after (s.doDeadlineExpiry req))

/-- WORK_COMPLETION_RECORD (R106). -/
def execWorkCompletionRecord (k : Nat) (s : State) : Host.Outcome State Fault Refusal := .next (s.after (s.doWorkCompletionRecord k))

/-- KV_WRITEBACK_DONE (R279). -/
def execKvWritebackDone (req : Nat) (s : State) : Host.Outcome State Fault Refusal := .next (s.after (s.doKvWritebackDone req))

/-- HOPPER_HANDOFF (R117). -/
def execHopperHandoff (k : Nat) (s : State) : Host.Outcome State Fault Refusal := .next (s.after (s.doHopperHandoff k))

/-- TILE_REFILL_REQUEST (R272). -/
def execTileRefillRequest (t : Nat) (s : State) : Host.Outcome State Fault Refusal := .next (s.after (s.doTileRefillRequest t))

/-- STEAL_TAKE (R122). -/
def execStealTake (thief : Nat) (victim : Nat) (s : State) : Host.Outcome State Fault Refusal := .next (s.after (s.doStealTake thief victim))

/-- IDLE_TILE_TIMEOUT (R122). -/
def execIdleTileTimeout (t : Nat) (s : State) : Host.Outcome State Fault Refusal := .next (s.after (s.doIdleTileTimeout t))

/-- HOPPER_WAKE (R122). -/
def execHopperWake (t : Nat) (s : State) : Host.Outcome State Fault Refusal := .next (s.after (s.doHopperWake t))

/-- WORK_ITEM_START (R120). -/
def execWorkItemStart (t : Nat) (s : State) : Host.Outcome State Fault Refusal := .next (s.after (s.doWorkItemStart t))

end Sys2Proof.Machine
end

