-- ==== Sys2Proof/Machine/RowsHost.lean ====
section
/-! DEFINITION. Messages of hosts (chapters 5, 7, 9 to 11, 14 to 17, 20): the effect of each command of this group. -/

namespace Sys2Proof.Machine

/-- SUBMIT (R268). -/
def execSubmit (m : Msg) (s : State) : Host.Outcome State Fault Refusal := .next (s.after (s.doSubmit m))

/-- CANCEL (R271). -/
def execCancel (m : Msg) (s : State) : Host.Outcome State Fault Refusal := .next (s.after (s.doCancel m))

/-- TABLE_WRITE (R197). -/
def execTableWrite (m : Msg) (s : State) : Host.Outcome State Fault Refusal := .next (s.after (s.doTableWrite m))

/-- TABLE_SWITCH (R198). -/
def execTableSwitch (m : Msg) (s : State) : Host.Outcome State Fault Refusal := .next (s.after (s.doTableSwitch m))

/-- TABLE_RELEASE (R200). -/
def execTableRelease (m : Msg) (s : State) : Host.Outcome State Fault Refusal := .next (s.after (s.doTableRelease m))

/-- HOT_SET (R215). -/
def execHotSet (m : Msg) (s : State) : Host.Outcome State Fault Refusal := .next (s.after (s.doHotSet m))

/-- HOT_SET_INSTALL (R216). -/
def execHotSetInstall (table : Nat) (s : State) : Host.Outcome State Fault Refusal := .next (s.after (s.doHotSetInstall table))

/-- CORPUS_APPEND (R158). -/
def execCorpusAppend (m : Msg) (s : State) : Host.Outcome State Fault Refusal := .next (s.after (s.doCorpusAppend m))

/-- CORPUS_SWITCH_MERGE (R161). -/
def execCorpusSwitchMerge (m : Msg) (s : State) : Host.Outcome State Fault Refusal := .next (s.after (s.doCorpusSwitchMerge m))

/-- CORPUS_SWITCH_CHUNK (R166). -/
def execCorpusSwitchChunk (m : Msg) (s : State) : Host.Outcome State Fault Refusal := .next (s.after (s.doCorpusSwitchChunk m))

/-- CORPUS_SWITCH_INSTALL (R166). -/
def execCorpusSwitchInstall (m : Msg) (s : State) : Host.Outcome State Fault Refusal := .next (s.after (s.doCorpusSwitchInstall m))

/-- LOAD_MODEL (R304). -/
def execLoadModel (m : Msg) (s : State) : Host.Outcome State Fault Refusal := .next (s.after (s.doLoadModel m))

/-- LOAD_PLAN (R114). -/
def execLoadPlan (m : Msg) (s : State) : Host.Outcome State Fault Refusal := .next (s.after (s.doLoadPlan m))

/-- LOAD_ADAPTER (R291). -/
def execLoadAdapter (m : Msg) (s : State) : Host.Outcome State Fault Refusal := .next (s.after (s.doLoadAdapter m))

/-- LOAD_GRAMMAR (R241). -/
def execLoadGrammar (m : Msg) (s : State) : Host.Outcome State Fault Refusal := .next (s.after (s.doLoadGrammar m))

/-- LOAD_REMOVE (R394). -/
def execLoadRemove (kind : LoadKind) (m : Msg) (s : State) : Host.Outcome State Fault Refusal := .next (s.after (s.doLoadRemove kind m))

/-- LOAD_ABANDON_TIMEOUT (R363). -/
def execLoadAbandonTimeout (kind : LoadKind) (id : Nat) (s : State) : Host.Outcome State Fault Refusal := .next (s.after (s.doLoadAbandonTimeout kind id))

/-- HANDLE_RETAIN (R366). -/
def execHandleRetain (m : Msg) (s : State) : Host.Outcome State Fault Refusal := .next (s.after (s.doHandleRetain m))

/-- HANDLE_RELEASE (R289). -/
def execHandleRelease (m : Msg) (s : State) : Host.Outcome State Fault Refusal := .next (s.after (s.doHandleRelease m))

/-- INSPECT_READ (R367). -/
def execInspectRead (m : Msg) (s : State) : Host.Outcome State Fault Refusal := .next (s.after (s.doInspectRead m))

/-- INSPECT_WRITE (R475). -/
def execInspectWrite (m : Msg) (s : State) : Host.Outcome State Fault Refusal := .next (s.after (s.doInspectWrite m))

/-- SCRUB_HOURS_WRITE (R475). -/
def execScrubHoursWrite (m : Msg) (s : State) : Host.Outcome State Fault Refusal := .next (s.after (s.doScrubHoursWrite m))

/-- COUNTER_CLEAR (R476). -/
def execCounterClear (m : Msg) (s : State) : Host.Outcome State Fault Refusal := .next (s.after (s.doCounterClear m))

/-- POWER (R425). -/
def execPower (m : Msg) (s : State) : Host.Outcome State Fault Refusal := .next (s.after (s.doPower m))

/-- POWER_TRANSITION_DONE (R426). -/
def execPowerTransitionDone (failedTile : Option Nat) (s : State) : Host.Outcome State Fault Refusal := .next (s.after (s.doPowerTransitionDone failedTile))

/-- PLEVEL_VOLTAGE_REACHED (R429). -/
def execPlevelVoltageReached (s : State) : Host.Outcome State Fault Refusal := .next (s.after (s.doPlevelVoltageReached))

/-- POOL_GATE_DRAIN_TIMEOUT (R430). -/
def execPoolGateDrainTimeout (pool : Nat) (s : State) : Host.Outcome State Fault Refusal := .next (s.after (s.doPoolGateDrainTimeout pool))

/-- POOL_UNGATE_READY (R430). -/
def execPoolUngateReady (pool : Nat) (failedTile : Option Nat) (s : State) : Host.Outcome State Fault Refusal := .next (s.after (s.doPoolUngateReady pool failedTile))

/-- STOP_DRAIN (R411). -/
def execStopDrain (m : Msg) (s : State) : Host.Outcome State Fault Refusal := .next (s.after (s.doStopDrain m))

/-- STOP_ABORT (R411). -/
def execStopAbort (m : Msg) (s : State) : Host.Outcome State Fault Refusal := .next (s.after (s.doStopAbort m))

/-- STOP_DRAIN_TIMEOUT (R411). -/
def execStopDrainTimeout (s : State) : Host.Outcome State Fault Refusal := .next (s.after (s.doStopDrainTimeout))

/-- CONFIG_SECTION (R415). -/
def execConfigSection (m : Msg) (s : State) : Host.Outcome State Fault Refusal := .next (s.after (s.doConfigSection m))

/-- CONFIG_LIVE (R416). -/
def execConfigLive (m : Msg) (s : State) : Host.Outcome State Fault Refusal := .next (s.after (s.doConfigLive m))

/-- RESTART (R417). -/
def execRestart (m : Msg) (s : State) : Host.Outcome State Fault Refusal := .next (s.after (s.doRestart m))

/-- IMAGE_WRITE (R419). -/
def execImageWrite (m : Msg) (s : State) : Host.Outcome State Fault Refusal := .next (s.after (s.doImageWrite m))

end Sys2Proof.Machine
end

