-- ==== Sys2Proof/Machine/TextItems.lean ====
section
/-! DEFINITION. Text on the vector unit (R221 to R244): NORMALISE, TRIE_WALK, LATTICE_STEP, DETOK, STOP_MATCH, MASK_APPLY. -/

namespace Sys2Proof.Machine

-- UTF-8 (R223 to R225)

/-- Some bytes are a proper prefix of a well-formed sequence. -/
def utf8Prefix (p : Bytes) : Bool :=
  !p.isEmpty && [0x80, 0x90, 0xA0].any fun x => decide (p.length < utf8Len (p ++ [x, 0x80, 0x80]))

/-- The length of the maximal ill-formed subpart that starts some bytes (R225). -/
def badLen (bs : Bytes) : Nat := if utf8Prefix (bs.take 3) then min 3 bs.length else if utf8Prefix (bs.take 2) then min 2 bs.length else 1

/-- Bytes as code points, each U+FFFD marked when it replaces an ill-formed subpart; a trailing proper prefix is held back unless the
text ends there (R224, R225). -/
def utf8Scan (ends : Bool) : Nat → Bytes → List (Nat × Bool) × Bytes
  | 0, bs => ([], bs)
  | _ + 1, [] => ([], [])
  | k + 1, b :: r =>
    let bs := b :: r
    let n := utf8Len (bs.take 4)
    if n != 0 then
      let y := utf8Scan ends k (bs.drop n)
      ((utf8Dec (bs.take 4), false) :: y.1, y.2)
    else
      let p := badLen bs
      if !ends && p == bs.length && utf8Prefix bs then ([], bs)
      else
        let y := utf8Scan ends k (bs.drop p)
        ((0xFFFD, true) :: y.1, y.2)

/-- How many ill-formed subparts were replaced. -/
def replacedIn (cs : List (Nat × Bool)) : Nat := (cs.filter (·.2)).length

/-- The replacement that a character map held in memory gives a code point (R226, R227). -/
def charMappedAt (rd : Nat → Nat → Bytes) (c : Nat) : Bytes :=
  let page := leNat (rd (leNat (rd 4 4) + 4 * (c / 256)) 4)
  let e := if page = 0 then 0 else leNat (rd (page + 4 * (c % 256)) 4)
  match fld e 31 30 with
  | 1 => []
  | 2 => rd (leNat (rd 8 4) + fld e 23 0) (fld e 27 24)
  | _ => utf8Enc c

/-- The random reads of that look-up, as (offset, length): the pages' offset, the page, the entry, and the replacement's offset and bytes. -/
def charMapReads (rd : Nat → Nat → Bytes) (c : Nat) : List (Nat × Nat) :=
  let at' := leNat (rd 4 4) + 4 * (c / 256)
  let page := leNat (rd at' 4)
  let e := if page = 0 then 0 else leNat (rd (page + 4 * (c % 256)) 4)
  [(4, 4), (at', 4)] ++ (if page = 0 then [] else [(page + 4 * (c % 256), 4)])
  ++ (if fld e 31 30 = 2 then (8, 4) :: (if fld e 27 24 = 0 then [] else [(leNat (rd 8 4) + fld e 23 0, fld e 27 24)]) else [])

/-- The starts of the characters of a well-formed text. -/
def charStarts : Nat → Nat → Bytes → List Nat
  | 0, _, _ => []
  | _ + 1, _, [] => []
  | k + 1, i, b :: r =>
    let n := max 1 (utf8Len ((b :: r).take 4))
    i :: charStarts k (i + n) ((b :: r).drop n)

-- The trie (R228 to R230)

/-- The walk from a node along some bytes: the nodes entered, and the terminal ones with the piece's length. -/
def walkTrie (node : Nat → Nat) : Nat → Nat → Nat → Bytes → List Nat × List (Nat × Nat)
  | 0, _, _, _ => ([], [])
  | _ + 1, _, _, [] => ([], [])
  | k + 1, at', len, b :: r =>
    if trieHas at' b.toNat then
      let i := trieChild at' b.toNat
      let n := node i
      let y := walkTrie node k n (len + 1) r
      (i :: y.1, if bitAt n 173 then (len + 1, n) :: y.2 else y.2)
    else ([], [])

/-- A node looked up in a tile's trie cache: 256 pinned nodes, then two ways in 384 sets, the most recent first (R229). The second part
counts misses. -/
def touchNode (c : List Nat × Nat) (x : Nat) : List Nat × Nat :=
  if x < 256 then c
  else if c.1.contains x then (x :: c.1.erase x, c.2)
  else
    let set := c.1.filter fun y => y % 384 == x % 384
    (x :: (if set.length < 2 then c.1 else c.1.erase (set.getLast?.getD 0)), c.2 + 1)

/-- The record that closes an edge group (R230). -/
def closeEdge : Nat := 2 ^ 64 - 1

/-- The fallback edge of a character of `n` bytes (R230). -/
def fallbackEdge (k : TokCfg) (n : Nat) : Nat :=
  if k.byteBase = none32 then packed [(0, k.unkId), (26, n - 1), (32, k.unkScore.toNat)]
  else packed [(25, 1), (26, n - 1), (32, (f32Mul (f32OfInt n) k.byteScore).toNat)]

/-- The edge group of one character start, and the trie nodes entered (R230). -/
def edgeGroup (node : Nat → Nat) (k : TokCfg) (starts : List Nat) (text : Bytes) (i : Nat) : List Nat × List Nat :=
  let bs := text.drop i
  let w := walkTrie node k.maxPiece (node 0) 0 bs
  let es := (w.2.filter fun p => i + p.1 == text.length || starts.contains (i + p.1)).map fun p =>
    packed [(0, fld p.2 191 174), (26, p.1 - 1), (32, fld p.2 223 192)]
  ((if es.isEmpty then [fallbackEdge k (max 1 (utf8Len (bs.take 4)))] else es) ++ [closeEdge], w.1)

-- The lattice (R231, R232)

/-- An edge's length, score, and tokens over the bytes it spans. -/
def edgeLen (e : Nat) : Nat := fld e 31 26 + 1
def edgeScore (e : Nat) : W32 := BitVec.ofNat 32 (fld e 63 32)
def edgeTokens (k : TokCfg) (e : Nat) (bs : Bytes) : List Nat :=
  if bitAt e 25 then bs.map fun b => k.byteBase + b.toNat else [fld e 17 0]

/-- Edge groups read off for some character starts, each up to its closing record. -/
def readGroups : List Nat → List Nat → List (Nat × List Nat)
  | [], _ => []
  | i :: r, ws => (i, ws.takeWhile (· != closeEdge)) :: readGroups r ((ws.dropWhile (· != closeEdge)).drop 1)

/-- The best score, its origin and its edge at each byte position, after one character's edges. -/
def latticeStep (best : Array (Option (W32 × Nat × Nat))) (g : Nat × List Nat) : Array (Option (W32 × Nat × Nat)) :=
  match best.getD g.1 none with
  | none => best
  | some (b, _, _) => g.2.foldl (fun acc e =>
      let j := g.1 + edgeLen e
      let sc := f32Add b (edgeScore e)
      match acc.getD j none with
      | some (c, _, _) => if f32Lt c sc then acc.setIfInBounds j (some (sc, g.1, e)) else acc
      | none => acc.setIfInBounds j (some (sc, g.1, e))) best

/-- The tokens of the path that ends at a position, last first steps walked back; none when no path reaches it. -/
def traceBack (k : TokCfg) (text : Bytes) (best : Array (Option (W32 × Nat × Nat))) : Nat → Nat → List Nat → Option (List Nat)
  | _, 0, acc => some acc
  | 0, _, _ => none
  | n + 1, i, acc =>
    match best.getD i none with
    | some (_, p, e) => traceBack k text best n p (edgeTokens k e (slice text p (i - p)) ++ acc)
    | none => none

/-- The segmentation of a text by its edge groups (R231). -/
def segment (k : TokCfg) (text : Bytes) (groups : List (Nat × List Nat)) : Option (List Nat) :=
  let start : Array (Option (W32 × Nat × Nat)) := (Array.replicate (text.length + 1) none).setIfInBounds 0 (some (0, 0, 0))
  traceBack k text (groups.foldl latticeStep start) text.length text.length []

/-- A token list with its header (R232): the tokens kept, how many were dropped. `imm0` and `imm1` are LATTICE_STEP's. -/
def tokenList (k : TokCfg) (imm0 imm1 fieldBytes : Nat) (ts : List Nat) : Bytes × Nat :=
  let limit := if imm0 = 0 then k.lMax else min imm0 k.lMax
  let special := fun (i : Nat) => if i = none32 then [] else [i]
  let room := limit - ((special k.bos).length + (special k.eos).length)
  let dropped := ts.length - room
  let fromTail := if imm1 = 0 then k.truncate == 1 else imm1 == 2
  let kept := if fromTail then ts.drop dropped else ts.take room
  let all := special k.bos ++ kept ++ special k.eos
  (record 32 [(0, 0x4E4B4F54), (32, k.id), (64, all.length), (96, dropped), (128, fieldBytes)] ++ all.flatMap (leBytes 4), dropped)

-- The stop matcher (R238, R239)

/-- The longest prefix of a stop string that ends the text whose longest such prefix was `q` once `b` follows: the prefix-function
rule. -/
def advanceLane (str : Bytes) (q : Nat) (b : Byte) : Nat :=
  let t := str.take q ++ [b]
  (((List.range (q + 2)).reverse).find? fun k => decide (k ≤ str.length) && t.drop (t.length - k) == str.take k).getD 0

/-- The matcher over some bytes: lanes, held tail and emitted bytes before; and whether a string matched. -/
def matchStops (strs : List Bytes) : Bytes → List Nat → Bytes → Bytes → Bool × List Nat × Bytes × Bytes
  | [], qs, tail, out => (false, qs, tail, out)
  | b :: r, qs, tail, out =>
    let qs' := strs.zipIdx.map fun (x, i) => advanceLane x (qs.getD i 0) b
    let t := tail ++ [b]
    let full := ((strs.zip qs').filter fun p => p.2 == p.1.length).map (·.2)
    match full with
    | f :: fs => (true, qs', [], out ++ t.take (t.length - fs.foldl max f))
    | [] =>
      let h := qs'.foldl max 0
      matchStops strs r qs' (t.drop (t.length - h)) (out ++ t.take (t.length - h))

namespace State

-- What a text work item knows of its stage

/-- The tokeniser of a text work item: that of its stage's OBJECT, else the request's (R109, R221). -/
def itemTok (s : State) (i : Item) : Option TokCfg :=
  match s.req? i.req with
  | none => none
  | some q =>
    let obj := (((s.planKey? i.plan).bind fun p => p.stages[i.stage]?).map (·.object)).getD 0xFFFF
    let id := if obj / 0x10 = 0x100 then some (obj % 16) else q.tokeniser
    id.bind fun n => s.cfg.toks.find? (·.id == n)

/-- A work item's stage has REPEAT set. -/
def itemRepeats (s : State) (i : Item) : Bool := (((s.planKey? i.plan).bind fun p => p.stages[i.stage]?).map (·.repeats)).getD false

/-- Random reads of the table that a slot names. -/
def tableRd (s : State) (x : Running) (slot : Nat) : Nat → Nat → Bytes := fun o n => s.readMem (dBase (slotDesc x slot) + o) n

/-- The text field of an item's stage as NORMALISE left it: bytes received, normalised text. -/
def fieldOf (s : State) (i : Item) : Option (Nat × Bytes) :=
  ((s.req? i.req).bind fun q => if q.order == i.reqOrder then q.texts.find? (·.1 == i.stage) else none).map Prod.snd

/-- The request of a running item changed. -/
def setOwner (i : Item) (f : Request → Request) (s : State) : State := s.setReq i.req fun q => if q.order == i.reqOrder then f q else q

/-- The field of a stage is recorded. -/
def setField (i : Item) (received : Nat) (text : Bytes) (s : State) : State :=
  s.setOwner i fun q => { q with texts := (i.stage, received, text) :: q.texts.filter (·.1 != i.stage) }

/-- An opcode's work over some of its slots, read whole; the other slots name tables. -/
def runSlots (t code : Nat) (ns : List Nat) (f : Running → (Nat → Bytes) → State → State) (s : State) : State :=
  match s.running? t code with
  | none => s
  | some x =>
    match readSlots (s.ioFor t x.item) x ns s with
    | (.error c, s) => s.faultItem t x c
    | (.ok bs, s) => f x (fun n => lookupD n bs []) s

/-- A text work item writes its bytes and ends. A handle names at least one byte (R83): with nothing to name, one byte is handed on so
that the next work item of the stage can start. -/
def finishText (t : Nat) (x : Running) (bs : Bytes) (flags aux : Nat) (s : State) : State :=
  let w := x.item.wi
  if bs.isEmpty && (wOutQ w).isSome && !(wOutHopper w) then
    let a := dBase (slotDesc x 8)
    let h := match tileOf a with
      | some (u, off) => tileHandle u off 1 (s.gen u (off / 4096)) (wOutTag w)
      | none => hbmHandle a 1 (wOutTag w)
    (s.sendHandles t x [h] false).endItem t x 0 flags (satTo 16 aux) false [] []
  else s.finishItem t x { writes := [(8, bs)], flags, aux := satTo 16 aux }

-- NORMALISE (R222 to R227)

/-- Random reads of a table, as (offset, length): the first that a tile's stream could not make, by its fault cause (R99, R447). -/
def touchTable (io : Io) (hint base : Nat) : List (Nat × Nat) → State → Option Nat × State
  | [], s => (none, s)
  | (o, n) :: r, s =>
    match s.ioRead io hint (targetOf base) (base + o : Nat) n with
    | (.error f, s) => (some f, s)
    | (.ok _, s) => touchTable io hint base r s

/-- A work item makes random reads of the table that a slot names, and goes on unless one faults. -/
def withTable (t : Nat) (x : Running) (slot : Nat) (reads : List (Nat × Nat)) (f : State → State) (s : State) : State :=
  match touchTable (s.ioFor t x.item) (dHint (slotDesc x slot)) (dBase (slotDesc x slot)) reads.eraseDups s with
  | (some c, s) => s.faultItem t x c
  | (none, s) => f s

/-- A field's bytes are complete, or enough of them are there to end it under REJECT: they are validated, mapped and written (R225 to R227). Its
completion bit is TEXT_REPLACED, bit 21 (R233). -/
def endField (t : Nat) (x : Running) (bs : Bytes) (reject : Bool) (s : State) : State :=
  let chars := (utf8Scan true bs.length bs).1
  let n := replacedIn chars
  if reject && n != 0 then s.endItem t x 0 cbText 0 true [] []
  else s.withTable t x 1 (chars.flatMap fun c => charMapReads (s.tableRd x 1) c.1) fun s =>
    let text := chars.flatMap fun c => charMappedAt (s.tableRd x 1) c.1
    (s.setField x.item bs.length text).finishText t x text (if n = 0 then 0 else cbText) n

/-- The handles of a field as they come (R222): each is read when it is there, and its bytes join those before, so that what is held back of one
joins the next (R224). The field ends with LAST, at the first ill-formed subpart under REJECT (R225), or with its request. `x.round` counts the handles
read. -/
def takeField (t : Nat) : Nat → State → State
  | 0, s => s
  | k + 1, s =>
    match s.running? t opNormalise with
    | none => s
    | some x =>
      let i := x.item
      let mode := wImm i.wi 0
      let reject := mode == 2 || (mode == 0 && ((s.itemTok i).map (·.invalid)).getD 0 == 1)
      match x.handles[x.round]? with
      | none =>
        if (s.live? i.req i.reqOrder).isNone && !i.isShared then s.endField t x x.bytes reject
        else match s.dequeue t i, wInQ i.wi with
          | some (e :: _), some q => takeField t k ((s.takeEntries t q [e]).setRunning t fun y => { y with handles := y.handles ++ [e.handle] })
          | _, _ => s
      | some h =>
        let empty := x.round == 0 && handleLast h && handleTag h == 1 && handleBytes h == 1
        if handlePoison h then s.faultItem t x 7
        else match s.handleFault h with
        | some f => s.faultItem t x f
        | none =>
          if 1048576 < x.bytes.length + (if empty then 0 else handleBytes h) then s.faultItem t x 1
          else match (if empty then (Except.ok [], s) else
              s.ioRead (s.ioFor t i) (dHint (slotDesc x 0)) (targetOf (handleAddr h)) (handleAddr h) (handleBytes h)) with
          | (.error f, s) => s.faultItem t x f
          | (.ok b, s) =>
            let all := x.bytes ++ b
            if handleLast h || (reject && replacedIn (utf8Scan false all.length all).1 != 0) then s.endField t x all reject
            else takeField t k (s.setRunning t fun y => { y with bytes := all, round := y.round + 1 })

/-- NORMALISE (R222 to R227): a field is validated, mapped and written, as far as its handles have come. -/
def doNormalise (t : Nat) (s : State) : State :=
  match s.running? t opNormalise with
  | none => s
  | some x => s.takeField t (2 * ((lookupD ((wInQ x.item.wi).getD 0) (s.tile t).sluice []).length + x.handles.length + 1))

-- TRIE_WALK and LATTICE_STEP (R228 to R232)

/-- TRIE_WALK: the edge groups of the character starts of this member (R230), through the tile's trie cache (R229). It has no
completion bit (R233). -/
def doTrieWalk (t : Nat) (s : State) : State :=
  s.runSlots t 0x61 [0] fun x get s =>
    let i := x.item
    match s.itemTok i with
    | none => s.faultItem t x 1
    | some k =>
      let text := match s.fieldOf i with
        | some f => (get 0).take f.2.length
        | none => get 0
      let s := if (s.fieldOf i).isSome then s else s.setField i text.length text
      let g := max 1 (fld (wImm i.wi 2) 15 0)
      let starts := charStarts text.length 0 text
      let node := fun (n : Nat) => leNat (s.tableRd x 1 (64 * n) 64)
      let gs := (starts.filter fun a => a / 4096 % g == wImm i.wi 3).map (edgeGroup node k starts text)
      let cache := if (s.tile t).trieTok = some k.id then (s.tile t).trieNodes else []
      let c := (gs.flatMap (·.2)).foldl touchNode (cache, 0)
      let s := (s.setTile t fun y => { y with trieTok := some k.id, trieNodes := c.1 }).count (tileCtr t 0x38) c.2
      s.withTable t x 1 ((0, 64) :: (gs.flatMap (·.2)).map fun n => (64 * n, 64)) fun s =>
        s.finishText t x (gs.flatMap fun p => p.1.flatMap (leBytes 8)) 0 0

/-- The members of the walk that fills a stage's lattice. -/
def walkMembers (s : State) (i : Item) : Nat :=
  match (s.planKey? i.plan).bind fun p => p.stages[i.stage]?.map fun st => (p.items.drop st.wiFirst).take st.wiCount with
  | some ws => ((ws.find? fun w => wOpcode w == 0x61).map fun w => max 1 (fld (wImm w 2) 15 0)).getD 1
  | none => 1

/-- LATTICE_STEP: the segmentation and its token list. Slot 0 delivers one area of each walk member, all of one size. Edges that no member
recorded leave the tokens open. Its completion bit is TRUNCATED, bit 22 (R233). -/
def doLatticeStep (t : Nat) (s : State) : State :=
  s.runSlots t 0x62 [0] fun x get s =>
    let i := x.item
    match s.itemTok i with
    | none => s.faultItem t x 1
    | some k =>
      let f := (s.fieldOf i).getD (0, [])
      let text := f.2
      let starts := charStarts text.length 0 text
      let g := s.walkMembers i
      let part := (get 0).length / g
      let groups := (List.range g).flatMap fun m =>
        readGroups (starts.filter fun a => a / 4096 % g == m) (words64 (slice (get 0) (m * part) part))
      let ordered := sortBy (fun (a b : Nat × List Nat) => decide (a.1 ≤ b.1)) groups
      let r : List Nat × State := match segment k text ordered with
        | some ts => (ts, s)
        | none =>
          let n := s.freeBelow (text.length + 1)
          n.2.mapFree (fun (_ : Nat) (s : State) => s.freeBelow k.vocab) (List.range n.1)
      let o := tokenList k (wImm i.wi 0) (wImm i.wi 1) f.1 r.1
      r.2.finishText t x o.1 (if o.2 = 0 then 0 else cbTrunc) o.2

-- DETOK and STOP_MATCH (R235 to R240)

/-- The text state record is written back (R236). -/
def putTextState (i : Item) (y : TextState) (s : State) : State :=
  match (s.live? i.req i.reqOrder).bind (·.textRecord) with
  | some a => s.storeHbm (some i.req) fnHopper a y.encode
  | none => s

/-- DETOK: tokens become whole characters (R236). In a stage with REPEAT what is incomplete stays held in the text state record. Its
completion bit is TEXT_REPLACED, bit 21 (R233). -/
def doDetok (t : Nat) (s : State) : State :=
  s.runSlots t 0x63 [0] fun x get s =>
    let i := x.item
    match s.itemTok i with
    | none => s.faultItem t x 1
    | some k =>
      let ts := words32 (get 0)
      if ts.any (fun n => decide (k.vocab ≤ n)) then s.faultItem t x 2
      else
        let rd := s.tableRd x 1
        s.withTable t x 1 (ts.flatMap fun n =>
          let e := leNat (rd (8 * n) 8)
          (8 * n, 8) :: if bitAt e 40 || fld e 39 32 = 0 then [] else [(8 * k.vocab + fld e 31 0, fld e 39 32)]) fun s =>
        let bytes := ts.flatMap fun n =>
          let e := leNat (rd (8 * n) 8)
          if bitAt e 40 then [] else rd (8 * k.vocab + fld e 31 0) (fld e 39 32)
        let repeats := s.itemRepeats i
        let st := match s.req? i.req with
          | some q => if repeats then s.textState q else {}
          | none => {}
        let all := st.held ++ bytes
        let y := utf8Scan (!repeats) all.length all
        let n := replacedIn y.1
        let out := y.1.flatMap fun c => utf8Enc c.1
        let s := if repeats then (s.putTextState i { st with held := y.2 }).setOwner i fun q => { q with emitted := some out.length } else s
        s.finishText t x out (if n = 0 then 0 else cbText) n

/-- STOP_MATCH: the characters that DETOK passed on go through the request's stop strings (R238, R239). It has no completion bit (R233). -/
def doStopMatch (t : Nat) (s : State) : State :=
  s.runSlots t 0x64 [0] fun x get s =>
    let i := x.item
    let q := s.req? i.req
    let bs := match q.bind (·.emitted) with
      | some n => (get 0).take n
      | none => get 0
    let st := (q.map s.textState).getD {}
    let r := matchStops ((q.map (·.stops)).getD []) bs st.q st.tail []
    let s := s.putTextState i (if r.1 then { matched := true, q := r.2.1 } else { st with q := r.2.1, tail := r.2.2.1 })
    (s.setOwner i fun q => { q with emitted := none }).finishText t x r.2.2.2 0 0

-- MASK_APPLY (R244)

/-- One masked logit. -/
def maskLogit (allowed : Bool) (x : W32) : W32 :=
  if !allowed then 0xFF800000#32 else if x == 0xFF800000#32 then 0xFF7FFFFF#32 else x

/-- MASK_APPLY: the slice's logits under the mask of the request's grammar state. It has no completion bit (R233). -/
def doMaskApply (t : Nat) (s : State) : State :=
  s.runSlots t 0x65 [0] fun x get s =>
    let i := x.item
    let logits := (words32 (get 0)).map (BitVec.ofNat 32)
    let out := match ((s.req? i.req).bind (·.grammar)).bind fun g => s.grammarKey? g.2 with
      | none => logits
      | some g =>
        let rd := fun (o n : Nat) => s.readMem (g.obj.base + o) n
        let e := leNat (rd (g.offStates + 16 * wImm i.wi 1) 16)
        let mask := (stateMask g.vocab g.offMasks rd e).getD 0
        logits.zipIdx.map fun (v, j) => maskLogit (bitAt mask (wImm i.wi 2 + j)) v
    s.finishItem t x { writes := [(8, out.flatMap fun v => leBytes 4 v.toNat)] }

end State
end Sys2Proof.Machine
end

