-- ==== Sys2Proof/Machine/PackItem.lean ====
section
/-! DEFINITION. The packer (R259 to R262): templates, the choice of passages, and the prompt. -/

namespace Sys2Proof.Machine

-- Templates (R259)

def tsKind (n : Nat) : Nat := fld n 2 0
def tsQtrunc (n : Nat) : Nat := fld n 9 8
def tsMinTrim (n : Nat) : Nat := fld n 63 48
def tsRun1 (n : Nat) : Nat × Nat := (fld n 79 64, fld n 95 80)
def tsRun2 (n : Nat) : Nat × Nat := (fld n 111 96, fld n 127 112)

/-- A template as read: its slots and its pool of tokens. -/
structure PackTemplate where
  slots : List Nat
  pool : List Nat
  deriving DecidableEq, Repr

/-- A template; none under R259. -/
def readTemplate (bs : Bytes) : Option PackTemplate :=
  let h := uAt bs 0 32
  let n := fld h 39 32
  let pool := fld h 95 64
  let slots := (List.range n).map fun i => uAt bs (32 + 16 * i) 16
  let runOk := fun (r : Nat × Nat) => decide (r.1 + r.2 ≤ pool)
  let slotOk := fun (x : Nat) => fld x 47 10 == 0 && fld x 7 3 == 0 && decide (tsKind x ≤ 2)
    && (match tsKind x with
      | 0 => runOk (tsRun1 x)
      | 1 => tsQtrunc x != 3
      | _ => runOk (tsRun1 x) && runOk (tsRun2 x) && inRange 1 8192 (tsMinTrim x))
  if fld h 31 0 == 0x4C504D54 && fld h 63 40 == 0 && fld h 255 96 == 0 && inRange 1 64 n && decide (pool ≤ 65536)
      && decide (32 + 16 * n + 4 * pool ≤ bs.length) && slots.all slotOk
      && decide ((slots.filter (tsKind · == 1)).length ≤ 1) && decide ((slots.filter (tsKind · == 2)).length ≤ 1)
  then some { slots, pool := words32 (slice bs (32 + 16 * n) (4 * pool)) } else none

def PackTemplate.run (p : PackTemplate) (r : Nat × Nat) : List Nat := (p.pool.drop r.1).take r.2
def PackTemplate.kind? (p : PackTemplate) (k : Nat) : Option Nat := p.slots.find? (tsKind · == k)

-- Choosing passages (R261)

/-- A passage list entry (R251): id, token address, tokens. -/
structure PassageEntry where
  id : Nat
  addr : Nat
  tokens : Nat
  deriving DecidableEq, Repr

def readPassage (bs : Bytes) : PassageEntry :=
  let n := leNat bs
  { id := fld n 191 128, addr := fld n 47 0, tokens := fld n 77 64 }

/-- What the choice has found: room left, ids seen, passages placed with their kept tokens, duplicates, skipped, tokens cut. -/
structure PackChoice where
  room : Nat
  seen : List Nat := []
  placed : List (PassageEntry × Nat) := []
  duplicates : Nat := 0
  skipped : Nat := 0
  cut : Nat := 0
  deriving DecidableEq, Repr

/-- The choice of R261. `pre`, `sep` are run lengths, `least` MIN_TRIM. -/
def choose (trim : Bool) (pre sep least : Nat) : List PassageEntry → PackChoice → PackChoice
  | [], c => c
  | e :: r, c =>
    if c.seen.contains e.id then choose trim pre sep least r { c with duplicates := c.duplicates + 1 }
    else
      let c := { c with seen := e.id :: c.seen }
      let lead := pre + (if c.placed.isEmpty then 0 else sep)
      if lead + e.tokens ≤ c.room then
        choose trim pre sep least r { c with room := c.room - (lead + e.tokens), placed := c.placed ++ [(e, e.tokens)] }
      else if trim && decide (lead + least ≤ c.room) then
        let keep := c.room - lead
        { c with room := 0, placed := c.placed ++ [(e, keep)], cut := e.tokens - keep }
      else choose trim pre sep least r { c with skipped := c.skipped + 1 }

namespace State

/-- The tokens of the passages placed, or the fault of a read. -/
def readPlaced (io : Io) : List (PassageEntry × Nat) → State → Except Nat (List (PassageEntry × List Nat)) × State
  | [], s => (.ok [], s)
  | (e, n) :: r, s =>
    match s.ioRead io 0 (targetOf e.addr) e.addr (4 * n) with
    | (.error f, s) => (.error f, s)
    | (.ok b, s) =>
      match readPlaced io r s with
      | (.ok bs, s) => (.ok ((e, words32 b) :: bs), s)
      | x => x

/-- The tokens of the PASSAGES slot from prompt index `at'` on, with each passage's start. -/
def layPassages (pre sep : List Nat) : Nat → Bool → List (PassageEntry × List Nat) → List Nat × List (PassageEntry × Nat × Nat)
  | _, _, [] => ([], [])
  | at', first, (e, ts) :: r =>
    let lead := (if first then [] else sep) ++ pre
    let start := at' + lead.length
    let y := layPassages pre sep (start + ts.length) false r
    (lead ++ ts ++ y.1, (e, start, ts.length) :: y.2)

/-- All slots placed in order. -/
def layPrompt (p : PackTemplate) (query : List Nat) (ps : List (PassageEntry × List Nat)) :
    List Nat → List Nat × List (PassageEntry × Nat × Nat) → List Nat × List (PassageEntry × Nat × Nat)
  | [], acc => acc
  | x :: r, acc =>
    match tsKind x with
    | 0 => layPrompt p query ps r (acc.1 ++ p.run (tsRun1 x), acc.2)
    | 1 => layPrompt p query ps r (acc.1 ++ query, acc.2)
    | _ =>
      let y := layPassages (p.run (tsRun1 x)) (p.run (tsRun2 x)) acc.1.length true ps
      layPrompt p query ps r (acc.1 ++ y.1, acc.2 ++ y.2)

/-- The prompt with its header and placement table (R262). `list` is the passage list's header. -/
def promptBytes (budget list queryCut : Nat) (c : PackChoice) (ts : List Nat) (pl : List (PassageEntry × Nat × Nat)) : Bytes :=
  let off := alignUp (64 + 4 * ts.length) 128
  let head := record 64 [(0, 0x504D5250), (32, fld list 35 32), (160, ts.length), (192, off), (224, budget), (272, pl.length),
    (288, satTo 16 c.skipped), (304, satTo 16 c.duplicates), (320, c.cut), (352, queryCut), (384, fld list 191 160), (416, fld list 159 128)]
  fit off (head ++ ts.flatMap (leBytes 4)) ++ pl.flatMap fun e =>
    record 16 [(0, e.2.2), (31, b01 (decide (e.2.2 < e.1.tokens))), (32, e.2.1), (64, e.1.id)]

/-- PACK (R259 to R262). -/
def doPack (t : Nat) (s : State) : State :=
  s.runOp t opPack fun x get s =>
    let w := x.item.wi
    match readTemplate (get 0) with
    | none => s.faultItem t x 1
    | some p =>
      let list := uAt (get 1) 0 32
      let entries := (chunks 32 (slice (get 1) 32 (32 * fld list 127 96))).map readPassage
      let query := words32 (slice (get 2) 32 (4 * uAt (get 2) 8 4))
      let budget := wImm w 0
      let fixed := ((p.slots.filter (tsKind · == 0)).map fun y => (tsRun1 y).2).sum + query.length
      let excess := fixed - budget
      let side := ((p.kind? 1).map tsQtrunc).getD 0
      if excess != 0 && (side == 0 || decide (query.length ≤ excess)) then s.faultItem t x 1
      else
        let query := if side = 2 then query.drop excess else query.take (query.length - excess)
        let c : PackChoice := match p.kind? 2 with
          | some y => choose (wImm w 1 == 1) (tsRun1 y).2 (tsRun2 y).2 (tsMinTrim y) entries { room := budget - fixed }
          | none => { room := budget - fixed }
        match readPlaced (s.ioFor t x.item) c.placed s with
        | (.error f, s) => s.faultItem t x f
        | (.ok ps, s) =>
          let y := layPrompt p query ps p.slots ([], [])
          let trimmed := b01 (c.cut != 0)
          s.finishItem t x {
            writes := [(8, promptBytes budget list excess c y.1 y.2)]
            flags := (if excess != 0 || c.skipped + trimmed != 0 then cbTrunc else 0) + (if c.duplicates = 0 then 0 else cbDup)
            aux := satTo 16 (c.skipped + trimmed) }

end State
end Sys2Proof.Machine
end

