-- ==== Sys2Proof/Machine/RowsItem.lean ====
section
/-! DEFINITION. Work items, opcode by opcode (chapters 2 to 10): the effect of each command of this group. -/

namespace Sys2Proof.Machine

/-- NOP (R128). -/
def execNop (t : Nat) (s : State) : Host.Outcome State Fault Refusal := .next (s.after (s.doNop t))

/-- BARRIER (R126). -/
def execBarrier (t : Nat) (s : State) : Host.Outcome State Fault Refusal := .next (s.after (s.doBarrier t))

/-- BARRIER_COMBINE (R126). -/
def execBarrierCombine (pool : Nat) (slot : Nat) (s : State) : Host.Outcome State Fault Refusal := .next (s.after (s.doBarrierCombine pool slot))

/-- BARRIER_RELEASE_ARRIVAL (R126). -/
def execBarrierReleaseArrival (t : Nat) (s : State) : Host.Outcome State Fault Refusal := .next (s.after (s.doBarrierReleaseArrival t))

/-- SIGNAL (R128). -/
def execSignal (t : Nat) (s : State) : Host.Outcome State Fault Refusal := .next (s.after (s.doSignal t))

/-- YIELD (R128). -/
def execYieldItem (t : Nat) (s : State) : Host.Outcome State Fault Refusal := .next (s.after (s.doYieldItem t))

/-- GEMM (R34). -/
def execGemm (t : Nat) (s : State) : Host.Outcome State Fault Refusal := .next (s.after (s.doGemm t))

/-- CONV (R56). -/
def execConv (t : Nat) (s : State) : Host.Outcome State Fault Refusal := .next (s.after (s.doConv t))

/-- DIST (R147). -/
def execDist (t : Nat) (s : State) : Host.Outcome State Fault Refusal := .next (s.after (s.doDist t))

/-- EW_UNARY (R54). -/
def execEwUnary (t : Nat) (s : State) : Host.Outcome State Fault Refusal := .next (s.after (s.doEwUnary t))

/-- EW_BINARY (R53). -/
def execEwBinary (t : Nat) (s : State) : Host.Outcome State Fault Refusal := .next (s.after (s.doEwBinary t))

/-- EW_FMA (R53). -/
def execEwFma (t : Nat) (s : State) : Host.Outcome State Fault Refusal := .next (s.after (s.doEwFma t))

/-- REDUCE (R54). -/
def execReduce (t : Nat) (s : State) : Host.Outcome State Fault Refusal := .next (s.after (s.doReduce t))

/-- NORM (R54). -/
def execNorm (t : Nat) (s : State) : Host.Outcome State Fault Refusal := .next (s.after (s.doNorm t))

/-- SOFTMAX (R54). -/
def execSoftmax (t : Nat) (s : State) : Host.Outcome State Fault Refusal := .next (s.after (s.doSoftmax t))

/-- POOL2D (R103). -/
def execPool2d (t : Nat) (s : State) : Host.Outcome State Fault Refusal := .next (s.after (s.doPool2d t))

/-- DWCONV (R58). -/
def execDwconv (t : Nat) (s : State) : Host.Outcome State Fault Refusal := .next (s.after (s.doDwconv t))

/-- CONVERT (R46). -/
def execConvert (t : Nat) (s : State) : Host.Outcome State Fault Refusal := .next (s.after (s.doConvert t))

/-- TOPK (R175). -/
def execTopk (t : Nat) (s : State) : Host.Outcome State Fault Refusal := .next (s.after (s.doTopk t))

/-- SELECT_ROUND_COMBINE (R189). -/
def execSelectRoundCombine (pool : Nat) (slot : Nat) (s : State) : Host.Outcome State Fault Refusal := .next (s.after (s.doSelectRoundCombine pool slot))

/-- SELECT_DECISION_ARRIVAL (R189). -/
def execSelectDecisionArrival (t : Nat) (s : State) : Host.Outcome State Fault Refusal := .next (s.after (s.doSelectDecisionArrival t))

/-- KTH (R176). -/
def execKth (t : Nat) (s : State) : Host.Outcome State Fault Refusal := .next (s.after (s.doKth t))

/-- ARGMAX (R177). -/
def execArgmax (t : Nat) (s : State) : Host.Outcome State Fault Refusal := .next (s.after (s.doArgmax t))

/-- SORT (R178). -/
def execSort (t : Nat) (s : State) : Host.Outcome State Fault Refusal := .next (s.after (s.doSort t))

/-- HIST (R179). -/
def execHist (t : Nat) (s : State) : Host.Outcome State Fault Refusal := .next (s.after (s.doHist t))

/-- MERGE (R180). -/
def execMerge (t : Nat) (s : State) : Host.Outcome State Fault Refusal := .next (s.after (s.doMerge t))

/-- SAMPLE (R286). -/
def execSample (t : Nat) (s : State) : Host.Outcome State Fault Refusal := .next (s.after (s.doSample t))

/-- COPY (R73). -/
def execCopy (t : Nat) (s : State) : Host.Outcome State Fault Refusal := .next (s.after (s.doCopy t))

/-- GATHER (R79). -/
def execGather (t : Nat) (s : State) : Host.Outcome State Fault Refusal := .next (s.after (s.doGather t))

/-- SCATTER (R104). -/
def execScatter (t : Nat) (s : State) : Host.Outcome State Fault Refusal := .next (s.after (s.doScatter t))

/-- TRANSPOSE (R69). -/
def execTranspose (t : Nat) (s : State) : Host.Outcome State Fault Refusal := .next (s.after (s.doTranspose t))

/-- DECOMPRESS (R309). -/
def execDecompress (t : Nat) (s : State) : Host.Outcome State Fault Refusal := .next (s.after (s.doDecompress t))

/-- LEAT_SEND (R88). -/
def execLeatSend (t : Nat) (s : State) : Host.Outcome State Fault Refusal := .next (s.after (s.doLeatSend t))

/-- COALESCE (R204). -/
def execCoalesce (t : Nat) (s : State) : Host.Outcome State Fault Refusal := .next (s.after (s.doCoalesce t))

/-- POOL_SUM (R212). -/
def execPoolSum (t : Nat) (s : State) : Host.Outcome State Fault Refusal := .next (s.after (s.doPoolSum t))

/-- POOL_MEAN (R212). -/
def execPoolMean (t : Nat) (s : State) : Host.Outcome State Fault Refusal := .next (s.after (s.doPoolMean t))

/-- POOL_WSUM (R212). -/
def execPoolWsum (t : Nat) (s : State) : Host.Outcome State Fault Refusal := .next (s.after (s.doPoolWsum t))

/-- NORMALISE (R225). -/
def execNormalise (t : Nat) (s : State) : Host.Outcome State Fault Refusal := .next (s.after (s.doNormalise t))

/-- TRIE_WALK (R230). -/
def execTrieWalk (t : Nat) (s : State) : Host.Outcome State Fault Refusal := .next (s.after (s.doTrieWalk t))

/-- LATTICE_STEP (R231). -/
def execLatticeStep (t : Nat) (s : State) : Host.Outcome State Fault Refusal := .next (s.after (s.doLatticeStep t))

/-- DETOK (R236). -/
def execDetok (t : Nat) (s : State) : Host.Outcome State Fault Refusal := .next (s.after (s.doDetok t))

/-- STOP_MATCH (R238). -/
def execStopMatch (t : Nat) (s : State) : Host.Outcome State Fault Refusal := .next (s.after (s.doStopMatch t))

/-- MASK_APPLY (R244). -/
def execMaskApply (t : Nat) (s : State) : Host.Outcome State Fault Refusal := .next (s.after (s.doMaskApply t))

/-- PACK (R261). -/
def execPack (t : Nat) (s : State) : Host.Outcome State Fault Refusal := .next (s.after (s.doPack t))

end Sys2Proof.Machine
end

