-- ==== Sys2Proof/Machine/RowsLink.lean ====
section
/-! DEFINITION. Reset, the link and frames outside MWP (chapters 13 and 16): the effect of each command of this group. -/

namespace Sys2Proof.Machine

/-- RESET_N_ASSERT (R461). -/
def execResetNAssert (s : State) : Host.Outcome State Fault Refusal := .next (s.after (s.doResetNAssert))

/-- RESET_N_RELEASE (R398). -/
def execResetNRelease (r : StartReport) (s : State) : Host.Outcome State Fault Refusal := .next (s.afterStart r (s.doResetNRelease r))

/-- SUPPLY_REMOVAL (R427). -/
def execSupplyRemoval (s : State) : Host.Outcome State Fault Refusal := .next (s.after (s.doSupplyRemoval))

/-- LINK_UP (R398). -/
def execLinkUp (sub : Nat) (s : State) : Host.Outcome State Fault Refusal := .next (s.after (s.doLinkUp sub))

/-- PORT_LINK_DOWN (R446). -/
def execPortLinkDown (sub : Nat) (s : State) : Host.Outcome State Fault Refusal := .next (s.after (s.doPortLinkDown sub))

/-- ETH_FRAME_RX (R324). -/
def execEthFrameRx (f : Frame) (s : State) : Host.Outcome State Fault Refusal := .next (s.after (s.doEthFrameRx f))

/-- PFC_FRAME_RX (R326). -/
def execPfcFrameRx (sub : Nat) (enable : Nat) (quanta : Nat) (s : State) : Host.Outcome State Fault Refusal := .next (s.after (s.doPfcFrameRx sub enable quanta))

/-- LLDP_FRAME_RX (R333). -/
def execLldpFrameRx (sub : Nat) (chassis : Bytes) (portId : Bytes) (s : State) : Host.Outcome State Fault Refusal := .next (s.after (s.doLldpFrameRx sub chassis portId))

/-- NEIGHBOR_RESOLUTION_RX (R327). -/
def execNeighborResolutionRx (n : Neighbor) (s : State) : Host.Outcome State Fault Refusal := .next (s.after (s.doNeighborResolutionRx n))

/-- ECHO_REQUEST_RX (R328). -/
def execEchoRequestRx (sub : Nat) (src : Endpoint) (v6 : Bool) (data : Bytes) (s : State) : Host.Outcome State Fault Refusal := .next (s.after (s.doEchoRequestRx sub src v6 data))

/-- LLDP_TIMER (R333). -/
def execLldpTimer (sub : Nat) (s : State) : Host.Outcome State Fault Refusal := .next (s.after (s.doLldpTimer sub))

/-- HELLO_TIMER (R332). -/
def execHelloTimer (sub : Nat) (s : State) : Host.Outcome State Fault Refusal := .next (s.after (s.doHelloTimer sub))

end Sys2Proof.Machine
end

