-- ==== Sys2Proof/Machine/RowsMesh.lean ====
section
/-! DEFINITION. The Sluice, rings, the Leat, the mesh and HBM (chapters 3 and 11): the effect of each command of this group. -/

namespace Sys2Proof.Machine

/-- SLUICE_HANDLE_ARRIVAL (R85). -/
def execSluiceHandleArrival (k : Nat) (s : State) : Host.Outcome State Fault Refusal := .next (s.after (s.doSluiceHandleArrival k))

/-- RING_FILL_LANDED (R81). -/
def execRingFillLanded (t : Nat) (ring : Nat) (s : State) : Host.Outcome State Fault Refusal := .next (s.after (s.doRingFillLanded t ring))

/-- RING_SLOT_RELEASE (R81). -/
def execRingSlotRelease (t : Nat) (ring : Nat) (s : State) : Host.Outcome State Fault Refusal := .next (s.after (s.doRingSlotRelease t ring))

/-- RING_CREDIT_ARRIVAL (R81). -/
def execRingCreditArrival (k : Nat) (s : State) : Host.Outcome State Fault Refusal := .next (s.after (s.doRingCreditArrival k))

/-- LEAT_PAYLOAD_LAND (R89). -/
def execLeatPayloadLand (k : Nat) (t : Nat) (s : State) : Host.Outcome State Fault Refusal := .next (s.after (s.doLeatPayloadLand k t))

/-- REMOTE_READ (R95). -/
def execRemoteRead (k : Nat) (s : State) : Host.Outcome State Fault Refusal := .next (s.after (s.doRemoteRead k))

/-- MESH_FLIT_CRC_FAIL (R98). -/
def execMeshFlitCrcFail (t : Nat) (dir : Nat) (again : Bool) (s : State) : Host.Outcome State Fault Refusal := .next (s.after (s.doMeshFlitCrcFail t dir again))

/-- HBM_ECC_RETRY (R300). -/
def execHbmEccRetry (line : Nat) (reader : EccReader) (outcome : EccOutcome) (s : State) : Host.Outcome State Fault Refusal := .next (s.after (s.doHbmEccRetry line reader outcome))

end Sys2Proof.Machine
end

