-- ==== Sys2Proof/Machine/Peers.lean ====
section
/-! DEFINITION. The peer table's life (R332 to R337, R351): hellos, heartbeats, silence, farewells and announcements (R368). -/

namespace Sys2Proof.Machine

namespace State

/-- The lowest entry that no listed device reserves and no host holds (R333). -/
def freeHostEntry (s : State) : Option Nat :=
  (List.range 256).find? fun i => !(s.cfg.peers.devices.any (·.index == i)) && !(s.peers.any (·.1 == i))

/-- A host's hello (R333, R335): it takes the lowest free entry; a host without one is counted. -/
def hostHello (src : Endpoint) (mac : Nat) (s : State) : State :=
  match s.peers.find? fun p => p.2.role == 0 && p.2.host == some src with
  | some (i, e) =>
    if e.state == 4 || e.state == 5 then s.setEntry i fun e => { e with state := 2, since := s.portTicks, mac } else s
  | none =>
    match s.freeHostEntry with
    | none => s.count (mwpCtr 0x428) 1
    | some i =>
      let e : PeerEntry := { state := 3, since := s.portTicks, mac, host := some src }
      { s with peers := sortBy (fun a b => decide (a.1 ≤ b.1)) ((i, e) :: s.peers) }

/-- The listed device that a hello proves itself to be (R332, R377): the digest is listed, and the signature over the first 88 bytes
verifies. -/
def helloDevice (s : State) (p : Bytes) : Option PeerCfg :=
  (s.cfg.peers.devices.find? fun d => d.digest == slice p 40 48 && d.index != s.cfg.peers.selfIndex).filter fun d =>
    p.length == 88 + 4723 && Config.digestVerify d.digest (Config.sha384 (p.take 88)) (p.drop 88)

/-- A listed device's hello (R332, R335, R342): its twin state is noted; without a session the device of lower index starts the
handshake. -/
def deviceHello (d : PeerCfg) (sub : Nat) (src : Endpoint) (p : Bytes) (s : State) : State :=
  match s.entryOfDevice d.index with
  | none => s
  | some (i, e) =>
    let base := beNat (slice p 8 6) - uAt p 4 1
    let s := s.setEntry i fun e => { e with host := some src, twinState := uAt p 2 1, macBase := some base }
    let s : State := if s.isTwinPartner d.index then
        ({ s with twin := { s.twin with partnerDurable := uAt p 3 1 != 0 } } : State).partnerReports (uAt p 2 1)
      else s
    -- a twin that RESTART returned to SOLO while its session stands (R418)
    let s := if s.isTwinPartner d.index && e.state == 3 && e.session != 0 && !e.otherPart && s.twin.state == 0 && !s.twin.syncing && bitAt s.fns.running 7
      then s.pairOpens else s
    let joins := e.state == 1 || e.state == 4 || e.state == 5
    let s := if joins then s.setEntry i fun e => { e with state := 2, since := s.portTicks } else s
    let stands := joins && e.session != 0
    let s := if stands then s.entryLive i d else s
    let idle := !(s.handshakes.any fun h => h.initiator && h.dev == d.index)
    if ((joins && !stands) || (e.state == 3 && e.session == 0)) && idle && decide (s.cfg.peers.selfIndex < d.index)
        && decide (s.sessions.length < 1024) then
      s.startHandshake d.index sub src
    else s

/-- The reserved bytes of a hello are 0 (R10, R368): 5 to 7, 14 and 15, 36 to 39. -/
def helloWhole (p : Bytes) : Bool := allZero (slice p 5 3) && allZero (slice p 14 2) && allZero (slice p 36 4)

/-- PEER_HELLO (R332, R333): a hello whose signature fails, or that matches no entry, is counted and ignored. -/
def doPeerHello (sub : Nat) (src : Endpoint) (mac : Nat) (payload : Bytes) (s : State) : State :=
  match s.delivered.find? fun d =>
      d.session == 0 && d.type == 0x60 && d.sub == sub && d.src == src && d.mac == mac && d.frags.flatten == payload with
  | none => s
  | some d =>
    let s := s.untake d
    if !(s.inService && s.works fnPort) then s
    else if !helloWhole payload then s.count (mwpCtr 0x420) 1
    else if uAt payload 1 1 = 0 then
      if payload.length == 88 && uAt payload 0 1 == 0 && allZero (payload.drop 40) then s.hostHello src mac else s.count (mwpCtr 0x420) 1
    else match s.helloDevice payload with
      | some p => s.deviceHello p sub src payload
      | none => s.count (mwpCtr 0x420) 1

/-- A message of a listed device's session, handed to `f` with its entry. -/
def onPartner (type : Nat) (m : Msg) (n : Nat) (f : Nat → Bytes → State → State) (s : State) : State :=
  s.onMessage type m false (fun _ => true) (fun (q : Session) _ p s =>
    match s.entryOfSession q.id with
    | some (i, _) => if p.length == n then f i p s else s
    | none => s)

/-- The partner is gone on arrival of its farewell (R335, R337): a LIVE entry is GONE; in any other state the entry's session ends. -/
def partnerLeaves (i : Nat) (s : State) : State :=
  match s.entry? i with
  | none => s
  | some e => if e.state == 3 then s.partnerGone i 5 else if e.session == 0 then s else s.dropSession e.session

/-- PEER_BYE (R337): the sender is GONE. -/
def doPeerBye (m : Msg) (s : State) : State := s.onPartner 0x61 m 4 (fun i _ s => s.partnerLeaves i)

/-- Round trip in units of 100 ns, rounded up, saturating (R334). -/
def rttOf (ticks : Nat) : Nat := satTo 16 (ceilDiv (ticks * 64) 1000)

/-- HEARTBEAT (R336, R368): the partner's ticks are kept for the echo, and the echo gives RTT, the least of the session. -/
def doHeartbeat (m : Msg) (s : State) : State :=
  s.onMessage 0x62 m false (fun _ => true) (fun (q : Session) _ p s =>
    if p.length != 16 then s
    else
      let echo := uAt p 8 8
      let s := s.withSession q.id fun q => { q with heardTicks := uAt p 0 8, heardAt := s.portTicks }
      match s.entryOfSession q.id with
      | some (i, _) =>
        if echo = 0 || decide (s.portTicks < echo) then s
        else s.setEntry i fun e => { e with rtt := if e.rtt = 0 then rttOf (s.portTicks - echo) else min e.rtt (rttOf (s.portTicks - echo)) }
      | none => s)

/-- A heartbeat's payload (R368): the ticks now, and the partner's latest ticks moved on by the time they were held here. -/
def heartbeatPayload (s : State) (q : Session) : Bytes :=
  leBytes 8 (satTo 64 s.portTicks) ++ leBytes 8 (if q.heardAt = 0 then 0 else (q.heardTicks + (s.portTicks - q.heardAt)) % 2 ^ 64)

/-- HEARTBEAT_SEND_TIMER (R336, R340): a sub-port over which nothing went to a LIVE partner during the last interval sends one. None
goes while PORT is stopped (R414); a failed device answers hosts alone (R452). -/
def doHeartbeatSendTimer (entry sub : Nat) (s : State) : State :=
  match s.entry? entry with
  | none => s
  | some e =>
    match s.session? e.session with
    | none => s
    | some q =>
      let quiet := (s.boot.service == 1 && !(s.works fnPort)) || (s.boot.service != 1 && e.role != 0)
      if quiet || e.state != 3 || e.session = 0 || !(s.subs.any fun p => p.1 == sub && p.2.up) then s
      else
        let s := s.atLeast (lookupD sub e.sentAt e.since + s.hbTicks e.role e.devIndex)
        let s := s.withSession q.id fun q => { q with sub }
        (s.sendMessage q.id 0x62 0 true (s.heartbeatPayload q)).withSession q.id fun x => { x with sub := q.sub }

/-- PEER_LIVENESS_EXPIRY (R336, R351): the partner has been silent for its interval: it is told, and is LOST. -/
def doPeerLivenessExpiry (p : Partner) (s : State) : State :=
  match p with
  | .entry i =>
    match s.entry? i with
    | some e =>
      if e.state != 3 then s
      else
        let s := s.atLeast (max e.lastHeard e.since + s.silenceTicks e.role e.devIndex)
        (if e.session = 0 then s else s.closeSession e.session 3).partnerGone i 4
    | none => s
  | .session sid =>
    match s.session? sid with
    | some q =>
      if (s.entryOfSession sid).any (fun e => e.2.state == 3) || !q.opened then s
      else ((s.atLeast (q.lastHeard + s.silenceTicks q.role q.dev)).closeSession sid 3).dropSession sid
    | none => s

/-- JOINING_TIMEOUT (R335): a handshake without progress for the silence interval leaves the entry LOST. -/
def doJoiningTimeout (entry : Nat) (s : State) : State :=
  match s.entry? entry with
  | some e =>
    if e.state != 2 then s
    else
      let mine := s.handshakes.filter fun h => (h.initiator && e.role != 0 && h.dev == e.devIndex) || e.host == some h.peer
      let last := (mine.map (·.started)).foldl max e.since
      let s := s.atLeast (last + ticksOfUs (s.cfg.peers.hbUs * s.cfg.peers.hbMiss))
      let s := mine.foldl (fun (s : State) h => s.discardHandshake h) s
      if ((s.entry? entry).map (·.state)) == some 2 then s.partnerGone entry 4 else s
  | none => s

/-- HOST_ENTRY_EXPIRY (R335): a host entry that is LOST for 60 s is EMPTY. -/
def doHostEntryExpiry (entry : Nat) (s : State) : State :=
  match s.entry? entry with
  | some e =>
    if e.role != 0 || e.state != 4 then s
    else
      let s := s.atLeast (e.since + ticksOfMs 60000)
      { s with peers := s.peers.filter (·.1 != entry) }
  | none => s

/-- The entry whose device signed an ANNOUNCE that came outside a session (R349, R368). -/
def signedBy (s : State) (d : Delivered) : Option Nat :=
  let p := d.frags.flatten
  let from' := s.peers.find? fun e => e.2.role != 0 && e.2.host == some d.src
  (from'.bind fun e => (s.cfg.peers.devices.find? (·.index == e.2.devIndex)).map fun c => (e.1, c)).bind fun x =>
    if p.length == 6 + 4723 && Config.digestVerify x.2.digest (Config.sha384 (p.take 6)) (p.drop 6) then some x.1 else none

/-- An ANNOUNCE of one kind (R368), in a session or outside one. -/
def onAnnounce (kind : Nat) (m : Msg) (f : Nat → Bytes → State → State) (s : State) : State :=
  if m.session = 0 then
    match s.delivered.find? fun d =>
        d.session == 0 && d.type == 0x63 && d.msgId == m.msgId && d.frags == m.frags && uAt d.frags.flatten 0 4 == kind with
    | none => s
    | some d =>
      let s := s.untake d
      match s.signedBy d with
      | some i => f i (d.frags.flatten.take 6) s
      | none => s
  else s.onMessage 0x63 m false (fun p => uAt p 0 4 == kind) (fun (q : Session) _ p s =>
    match s.entryOfSession q.id with
    | some (i, _) => if p.length == 6 then f i p s else s
    | none => s)

/-- A partner's twin state as announced (R347). -/
def noteTwinState (i : Nat) (p : Bytes) (s : State) : State :=
  match s.entry? i with
  | some e =>
    let s := s.setEntry i fun e => { e with twinState := uAt p 5 1 }
    if s.isTwinPartner e.devIndex then s.partnerReports (uAt p 5 1) else s
  | none => s

/-- ANNOUNCE_DEVICE_FAILED (R337): the sender is GONE. -/
def doAnnounceDeviceFailed (m : Msg) (s : State) : State := s.onAnnounce 1 m fun i _ s => s.partnerLeaves i
/-- ANNOUNCE_TWIN_LOST and ANNOUNCE_TWIN_STATE (R346, R347). -/
def doAnnounceTwinLost (m : Msg) (s : State) : State := s.onAnnounce 2 m fun i p s => s.noteTwinState i p
def doAnnounceTwinState (m : Msg) (s : State) : State := s.onAnnounce 3 m fun i p s => s.noteTwinState i p

end State
end Sys2Proof.Machine
end

