-- ==== Sys2Proof/Machine/RowsPartner.lean ====
section
/-! DEFINITION. Messages of devices, the pair and the timers of partners (chapters 6, 7, 9, 13, 14): the effect of each command of this group. -/

namespace Sys2Proof.Machine

/-- PEER_HELLO (R332). -/
def execPeerHello (sub : Nat) (src : Endpoint) (mac : Nat) (payload : Bytes) (s : State) : Host.Outcome State Fault Refusal := .next (s.after (s.doPeerHello sub src mac payload))

/-- PEER_BYE (R337). -/
def execPeerBye (m : Msg) (s : State) : Host.Outcome State Fault Refusal := .next (s.after (s.doPeerBye m))

/-- HEARTBEAT (R368). -/
def execHeartbeat (m : Msg) (s : State) : Host.Outcome State Fault Refusal := .next (s.after (s.doHeartbeat m))

/-- HEARTBEAT_SEND_TIMER (R336). -/
def execHeartbeatSendTimer (entry : Nat) (sub : Nat) (s : State) : Host.Outcome State Fault Refusal := .next (s.after (s.doHeartbeatSendTimer entry sub))

/-- PEER_LIVENESS_EXPIRY (R336). -/
def execPeerLivenessExpiry (p : Partner) (s : State) : Host.Outcome State Fault Refusal := .next (s.after (s.doPeerLivenessExpiry p))

/-- JOINING_TIMEOUT (R335). -/
def execJoiningTimeout (entry : Nat) (s : State) : Host.Outcome State Fault Refusal := .next (s.after (s.doJoiningTimeout entry))

/-- HOST_ENTRY_EXPIRY (R335). -/
def execHostEntryExpiry (entry : Nat) (s : State) : Host.Outcome State Fault Refusal := .next (s.after (s.doHostEntryExpiry entry))

/-- ANNOUNCE_DEVICE_FAILED (R337). -/
def execAnnounceDeviceFailed (m : Msg) (s : State) : Host.Outcome State Fault Refusal := .next (s.after (s.doAnnounceDeviceFailed m))

/-- ANNOUNCE_TWIN_LOST (R368). -/
def execAnnounceTwinLost (m : Msg) (s : State) : Host.Outcome State Fault Refusal := .next (s.after (s.doAnnounceTwinLost m))

/-- ANNOUNCE_TWIN_STATE (R368). -/
def execAnnounceTwinState (m : Msg) (s : State) : Host.Outcome State Fault Refusal := .next (s.after (s.doAnnounceTwinState m))

/-- ROW_REQUEST (R210). -/
def execRowRequest (m : Msg) (s : State) : Host.Outcome State Fault Refusal := .next (s.after (s.doRowRequest m))

/-- ROW_REPLY (R211). -/
def execRowReply (m : Msg) (s : State) : Host.Outcome State Fault Refusal := .next (s.after (s.doRowReply m))

/-- PASSAGE_REQUEST (R252). -/
def execPassageRequest (m : Msg) (s : State) : Host.Outcome State Fault Refusal := .next (s.after (s.doPassageRequest m))

/-- PASSAGE_REPLY (R252). -/
def execPassageReply (m : Msg) (s : State) : Host.Outcome State Fault Refusal := .next (s.after (s.doPassageReply m))

/-- MERGE_START (R369). -/
def execMergeStart (m : Msg) (s : State) : Host.Outcome State Fault Refusal := .next (s.after (s.doMergeStart m))

/-- MERGE_LIST (R185). -/
def execMergeList (m : Msg) (s : State) : Host.Outcome State Fault Refusal := .next (s.after (s.doMergeList m))

/-- SEL_BINS (R191). -/
def execSelBins (m : Msg) (s : State) : Host.Outcome State Fault Refusal := .next (s.after (s.doSelBins m))

/-- SEL_DECISION (R191). -/
def execSelDecision (m : Msg) (s : State) : Host.Outcome State Fault Refusal := .next (s.after (s.doSelDecision m))

/-- SEL_GATHER (R191). -/
def execSelGather (m : Msg) (s : State) : Host.Outcome State Fault Refusal := .next (s.after (s.doSelGather m))

/-- TOKEN_REQUEST (R343). -/
def execTokenRequest (m : Msg) (s : State) : Host.Outcome State Fault Refusal := .next (s.after (s.doTokenRequest m))

/-- TOKEN_GRANT (R343). -/
def execTokenGrant (m : Msg) (s : State) : Host.Outcome State Fault Refusal := .next (s.after (s.doTokenGrant m))

/-- MIRROR (R343). -/
def execMirror (m : Msg) (s : State) : Host.Outcome State Fault Refusal := .next (s.after (s.doMirror m))

/-- APPLIED (R370). -/
def execApplied (m : Msg) (s : State) : Host.Outcome State Fault Refusal := .next (s.after (s.doApplied m))

/-- SYNC_CHUNK (R342). -/
def execSyncChunk (m : Msg) (s : State) : Host.Outcome State Fault Refusal := .next (s.after (s.doSyncChunk m))

/-- SYNC_DONE (R342). -/
def execSyncDone (m : Msg) (s : State) : Host.Outcome State Fault Refusal := .next (s.after (s.doSyncDone m))

/-- TWIN_PARTNER_LOST (R346). -/
def execTwinPartnerLost (s : State) : Host.Outcome State Fault Refusal := .next (s.after (s.doTwinPartnerLost))

/-- BG_TWIN_SYNC (R342). -/
def execBgTwinSync (s : State) : Host.Outcome State Fault Refusal := .next (s.after (s.doBgTwinSync))

end Sys2Proof.Machine
end

