-- ==== Sys2Proof/Machine/RowsProtect.lean ====
section
/-! DEFINITION. Checks, protection, errors, debug and management (chapters 13, 15, 17 to 20): the effect of each command of this group. -/

namespace Sys2Proof.Machine

/-- THERMAL_CHECK (R431). -/
def execThermalCheck (temps : List Int) (s : State) : Host.Outcome State Fault Refusal := .next (s.after (s.doThermalCheck temps))

/-- POWER_CHECK (R431). -/
def execPowerCheck (x : Sample) (inputMw : Nat) (s : State) : Host.Outcome State Fault Refusal := .next (s.after (s.doPowerCheck x inputMw))

/-- PMBUS_POLL (R459). -/
def execPmbusPoll (vout : List Nat) (iout : List Nat) (s : State) : Host.Outcome State Fault Refusal := .next (s.after (s.doPmbusPoll vout iout))

/-- PMBUS_NO_ANSWER (R459). -/
def execPmbusNoAnswer (k : Nat) (s : State) : Host.Outcome State Fault Refusal := .next (s.after (s.doPmbusNoAnswer k))

/-- PMB_ALERT (R459). -/
def execPmbAlert (s : State) : Host.Outcome State Fault Refusal := .next (s.after (s.doPmbAlert))

/-- THERMAL_COMPARATOR (R465). -/
def execThermalComparator (sensor : Nat) (s : State) : Host.Outcome State Fault Refusal := .next (s.after (s.doThermalComparator sensor))

/-- PLL_LOCK_LOSS (R446). -/
def execPllLockLoss (p : Pll) (s : State) : Host.Outcome State Fault Refusal := .next (s.after (s.doPllLockLoss p))

/-- FW_WATCHDOG (R446). -/
def execFwWatchdog (s : State) : Host.Outcome State Fault Refusal := .next (s.after (s.doFwWatchdog))

/-- ENTROPY_FAIL (R374). -/
def execEntropyFail (s : State) : Host.Outcome State Fault Refusal := .next (s.after (s.doEntropyFail))

/-- FUNCTION_RECOVERY_DONE (R450). -/
def execFunctionRecoveryDone (f : Nat) (s : State) : Host.Outcome State Fault Refusal := .next (s.after (s.doFunctionRecoveryDone f))

/-- DBG_AUTH (R396). -/
def execDbgAuth (record : Bytes) (s : State) : Host.Outcome State Fault Refusal := .next (s.after (s.doDbgAuth record))

/-- TAP_RESET (R463). -/
def execTapReset (s : State) : Host.Outcome State Fault Refusal := .next (s.after (s.doTapReset))

/-- TAP_IDCODE (R466). -/
def execTapIdcode (s : State) : Host.Outcome State Fault Refusal := .next (s.after (s.doTapIdcode))

/-- TAP_BYPASS (R466). -/
def execTapBypass (s : State) : Host.Outcome State Fault Refusal := .next (s.after (s.doTapBypass))

/-- TAP_SAMPLE_PRELOAD (R466). -/
def execTapSamplePreload (pins : Nat) (load : Option Nat) (s : State) : Host.Outcome State Fault Refusal := .next (s.after (s.doTapSamplePreload pins load))

/-- TAP_EXTEST (R466). -/
def execTapExtest (s : State) : Host.Outcome State Fault Refusal := .next (s.after (s.doTapExtest))

/-- SMBUS_BLOCK_READ (R477). -/
def execSmbusBlockRead (addr : Nat) (cmd : Nat) (s : State) : Host.Outcome State Fault Refusal := .next (s.after (s.doSmbusBlockRead addr cmd))

/-- I3C_PRIVATE_READ (R477). -/
def execI3cPrivateRead (addr : Nat) (s : State) : Host.Outcome State Fault Refusal := .next (s.after (s.doI3cPrivateRead addr))

/-- MGMT_WRITE_NACK (R464). -/
def execMgmtWriteNack (addr : Nat) (s : State) : Host.Outcome State Fault Refusal := .next (s.after (s.doMgmtWriteNack addr))

/-- HBM_STACK_TRAINING_LOSS (R446). -/
def execHbmStackTrainingLoss (stack : Nat) (s : State) : Host.Outcome State Fault Refusal := .next (s.after (s.doHbmStackTrainingLoss stack))

/-- PFC_PAUSE_EXPIRY (R326). -/
def execPfcPauseExpiry (sub : Nat) (s : State) : Host.Outcome State Fault Refusal := .next (s.after (s.doPfcPauseExpiry sub))

/-- SLUICE_CREDIT_ARRIVAL (R85). -/
def execSluiceCreditArrival (k : Nat) (s : State) : Host.Outcome State Fault Refusal := .next (s.after (s.doSluiceCreditArrival k))

/-- PREFIX_PAGE_COPY_DONE (R288). -/
def execPrefixPageCopyDone (req : Nat) (s : State) : Host.Outcome State Fault Refusal := .next (s.after (s.doPrefixPageCopyDone req))

end Sys2Proof.Machine
end

