-- ==== Sys2Proof/Machine/RowsSession.lean ====
section
/-! DEFINITION. The MWP transport and sessions (chapters 14 and 15): the effect of each command of this group. -/

namespace Sys2Proof.Machine

/-- MWP_DATAGRAM_RX (R348). -/
def execMwpDatagramRx (d : Datagram) (s : State) : Host.Outcome State Fault Refusal := .next (s.after (s.doMwpDatagramRx d))

/-- RETRANSMIT_TIMEOUT (R353). -/
def execRetransmitTimeout (sid : Nat) (seq : Nat) (s : State) : Host.Outcome State Fault Refusal := .next (s.after (s.doRetransmitTimeout sid seq))

/-- WINDOW_UPDATE (R354). -/
def execWindowUpdate (sid : Nat) (s : State) : Host.Outcome State Fault Refusal := .next (s.after (s.doWindowUpdate sid))

/-- ACK (R352). -/
def execAck (m : Msg) (s : State) : Host.Outcome State Fault Refusal := .next (s.after (s.doAck m))

/-- SESSION_INIT (R383). -/
def execSessionInit (sub : Nat) (src : Endpoint) (payload : Bytes) (s : State) : Host.Outcome State Fault Refusal := .next (s.after (s.doSessionInit sub src payload))

/-- SESSION_ACCEPT (R385). -/
def execSessionAccept (sub : Nat) (src : Endpoint) (payload : Bytes) (s : State) : Host.Outcome State Fault Refusal := .next (s.after (s.doSessionAccept sub src payload))

/-- SESSION_CONFIRM (R386). -/
def execSessionConfirm (sub : Nat) (src : Endpoint) (payload : Bytes) (s : State) : Host.Outcome State Fault Refusal := .next (s.after (s.doSessionConfirm sub src payload))

/-- SESSION_CLOSE (R351). -/
def execSessionClose (src : Endpoint) (sid : Nat) (payload : Bytes) (s : State) : Host.Outcome State Fault Refusal := .next (s.after (s.doSessionClose src sid payload))

/-- HANDSHAKE_RESEND (R386). -/
def execHandshakeResend (h : Nat) (s : State) : Host.Outcome State Fault Refusal := .next (s.after (s.doHandshakeResend h))

/-- HANDSHAKE_TIMEOUT (R386). -/
def execHandshakeTimeout (h : Nat) (s : State) : Host.Outcome State Fault Refusal := .next (s.after (s.doHandshakeTimeout h))

/-- CLOSE_ACK_TIMEOUT (R351). -/
def execCloseAckTimeout (sid : Nat) (s : State) : Host.Outcome State Fault Refusal := .next (s.after (s.doCloseAckTimeout sid))

end Sys2Proof.Machine
end

