-- ==== Sys2Proof/Machine/RowsWheel.lean ====
section
/-! DEFINITION. The Wheel (chapter 5): the effect of each command of this group. -/

namespace Sys2Proof.Machine

/-- RIDER_PREPARE (R142). -/
def execRiderPrepare (pool : Nat) (slot : Nat) (s : State) : Host.Outcome State Fault Refusal := .next (s.after (s.doRiderPrepare pool slot))

/-- WHEEL_SLICE_DONE (R137). -/
def execWheelSliceDone (t : Nat) (s : State) : Host.Outcome State Fault Refusal := .next (s.after (s.doWheelSliceDone t))

/-- WHEEL_BOUNDARY_COMBINE (R138). -/
def execWheelBoundaryCombine (pool : Nat) (s : State) : Host.Outcome State Fault Refusal := .next (s.after (s.doWheelBoundaryCombine pool))

/-- WHEEL_WAKE (R139). -/
def execWheelWake (pool : Nat) (s : State) : Host.Outcome State Fault Refusal := .next (s.after (s.doWheelWake pool))

/-- WHEEL_RELEASE_ARRIVAL (R138). -/
def execWheelReleaseArrival (t : Nat) (s : State) : Host.Outcome State Fault Refusal := .next (s.after (s.doWheelReleaseArrival t))

/-- EVICTION_ARRIVAL (R151). -/
def execEvictionArrival (t : Nat) (s : State) : Host.Outcome State Fault Refusal := .next (s.after (s.doEvictionArrival t))

/-- RIDER_FINAL_MERGE (R153). -/
def execRiderFinalMerge (pool : Nat) (slot : Nat) (s : State) : Host.Outcome State Fault Refusal := .next (s.after (s.doRiderFinalMerge pool slot))

/-- RIDER_DROP (R146). -/
def execRiderDrop (pool : Nat) (slot : Nat) (s : State) : Host.Outcome State Fault Refusal := .next (s.after (s.doRiderDrop pool slot))

/-- WHEEL_WATCHDOG (R446). -/
def execWheelWatchdog (pool : Nat) (s : State) : Host.Outcome State Fault Refusal := .next (s.after (s.doWheelWatchdog pool))

end Sys2Proof.Machine
end

