-- ==== Sys2Proof/Machine/Dispatch.lean ====
section
/-! DEFINITION. The effect of every command on everything but the queue: one arm per row of the table. -/

namespace Sys2Proof.Machine

def exec (i : Instr) (s : State) : Host.Outcome State Fault Refusal :=
  match i with
  | .resetNAssert => Sys2Proof.Machine.execResetNAssert s
  | .resetNRelease r => Sys2Proof.Machine.execResetNRelease r s
  | .supplyRemoval => Sys2Proof.Machine.execSupplyRemoval s
  | .linkUp sub => Sys2Proof.Machine.execLinkUp sub s
  | .portLinkDown sub => Sys2Proof.Machine.execPortLinkDown sub s
  | .ethFrameRx f => Sys2Proof.Machine.execEthFrameRx f s
  | .pfcFrameRx sub enable quanta => Sys2Proof.Machine.execPfcFrameRx sub enable quanta s
  | .lldpFrameRx sub chassis portId => Sys2Proof.Machine.execLldpFrameRx sub chassis portId s
  | .neighborResolutionRx n => Sys2Proof.Machine.execNeighborResolutionRx n s
  | .echoRequestRx sub src v6 data => Sys2Proof.Machine.execEchoRequestRx sub src v6 data s
  | .lldpTimer sub => Sys2Proof.Machine.execLldpTimer sub s
  | .helloTimer sub => Sys2Proof.Machine.execHelloTimer sub s
  | .mwpDatagramRx d => Sys2Proof.Machine.execMwpDatagramRx d s
  | .retransmitTimeout sid seq => Sys2Proof.Machine.execRetransmitTimeout sid seq s
  | .windowUpdate sid => Sys2Proof.Machine.execWindowUpdate sid s
  | .ack m => Sys2Proof.Machine.execAck m s
  | .sessionInit sub src payload => Sys2Proof.Machine.execSessionInit sub src payload s
  | .sessionAccept sub src payload => Sys2Proof.Machine.execSessionAccept sub src payload s
  | .sessionConfirm sub src payload => Sys2Proof.Machine.execSessionConfirm sub src payload s
  | .sessionClose src sid payload => Sys2Proof.Machine.execSessionClose src sid payload s
  | .handshakeResend h => Sys2Proof.Machine.execHandshakeResend h s
  | .handshakeTimeout h => Sys2Proof.Machine.execHandshakeTimeout h s
  | .closeAckTimeout sid => Sys2Proof.Machine.execCloseAckTimeout sid s
  | .submit m => Sys2Proof.Machine.execSubmit m s
  | .cancel m => Sys2Proof.Machine.execCancel m s
  | .tableWrite m => Sys2Proof.Machine.execTableWrite m s
  | .tableSwitch m => Sys2Proof.Machine.execTableSwitch m s
  | .tableRelease m => Sys2Proof.Machine.execTableRelease m s
  | .hotSet m => Sys2Proof.Machine.execHotSet m s
  | .hotSetInstall table => Sys2Proof.Machine.execHotSetInstall table s
  | .corpusAppend m => Sys2Proof.Machine.execCorpusAppend m s
  | .corpusSwitchMerge m => Sys2Proof.Machine.execCorpusSwitchMerge m s
  | .corpusSwitchChunk m => Sys2Proof.Machine.execCorpusSwitchChunk m s
  | .corpusSwitchInstall m => Sys2Proof.Machine.execCorpusSwitchInstall m s
  | .loadModel m => Sys2Proof.Machine.execLoadModel m s
  | .loadPlan m => Sys2Proof.Machine.execLoadPlan m s
  | .loadAdapter m => Sys2Proof.Machine.execLoadAdapter m s
  | .loadGrammar m => Sys2Proof.Machine.execLoadGrammar m s
  | .loadRemove kind m => Sys2Proof.Machine.execLoadRemove kind m s
  | .loadAbandonTimeout kind id => Sys2Proof.Machine.execLoadAbandonTimeout kind id s
  | .handleRetain m => Sys2Proof.Machine.execHandleRetain m s
  | .handleRelease m => Sys2Proof.Machine.execHandleRelease m s
  | .inspectRead m => Sys2Proof.Machine.execInspectRead m s
  | .inspectWrite m => Sys2Proof.Machine.execInspectWrite m s
  | .scrubHoursWrite m => Sys2Proof.Machine.execScrubHoursWrite m s
  | .counterClear m => Sys2Proof.Machine.execCounterClear m s
  | .power m => Sys2Proof.Machine.execPower m s
  | .powerTransitionDone failedTile => Sys2Proof.Machine.execPowerTransitionDone failedTile s
  | .plevelVoltageReached => Sys2Proof.Machine.execPlevelVoltageReached s
  | .poolGateDrainTimeout pool => Sys2Proof.Machine.execPoolGateDrainTimeout pool s
  | .poolUngateReady pool failedTile => Sys2Proof.Machine.execPoolUngateReady pool failedTile s
  | .stopDrain m => Sys2Proof.Machine.execStopDrain m s
  | .stopAbort m => Sys2Proof.Machine.execStopAbort m s
  | .stopDrainTimeout => Sys2Proof.Machine.execStopDrainTimeout s
  | .configSection m => Sys2Proof.Machine.execConfigSection m s
  | .configLive m => Sys2Proof.Machine.execConfigLive m s
  | .restart m => Sys2Proof.Machine.execRestart m s
  | .imageWrite m => Sys2Proof.Machine.execImageWrite m s
  | .peerHello sub src mac payload => Sys2Proof.Machine.execPeerHello sub src mac payload s
  | .peerBye m => Sys2Proof.Machine.execPeerBye m s
  | .heartbeat m => Sys2Proof.Machine.execHeartbeat m s
  | .heartbeatSendTimer entry sub => Sys2Proof.Machine.execHeartbeatSendTimer entry sub s
  | .peerLivenessExpiry p => Sys2Proof.Machine.execPeerLivenessExpiry p s
  | .joiningTimeout entry => Sys2Proof.Machine.execJoiningTimeout entry s
  | .hostEntryExpiry entry => Sys2Proof.Machine.execHostEntryExpiry entry s
  | .announceDeviceFailed m => Sys2Proof.Machine.execAnnounceDeviceFailed m s
  | .announceTwinLost m => Sys2Proof.Machine.execAnnounceTwinLost m s
  | .announceTwinState m => Sys2Proof.Machine.execAnnounceTwinState m s
  | .rowRequest m => Sys2Proof.Machine.execRowRequest m s
  | .rowReply m => Sys2Proof.Machine.execRowReply m s
  | .passageRequest m => Sys2Proof.Machine.execPassageRequest m s
  | .passageReply m => Sys2Proof.Machine.execPassageReply m s
  | .mergeStart m => Sys2Proof.Machine.execMergeStart m s
  | .mergeList m => Sys2Proof.Machine.execMergeList m s
  | .selBins m => Sys2Proof.Machine.execSelBins m s
  | .selDecision m => Sys2Proof.Machine.execSelDecision m s
  | .selGather m => Sys2Proof.Machine.execSelGather m s
  | .tokenRequest m => Sys2Proof.Machine.execTokenRequest m s
  | .tokenGrant m => Sys2Proof.Machine.execTokenGrant m s
  | .mirror m => Sys2Proof.Machine.execMirror m s
  | .applied m => Sys2Proof.Machine.execApplied m s
  | .syncChunk m => Sys2Proof.Machine.execSyncChunk m s
  | .syncDone m => Sys2Proof.Machine.execSyncDone m s
  | .twinPartnerLost => Sys2Proof.Machine.execTwinPartnerLost s
  | .bgTwinSync => Sys2Proof.Machine.execBgTwinSync s
  | .deadlineExpiry req => Sys2Proof.Machine.execDeadlineExpiry req s
  | .workCompletionRecord k => Sys2Proof.Machine.execWorkCompletionRecord k s
  | .kvWritebackDone req => Sys2Proof.Machine.execKvWritebackDone req s
  | .hopperHandoff k => Sys2Proof.Machine.execHopperHandoff k s
  | .tileRefillRequest t => Sys2Proof.Machine.execTileRefillRequest t s
  | .stealTake thief victim => Sys2Proof.Machine.execStealTake thief victim s
  | .idleTileTimeout t => Sys2Proof.Machine.execIdleTileTimeout t s
  | .hopperWake t => Sys2Proof.Machine.execHopperWake t s
  | .workItemStart t => Sys2Proof.Machine.execWorkItemStart t s
  | .nop t => Sys2Proof.Machine.execNop t s
  | .barrier t => Sys2Proof.Machine.execBarrier t s
  | .barrierCombine pool slot => Sys2Proof.Machine.execBarrierCombine pool slot s
  | .barrierReleaseArrival t => Sys2Proof.Machine.execBarrierReleaseArrival t s
  | .signal t => Sys2Proof.Machine.execSignal t s
  | .yieldItem t => Sys2Proof.Machine.execYieldItem t s
  | .gemm t => Sys2Proof.Machine.execGemm t s
  | .conv t => Sys2Proof.Machine.execConv t s
  | .dist t => Sys2Proof.Machine.execDist t s
  | .ewUnary t => Sys2Proof.Machine.execEwUnary t s
  | .ewBinary t => Sys2Proof.Machine.execEwBinary t s
  | .ewFma t => Sys2Proof.Machine.execEwFma t s
  | .reduce t => Sys2Proof.Machine.execReduce t s
  | .norm t => Sys2Proof.Machine.execNorm t s
  | .softmax t => Sys2Proof.Machine.execSoftmax t s
  | .pool2d t => Sys2Proof.Machine.execPool2d t s
  | .dwconv t => Sys2Proof.Machine.execDwconv t s
  | .convert t => Sys2Proof.Machine.execConvert t s
  | .topk t => Sys2Proof.Machine.execTopk t s
  | .selectRoundCombine pool slot => Sys2Proof.Machine.execSelectRoundCombine pool slot s
  | .selectDecisionArrival t => Sys2Proof.Machine.execSelectDecisionArrival t s
  | .kth t => Sys2Proof.Machine.execKth t s
  | .argmax t => Sys2Proof.Machine.execArgmax t s
  | .sort t => Sys2Proof.Machine.execSort t s
  | .hist t => Sys2Proof.Machine.execHist t s
  | .merge t => Sys2Proof.Machine.execMerge t s
  | .sample t => Sys2Proof.Machine.execSample t s
  | .copy t => Sys2Proof.Machine.execCopy t s
  | .gather t => Sys2Proof.Machine.execGather t s
  | .scatter t => Sys2Proof.Machine.execScatter t s
  | .transpose t => Sys2Proof.Machine.execTranspose t s
  | .decompress t => Sys2Proof.Machine.execDecompress t s
  | .leatSend t => Sys2Proof.Machine.execLeatSend t s
  | .coalesce t => Sys2Proof.Machine.execCoalesce t s
  | .poolSum t => Sys2Proof.Machine.execPoolSum t s
  | .poolMean t => Sys2Proof.Machine.execPoolMean t s
  | .poolWsum t => Sys2Proof.Machine.execPoolWsum t s
  | .normalise t => Sys2Proof.Machine.execNormalise t s
  | .trieWalk t => Sys2Proof.Machine.execTrieWalk t s
  | .latticeStep t => Sys2Proof.Machine.execLatticeStep t s
  | .detok t => Sys2Proof.Machine.execDetok t s
  | .stopMatch t => Sys2Proof.Machine.execStopMatch t s
  | .maskApply t => Sys2Proof.Machine.execMaskApply t s
  | .pack t => Sys2Proof.Machine.execPack t s
  | .sluiceHandleArrival k => Sys2Proof.Machine.execSluiceHandleArrival k s
  | .ringFillLanded t ring => Sys2Proof.Machine.execRingFillLanded t ring s
  | .ringSlotRelease t ring => Sys2Proof.Machine.execRingSlotRelease t ring s
  | .ringCreditArrival k => Sys2Proof.Machine.execRingCreditArrival k s
  | .leatPayloadLand k t => Sys2Proof.Machine.execLeatPayloadLand k t s
  | .remoteRead k => Sys2Proof.Machine.execRemoteRead k s
  | .meshFlitCrcFail t dir again => Sys2Proof.Machine.execMeshFlitCrcFail t dir again s
  | .hbmEccRetry line reader outcome => Sys2Proof.Machine.execHbmEccRetry line reader outcome s
  | .riderPrepare pool slot => Sys2Proof.Machine.execRiderPrepare pool slot s
  | .wheelSliceDone t => Sys2Proof.Machine.execWheelSliceDone t s
  | .wheelBoundaryCombine pool => Sys2Proof.Machine.execWheelBoundaryCombine pool s
  | .wheelWake pool => Sys2Proof.Machine.execWheelWake pool s
  | .wheelReleaseArrival t => Sys2Proof.Machine.execWheelReleaseArrival t s
  | .evictionArrival t => Sys2Proof.Machine.execEvictionArrival t s
  | .riderFinalMerge pool slot => Sys2Proof.Machine.execRiderFinalMerge pool slot s
  | .riderDrop pool slot => Sys2Proof.Machine.execRiderDrop pool slot s
  | .wheelWatchdog pool => Sys2Proof.Machine.execWheelWatchdog pool s
  | .bgCorpusMerge corpus => Sys2Proof.Machine.execBgCorpusMerge corpus s
  | .bgSlabCopy table version slab => Sys2Proof.Machine.execBgSlabCopy table version slab s
  | .bgHbmScrub line outcome => Sys2Proof.Machine.execBgHbmScrub line outcome s
  | .bgTmScrub t word outcome => Sys2Proof.Machine.execBgTmScrub t word outcome s
  | .bgZeroise => Sys2Proof.Machine.execBgZeroise s
  | .bgTelemetry x => Sys2Proof.Machine.execBgTelemetry x s
  | .bgSensorCal sensor => Sys2Proof.Machine.execBgSensorCal sensor s
  | .bgDeferralExpiry task slots => Sys2Proof.Machine.execBgDeferralExpiry task slots s
  | .thermalCheck temps => Sys2Proof.Machine.execThermalCheck temps s
  | .powerCheck x inputMw => Sys2Proof.Machine.execPowerCheck x inputMw s
  | .pmbusPoll vout iout => Sys2Proof.Machine.execPmbusPoll vout iout s
  | .pmbusNoAnswer k => Sys2Proof.Machine.execPmbusNoAnswer k s
  | .pmbAlert => Sys2Proof.Machine.execPmbAlert s
  | .thermalComparator sensor => Sys2Proof.Machine.execThermalComparator sensor s
  | .pllLockLoss p => Sys2Proof.Machine.execPllLockLoss p s
  | .fwWatchdog => Sys2Proof.Machine.execFwWatchdog s
  | .entropyFail => Sys2Proof.Machine.execEntropyFail s
  | .functionRecoveryDone f => Sys2Proof.Machine.execFunctionRecoveryDone f s
  | .dbgAuth record => Sys2Proof.Machine.execDbgAuth record s
  | .tapReset => Sys2Proof.Machine.execTapReset s
  | .tapIdcode => Sys2Proof.Machine.execTapIdcode s
  | .tapBypass => Sys2Proof.Machine.execTapBypass s
  | .tapSamplePreload pins load => Sys2Proof.Machine.execTapSamplePreload pins load s
  | .tapExtest => Sys2Proof.Machine.execTapExtest s
  | .smbusBlockRead addr cmd => Sys2Proof.Machine.execSmbusBlockRead addr cmd s
  | .i3cPrivateRead addr => Sys2Proof.Machine.execI3cPrivateRead addr s
  | .mgmtWriteNack addr => Sys2Proof.Machine.execMgmtWriteNack addr s
  | .hbmStackTrainingLoss stack => Sys2Proof.Machine.execHbmStackTrainingLoss stack s
  | .pfcPauseExpiry sub => Sys2Proof.Machine.execPfcPauseExpiry sub s
  | .sluiceCreditArrival k => Sys2Proof.Machine.execSluiceCreditArrival k s
  | .prefixPageCopyDone req => Sys2Proof.Machine.execPrefixPageCopyDone req s

end Sys2Proof.Machine
end

