-- ==== Sys2Proof/Machine/Tick.lean ====
section
/-! DEFINITION. What passes while no command waits: one cycle of the port's clock (R330) and some of the mesh clock (R24). -/

namespace Sys2Proof.Machine

/-- One tick of the port's clock; the mesh clock advances by a free number of cycles in it, and what can go on does. -/
def State.tick (s : State) : State :=
  let f := s.freeBelow 16
  s.after { f.2 with portTicks := s.portTicks + 1, meshCount := s.meshCount + f.1 }

end Sys2Proof.Machine
end

