-- ==== Sys2Proof/Safety.lean ====
section
/-! DEFINITION. What counts as a safe state, and the conditions that claims name: invariants, a quiet device, a message that is taken. -/

namespace Sys2Proof.Machine

/-- The memory is in its canonical form. -/
def State.memOk (s : State) : Prop := Memory.wf s.mem = true

/-- Nothing on the device can go on by itself: no request, step, collective or exchange is there, no write waits for a token or for
another of its WRITE_ID, no control message or debug unlock is in progress or waiting, no Wheel, hot area, merge or successor waits to be
started, no old version to be freed. -/
structure State.Quiet (s : State) : Prop where
  reqs : s.reqs = []
  steps : s.steps = []
  collectives : s.collectives = []
  exchanges : s.exchanges = []
  writes : s.twin.waiting = []
  tokens : s.twin.granting = []
  repeats : s.twin.repeats = []
  debug : s.boot.debugPending = false
  control : s.fns.current = none
  controls : s.fns.waiting = []
  blocked : (s.pools.flatMap fun p => p.2.blocked) = []
  merges : (s.corpora.filter (·.due)) = []
  successors : (s.corpora.filter fun k => k.next.isSome && !(s.rotates k.id)) = []
  old : (s.corpora.filter fun k => !k.old.isEmpty) = []
  texts : s.textOld = []
  hot : s.hotStale = false
  wheels : (s.cfg.pools.zipIdx.filter fun p => p.1.has 0 && s.poolActive p.2 && (s.wheel? p.2).isNone) = []

/-- A message of a type stands delivered by an open session of a device that can answer. -/
structure State.Offers (s : State) (type : Nat) (m : Msg) (d : Delivered) (q : Session) : Prop where
  delivered : s.taken? type m = some d
  session : s.session? m.session = some q
  live : s.portLive = true
  isOpen : q.opened = true

/-- The message that a command for a host's message takes: its type, the message, and whether it is an INSPECT write (R357, R367). -/
def hostRow : Instr → Option (Nat × Msg × Bool)
  | .submit m => some (0x10, m, false)
  | .cancel m => some (0x12, m, false)
  | .tableWrite m => some (0x20, m, false)
  | .tableSwitch m => some (0x21, m, false)
  | .tableRelease m => some (0x22, m, false)
  | .hotSet m => some (0x23, m, false)
  | .corpusAppend m => some (0x28, m, false)
  | .corpusSwitchMerge m => some (0x29, m, false)
  | .corpusSwitchChunk m => some (0x29, m, false)
  | .corpusSwitchInstall m => some (0x29, m, false)
  | .loadModel m => some (0x30, m, false)
  | .loadPlan m => some (0x31, m, false)
  | .loadAdapter m => some (0x32, m, false)
  | .loadGrammar m => some (0x33, m, false)
  | .loadRemove kind m => some (loadType kind, m, false)
  | .handleRetain m => some (0x38, m, false)
  | .handleRelease m => some (0x39, m, false)
  | .inspectRead m => some (0x40, m, false)
  | .inspectWrite m => some (0x40, m, true)
  | .scrubHoursWrite m => some (0x40, m, true)
  | .counterClear m => some (0x40, m, true)
  | .power m => some (0x48, m, false)
  | .stopDrain m => some (0x50, m, false)
  | .stopAbort m => some (0x50, m, false)
  | .configSection m => some (0x51, m, false)
  | .configLive m => some (0x51, m, false)
  | .restart m => some (0x52, m, false)
  | .imageWrite m => some (0x53, m, false)
  | _ => none

/-- The payloads that belong to a command among those whose messages share its type: the operation of CORPUS_SWITCH, REMOVE of a load,
an INSPECT's operation and register, ABORT, LIVE_ONLY. -/
def rowTakes : Instr → Bytes → Bool
  | .corpusSwitchMerge _, p => (State.switchMsg p).op != 1 && (State.switchMsg p).op != 2
  | .corpusSwitchChunk _, p => (State.switchMsg p).op == 1
  | .corpusSwitchInstall _, p => (State.switchMsg p).op == 2
  | .loadModel _, p => !(lhRemove (uAt p 0 32))
  | .loadPlan _, p => !(lhRemove (uAt p 0 32))
  | .loadAdapter _, p => !(lhRemove (uAt p 0 32))
  | .loadGrammar _, p => !(lhRemove (uAt p 0 32))
  | .loadRemove _ _, p => lhRemove (uAt p 0 32)
  | .inspectRead _, p => fld (uAt p 0 16) 81 80 != 1
  | .inspectWrite _, p => State.isWrite p && State.writeRow p == 0
  | .scrubHoursWrite _, p => State.isWrite p && State.writeRow p == 1
  | .counterClear _, p => State.isWrite p && State.writeRow p == 2
  | .stopDrain _, p => !(bitAt (uAt p 0 16) 8)
  | .stopAbort _, p => bitAt (uAt p 0 16) 8
  | .configSection _, p => !(bitAt (uAt p 0 16) 4)
  | .configLive _, p => bitAt (uAt p 0 16) 4
  | _, _ => true

/-- A message of a type stands delivered by an open session of a device that can answer, and the gate lets it pass. -/
structure State.Admits (s : State) (type : Nat) (m : Msg) (writes : Bool) (d : Delivered) (q : Session) : Prop extends
    State.Offers s type m d q where
  passes : s.gate q type writes = none

/-- A COLL message of an operation stands delivered with a whole header (R369), and the gate lets it pass. -/
structure State.Joins (s : State) (op : Nat) (m : Msg) (d : Delivered) (q : Session) : Prop extends State.Admits s 0x70 m false d q where
  head : collOk d.frags.flatten = true
  op : uAt d.frags.flatten 0 1 = op

/-- A session's durable write is next (R356), and this device may apply durable writes by itself: it stands alone or is no twin, and the
functions that the write needs run; no write of its WRITE_ID is remembered or under way. -/
structure State.Applies (s : State) (type : Nat) (d : Delivered) (q : Session) : Prop where
  next : s.earlierWrite q d = false
  long : 8 ≤ d.frags.flatten.length
  running : s.runs (writeFn type d.frags.flatten) = true
  alone : s.cfg.twin.role = 0 ∨ (s.runs fnTwin = true ∧ (s.twin.state = 3 ∨ s.twin.state = 4
    ∨ (s.twin.state = 2 ∧ s.holdsToken (writeObject type d.frags.flatten).1 (writeObject type d.frags.flatten).2 = true)))
  fresh : s.remembered (uAt d.frags.flatten 0 8) = none
  free : s.writePending (uAt d.frags.flatten 0 8) = false

/-- The durable write that a delivered message carries. -/
def writeOf (type : Nat) (d : Delivered) (q : Session) : Write :=
  let p := d.frags.flatten
  { session := q.id, msgId := d.msgId, type, writeId := uAt p 0 8, kind := (writeObject type p).1, obj := (writeObject type p).2
    payload := p }

/-- The work items that act on the bytes of their slots: tile, opcode, and whether they read slot 0 alone, their other slots naming
tables. -/
def itemRow : Instr → Option (Nat × Nat × Bool)
  | .nop t => some (t, 0x00, false)
  | .barrier t => some (t, 0x01, false)
  | .signal t => some (t, 0x02, false)
  | .yieldItem t => some (t, 0x03, false)
  | .gemm t => some (t, 0x10, false)
  | .conv t => some (t, 0x11, false)
  | .dist t => some (t, 0x12, false)
  | .ewUnary t => some (t, 0x20, false)
  | .ewBinary t => some (t, 0x21, false)
  | .ewFma t => some (t, 0x22, false)
  | .reduce t => some (t, 0x23, false)
  | .norm t => some (t, 0x24, false)
  | .softmax t => some (t, 0x25, false)
  | .pool2d t => some (t, 0x26, false)
  | .dwconv t => some (t, 0x27, false)
  | .convert t => some (t, 0x28, false)
  | .topk t => some (t, 0x30, false)
  | .kth t => some (t, 0x31, false)
  | .argmax t => some (t, 0x32, false)
  | .sort t => some (t, 0x33, false)
  | .hist t => some (t, 0x34, false)
  | .merge t => some (t, 0x35, false)
  | .sample t => some (t, 0x36, false)
  | .copy t => some (t, 0x40, false)
  | .gather t => some (t, 0x41, false)
  | .scatter t => some (t, 0x42, false)
  | .transpose t => some (t, 0x43, false)
  | .decompress t => some (t, 0x44, false)
  | .leatSend t => some (t, 0x45, false)
  | .coalesce t => some (t, 0x50, false)
  | .trieWalk t => some (t, 0x61, true)
  | .latticeStep t => some (t, 0x62, true)
  | .detok t => some (t, 0x63, true)
  | .stopMatch t => some (t, 0x64, true)
  | .maskApply t => some (t, 0x65, true)
  | .pack t => some (t, 0x66, false)
  | _ => none

/-- The slots that a work item reads whole. -/
def slotsRead (text : Bool) (w : Nat) : List Nat := if text then [0] else inSlots w

/-- A tile runs a work item of an opcode, ready to act; its slots deliver their bytes and leave the state `u` (R99). -/
structure State.Runs (s : State) (t code : Nat) (text : Bool) (x : Running) (bs : List (Nat × Bytes)) (u : State) : Prop where
  running : s.running? t code = some x
  reads : State.readSlots (s.ioFor t x.item) x (slotsRead text x.item.wi) s = (.ok bs, u)

/-- The bytes that a slot delivered. -/
abbrev readBytes (bs : List (Nat × Bytes)) (n : Nat) : Bytes := lookupD n bs []

/-- The fuses never lose anything by a change: the part stays, enrolled owner slots stay as they were burnt, the least security
versions never fall (R388, R389). -/
structure Fuses.Extends (f g : Fuses) : Prop where
  part : g.part = f.part
  owners : f.owners <+: g.owners
  fw : f.minFwSvn ≤ g.minFwSvn
  image : f.minImageSvn ≤ g.minImageSvn

end Sys2Proof.Machine
end

