-- ==== Sys2Proof/Certificates/Slice0/Obligations.lean ====
section
/-! DEFINITION. The statements for the provers: what each group of commands does, on every state that its hypotheses allow. -/

open Sys2Proof Sys2Proof.Machine

/-- A step with a command at the front of the queue is that command's effect on the state with the rest of the queue. -/
def Obligations.StepRunsFrontCommand : Prop :=
  ∀ (c : Instr) (rest : List Instr) (s : State),
    step { s with pending := c :: rest } = exec c { s with pending := rest }

/-- With no command waiting, one tick of the port's clock passes (R330) and a free number of mesh cycles below 16, and everything goes on;
that the idle step is a tick is the model's choice (log entry 2). When nothing can go on by itself, what a command leaves is its direct
effect and nothing else. -/
def Obligations.IdleTicksAndQuietStays : Prop :=
  (
    ∀ s : State, s.pending = [] →
      step s = .next (s.after { s with
        free := s.free + 1, portTicks := s.portTicks + 1, meshCount := s.meshCount + Config.freeBelow s.free 16 }))
  ∧ (
    ∀ s t : State, t.Quiet → s.after t = { t with pending := s.pending, fuses := s.fuses })


/-- R388, R427, R461: a reset or the loss of the supply leaves the reset state, the fuses and the flash's two slots; RESET_N leaves FAULT_N and
the TAP, the supply takes every pin with it. At State.reset no owner slot is enrolled, the least security versions are 0, the queue is
empty and the memory canonical: what FusesNeverRollBack keeps holds there. -/
def Obligations.ResetKeepsFusesAndFlash : Prop :=
  (
    ∀ s : State,
      let r : State := { State.reset with
        pending := s.pending, out := s.out, free := s.free, fuses := s.fuses
        flash := { slotA := s.flash.slotA, slotB := s.flash.slotB } }
      exec .resetNAssert s = .next { r with
        pins := { s.pins with resetLow := true, thermtrip := false, thermLatched := false, xspiReleased := true } }
      ∧ exec .supplyRemoval s = .next r)
  ∧ (
    (∀ f : Fuses, f.part = State.reset.fuses.part → f.owners = [] → f.minFwSvn = 0 → f.minImageSvn = 0 → f.Extends State.reset.fuses)
    ∧ State.reset.fuses.owners.length ≤ 8 ∧ State.reset.pending = [] ∧ State.reset.memOk)

/-- R398, R397: at the rising edge of RESET_N start-up samples the straps and takes the flash as the board left it. A failed early
step halts the device with FAULT_N; otherwise the owner's key is read from the slots, a first image that verifies boots, and with none the
device enters recovery; a failed entropy source is a DEVICE event. -/
def Obligations.StartUpBootsOrRecovers : Prop :=
  ∀ (r : StartReport) (s : State), s.pins.resetLow = true →
    let u : State := { s with
      pins := { s.pins with resetLow := false, faultN := false, xspiReleased := false, mgmtAddr := 0x58 + r.mgmtAddr % 8, extestDrive := none }
      flash := { s.flash with slotA := r.flashA.getD s.flash.slotA, slotB := r.flashB.getD s.flash.slotB } }
    let v : State := { u with
      free := u.free + 1, boot := { u.boot with m0 := Config.romDigest, ownerKey := State.slotKey (s.startFuses r) u.flash, challenge := fit 32 (Config.entropy u.free 32) } }
    let w : State := match v.bootSlot with
      | none => v.enterRecovery r
      | some (b, x) => v.bootImage r b x
    ((r.strapTest = true ∨ r.fusesOk = false ∨ r.romOk = false) →
      exec (.resetNRelease r) s = .next (s.afterStart r { u with
        boot := { u.boot with halted := true }, pins := { u.pins with faultN := true } }))
    ∧ (r.strapTest = false → r.fusesOk = true → r.romOk = true →
      exec (.resetNRelease r) s = .next (s.afterStart r
        (if r.entropyOk then w else w.deviceEvent { cause := 0x35, unit := 7 })))

/-- R329, R332, R333, R398, R446: a link that comes up sends a hello at once, to the discovery group and, on a sub-port with an IPv4 address,
a copy to the IPv4 group; a link that goes down is a CORRECTED event 0x14; every HELLO_MS a hello leaves, and every LLDP_S an LLDP frame with
the sub-port's identities; a received one is recorded. -/
def Obligations.LinkAndTimersSendIdentity : Prop :=
  ∀ (sub : Nat) (s : State) (p : SubPort), s.sub? sub = some p → s.portLive = true →
    let hello := fun (u : State) =>
      let a := u.emitOn sub (.hello sub true (s.helloPayload sub))
      if allZero (s.addrOf sub).v4 then a else a.emitOn sub (.hello sub false (s.helloPayload sub))
    (s.boot.service = 1 → s.works fnPort = true →
      exec (.linkUp sub) s = .next (s.after (hello (s.setSub sub fun p => { p with up := true, helloAt := s.portTicks }))))
    ∧ (¬(s.boot.service = 1 ∧ s.works fnPort = true) →
      exec (.linkUp sub) s = .next (s.after (s.setSub sub fun p => { p with up := true })))
    ∧ (p.up = true →
      exec (.portLinkDown sub) s = .next (s.after
        ((s.setSub sub fun p => { p with up := false }).correctedEvent { cause := 0x14, unit := 4, unitIndex := sub } 1)))
    ∧ (p.up = true → s.boot.service = 1 → s.works fnPort = true →
      let now := max s.portTicks (p.helloAt + State.ticksOfMs s.cfg.peers.helloMs)
      exec (.helloTimer sub) s = .next (s.after
        (hello (({ s with portTicks := now } : State).setSub sub fun p => { p with helloAt := now }))))
    ∧ (p.up = true →
      let now := max s.portTicks (p.lldpAt + State.ticksOfMs (1000 * s.cfg.port.lldpS))
      exec (.lldpTimer sub) s = .next (s.after
        ((({ s with portTicks := now } : State).setSub sub fun p => { p with lldpAt := now }).emit
          (.lldp sub Config.lldpChassis (macBytes (macOf sub)) s.cfg.peers.selfIndex))))
    ∧ ∀ chassis portId : Bytes,
      exec (.lldpFrameRx sub chassis portId) s = .next (s.after
        (s.setSub sub fun p => { p with lldpChassis := fit 32 chassis, lldpPort := fit 32 portId }))

/-- R324 to R328: a good frame with an MWP datagram takes its bytes of the receive buffer, or is dropped under +0x28 when they do not fit;
other frames are dropped under their counter, passed on or ignored; FEC counts rise by what FEC found. With PFC on, a PFC frame for PCP
holds transmission for its quanta; zero quanta or the pause's end let what was held leave in order. A solicitation for an own address and
an echo request of at most 1,024 bytes are answered. A packet leaves in its envelope to a group at once, else to its next hop once that
neighbour is resolved: until then the neighbour is asked for and the packet waits. -/
def Obligations.FramesFillPauseAndAnswer : Prop :=
  (
    ∀ (f : Frame) (s : State) (p : SubPort), s.sub? f.sub = some p → s.portLive = true → p.up = true →
      let u := (s.count (State.subCtr f.sub 0x00) f.fecCorrected).count (State.subCtr f.sub 0x08) f.fecUncorrectable
      (∀ c, State.frameVerdict s.cfg.port f = .drop c →
        exec (.ethFrameRx f) s = .next (s.after (u.count (State.subCtr f.sub c) 1)))
      ∧ ((State.frameVerdict s.cfg.port f = .ignore ∨ State.frameVerdict s.cfg.port f = .pass) →
        exec (.ethFrameRx f) s = .next (s.after u))
      ∧ (∀ n, State.frameVerdict s.cfg.port f = .mwp n →
        (4194304 < p.rxBytes + n → exec (.ethFrameRx f) s = .next (s.after (u.count (State.subCtr f.sub 0x28) 1)))
        ∧ (p.rxBytes + n ≤ 4194304 → s.cfg.port.pfc ≠ 1 ∨ p.xoffSent = true ∨ p.rxBytes + n ≤ 3145728 →
          exec (.ethFrameRx f) s = .next (s.after (u.setSub f.sub fun p => { p with rxBytes := p.rxBytes + n })))
        ∧ (p.rxBytes + n ≤ 4194304 → s.cfg.port.pfc = 1 → p.xoffSent = false → 3145728 < p.rxBytes + n →
          exec (.ethFrameRx f) s = .next (s.after
            (((u.setSub f.sub fun p => { p with rxBytes := p.rxBytes + n, xoffSent := true }).emit (.pfc f.sub true)).count
              (State.subCtr f.sub 0x30) 1)))))
  ∧ (
    ∀ (sub : Nat) (s : State) (p : SubPort), s.sub? sub = some p →
      let resumed : State := { s.setSub sub (fun p => { p with pauseQuanta := 0, held := [] }) with out := s.out ++ p.held }
      (s.portLive = true → s.cfg.port.pfc = 1 → ∀ enable, bitAt enable s.cfg.port.pcp = true →
        exec (.pfcFrameRx sub enable 0) s = .next (s.after resumed)
        ∧ ∀ quanta, 0 < quanta →
          exec (.pfcFrameRx sub enable quanta) s = .next (s.after (s.setSub sub fun p => { p with pauseQuanta := quanta })))
      ∧ (0 < p.pauseQuanta → exec (.pfcPauseExpiry sub) s = .next (s.after resumed))
      ∧ (s.portLive = true → ∀ n : Neighbor, n.sub = sub →
        let resolved := fun (a : Bytes) => (p.awaiting.filter (·.1 == a)).foldl
          (fun (u : State) w => u.transmit sub (s.cfg.port.wrap sub n.senderMac w.2.1 w.2.2))
          (s.setSub sub fun p => { p with neighbors := (p.neighbors.filter (·.1 != a)) ++ [(a, n.senderMac)], awaiting := p.awaiting.filter (·.1 != a) })
        let reply := s.cfg.port.wrap sub n.senderMac n.sender (.neighbor sub n.v6 true n.target (macOf sub))
        (n.request = true → s.ownsAddr sub n.v6 n.target = true → allZero n.sender = false →
          exec (.neighborResolutionRx n) s = .next (s.after ((resolved n.sender).transmit sub reply)))
        ∧ (n.request = true → s.ownsAddr sub n.v6 n.target = true → allZero n.sender = true →
          exec (.neighborResolutionRx n) s = .next (s.after (s.transmit sub reply)))
        ∧ (n.request = true → s.ownsAddr sub n.v6 n.target = false → exec (.neighborResolutionRx n) s = .next (s.after s))
        ∧ (n.request = false → allZero n.target = false →
          exec (.neighborResolutionRx n) s = .next (s.after (resolved n.target))))
      ∧ (s.portLive = true → ∀ (src : Endpoint) (v6 : Bool) (data : Bytes),
        (data.length ≤ 1024 → exec (.echoRequestRx sub src v6 data) s = .next (s.after (s.emitOn sub (.echo sub src v6 data))))
        ∧ (1024 < data.length → exec (.echoRequestRx sub src v6 data) s = .next (s.after (s.count (State.subCtr sub 0x20) 1)))))
  ∧ (
    ∀ (sub : Nat) (s : State) (p : SubPort) (o : Out), s.sub? sub = some p →
      let c := s.cfg.port
      let dst := s.destOf o
      let hop := c.nextHop sub dst
      (isGroup dst = true → s.emitOn sub o = s.transmit sub (c.wrap sub (groupMac dst) dst o))
      ∧ (isGroup dst = false → ∀ mac, p.neighbors.find? (·.1 == hop) = some (hop, mac) → s.emitOn sub o = s.transmit sub (c.wrap sub mac dst o))
      ∧ (isGroup dst = false → p.neighbors.find? (·.1 == hop) = none →
        s.emitOn sub o = (s.setSub sub fun p => { p with awaiting := p.awaiting ++ [(hop, dst, o)] }).transmit sub
          (c.wrap sub (askMac hop) (askGroup hop) (.neighbor sub (isV6 hop) false hop (macOf sub)))))


/-- R348, R349: a datagram that fails a check that needs no key, names no session of its sender, or does not open, is counted at
+0x400 and nothing else; outside a session, a message of one datagram is delivered when its type may come so and RX_BYTES leaves room for
it, else counted at +0x408 (R356). -/
def Obligations.DatagramChecksBeforeUse : Prop :=
  ∀ (d : Datagram) (s : State), s.portLive = true →
    let u := s.rxDrain d.sub d.bytes.length
    let h := hdr d.bytes
    (datagramOk d.bytes = false → exec (.mwpDatagramRx d) s = .next (s.after (u.count 0x71400 1)))
    ∧ (datagramOk d.bytes = true → fld h 79 48 = 0 →
      (plainType (fld h 31 24) = false → exec (.mwpDatagramRx d) s = .next (s.after (u.count 0x71400 1)))
      ∧ (plainType (fld h 31 24) = true → bitAt h 23 = true → fld h 111 80 = 0 → fld h 143 112 = 0 → fld h 207 192 = 1 →
        allZero (d.bytes.drop (32 + fld h 45 32)) = true →
        (∀ x ∈ s.plainParts, ¬(x.1 = d.src ∧ x.2.msgId = fld h 175 144 ∧ x.2.type = fld h 31 24)) →
        (s.cfg.limits.rxBytes < s.rxHeld + fld h 45 32 → exec (.mwpDatagramRx d) s = .next (s.after (u.count 0x71408 1)))
        ∧ (s.rxHeld + fld h 45 32 ≤ s.cfg.limits.rxBytes → exec (.mwpDatagramRx d) s = .next (s.after { u with
          plainParts := u.plainParts
          delivered := u.delivered ++ [{ session := 0, src := d.src, sub := d.sub, mac := d.mac, msgId := fld h 175 144
                                         type := fld h 31 24, ctx := fld h 255 208, frags := [slice d.bytes 32 (fld h 45 32)], leat := false }] }))))
    ∧ (datagramOk d.bytes = true → fld h 79 48 ≠ 0 →
      (s.sessions.find? (fun q => q.wire == fld h 79 48 && q.peer == d.src) = none →
        exec (.mwpDatagramRx d) s = .next (s.after (u.count 0x71400 1)))
      ∧ ∀ q, s.sessions.find? (fun q => q.wire == fld h 79 48 && q.peer == d.src) = some q →
        (bitAt h 21 = q.weInitiated → exec (.mwpDatagramRx d) s = .next (s.after (u.count 0x71400 1)))
        ∧ (bitAt h 21 ≠ q.weInitiated → exec (.mwpDatagramRx d) s = .next (s.after
            (match State.opened q d.bytes with
            | none => u.count 0x71400 1
            | some (phase, p) => u.rxSession d q phase p))))

/-- R353: a datagram that times out leaves again under a new SEQ, is counted, and doubles the timeout; R352: an ACK message
acknowledges the ranges it lists and adds its CE bytes. -/
def Obligations.TimeoutResendsAckAcknowledges : Prop :=
  (∀ (sid seq : Nat) (s : State) (q : Session) (d : TxDatagram), s.session? sid = some q → q.unacked.find? (·.seq == seq) = some d →
    let u := s.atLeast (d.sentAt + State.timeoutOf q)
    exec (.retransmitTimeout sid seq) s = .next (s.after
      (((((u.withSession sid fun q => { q with unacked := q.unacked.filter (·.seq != seq), lostAny := true }).launch sid d).count
        0x71410 1)).withSession sid fun q => { q with backoff := q.backoff + 1 })))
  ∧ ∀ (m : Msg) (s : State) (d : Delivered) (q : Session) (n : Nat), s.Offers 0x05 m d q →
      n = uAt m.frags.flatten 0 1 → m.frags.flatten.length = 8 + 8 * n → n ≤ 64 →
      exec (.ack m) s = .next (s.after
        (((s.untake d).withSession m.session fun q => { q with ceAcked := q.ceAcked + uAt m.frags.flatten 4 4 }).acknowledge m.session
          fun x => inRanges x ((List.range n).map fun i => (uAt m.frags.flatten (8 + 8 * i) 4, uAt m.frags.flatten (12 + 8 * i) 4))))

/-- R354: at the end of an interval of t_min (45 us before any is measured) the window shrinks by the smoothed share of CE bytes, halves after a loss, or grows by 64 KiB,
within 4 MiB and 64 MiB, the interval's counts start again, and waiting datagrams leave as far as they fit. -/
def Obligations.WindowFollowsCongestion : Prop :=
  ∀ (sid : Nat) (s : State) (q : Session), s.session? sid = some q →
    let share : Rat := if q.ackedBytes = 0 then 0 else min 1 ((q.ceAcked : Rat) / (q.ackedBytes : Rat))
    let a : Rat := (15 * q.alpha + share) / 16
    let u := s.atLeast (q.windowAt + q.tMin.getD (State.ticksOfUs 45))
    let result := fun (w : Nat) => ((u.withSession sid fun q => { q with
      window := w, alpha := a, ackedBytes := 0, ceAcked := 0, lostAny := false, windowAt := u.portTicks }).pump sid q.queue)
    (0 < q.ceAcked → exec (.windowUpdate sid) s = .next (s.after (result (max 4194304 (((q.window : Rat) * (1 - a / 2)).floor.toNat)))))
    ∧ (q.ceAcked = 0 → q.lostAny = true → exec (.windowUpdate sid) s = .next (s.after (result (max 4194304 (q.window / 2)))))
    ∧ (q.ceAcked = 0 → q.lostAny = false → exec (.windowUpdate sid) s = .next (s.after (result (min 67108864 (q.window + 65536)))))

/-- R354: the window never leaves the range of 4 MiB to 64 MiB, nor a the range of 0 to 1. -/
def Obligations.WindowStaysInRange : Prop :=
  ∀ q : Session, 4194304 ≤ q.window → q.window ≤ 67108864 → 0 ≤ q.alpha → q.alpha ≤ 1 →
    4194304 ≤ (State.nextWindow q).1 ∧ (State.nextWindow q).1 ≤ 67108864 ∧ 0 ≤ (State.nextWindow q).2 ∧ (State.nextWindow q).2 ≤ 1

/-- R383, R384, R386: an INIT within the limits opens a handshake and is answered with an ACCEPT of a fresh session id; one whose
RANDOM_I is held is answered with the same ACCEPT; at a limit it is refused with REASON 1. One that is malformed, or comes from a
device that may not open the session, is counted at +0x408. -/
def Obligations.InitIsAnsweredOrRefused : Prop :=
  ∀ (sub : Nat) (src : Endpoint) (p : Bytes) (s : State) (d : Delivered),
    s.plainTaken? 1 sub src p = some d → s.portLive = true →
    let u := s.untake d
    let turned := ∃ i, s.deviceAt src = some i ∧ s.cfg.peers.selfIndex ≤ i
    ((p.length ≠ 1701 ∨ 4 ≤ uAt p 0 4 ∨ (bitAt (uAt p 0 4) 1 = true ∧ (turned ∨ s.takesDevices = false))) →
      exec (.sessionInit sub src p) s = .next (s.after (u.count 0x71408 1)))
    ∧ (p.length = 1701 → uAt p 0 4 < 4 → (bitAt (uAt p 0 4) 1 = true → ¬turned ∧ s.takesDevices = true) →
    let held := u.handshakes.find? fun h => !h.initiator && h.peer == src && h.randomI == slice p 4 32
    let full := 1024 ≤ u.sessions.length ∨ 64 ≤ (u.handshakes.filter fun h => !h.initiator).length
    (∀ h, held = some h → exec (.sessionInit sub src p) s = .next (s.after (u.sendPlain sub src 2 h.acceptPayload)))
    ∧ (held = none → full → exec (.sessionInit sub src p) s = .next (s.after (u.refuseHandshake sub src 0 1)))
    ∧ (held = none → ¬full → s.boot.service = 2 → s.fuses.owners = [] →
      exec (.sessionInit sub src p) s = .next (s.after ((u.count 0x71418 1).refuseHandshake sub src 0 2)))
    ∧ (held = none → ¬full → ¬(s.boot.service = 2 ∧ s.fuses.owners = []) →
      let h := u.answerHandshake sub src p
      h.id = s.nextHandshake ∧ h.initiator = false ∧ h.peer = src ∧ h.randomI = slice p 4 32 ∧ h.initPayload = p
      ∧ h.session = u.freshSession (leNat (fit 4 (Config.entropy (s.free + 3) 4))) ∧ h.acceptPayload.take 4 = leBytes 4 h.session
      ∧ exec (.sessionInit sub src p) s = .next (s.after
          (({ u with free := s.free + 4, handshakes := u.handshakes ++ [h], nextHandshake := s.nextHandshake + 1 } : State).sendPlain
            sub src 2 h.acceptPayload))))

/-- R381, R383, R385, R386: an ACCEPT that proves the listed device is answered with a CONFIRM, and a session stands that opens with the
responder's first ACK; any other is counted and its handshake discarded. A CONFIRM that proves a host opens its session with the
permissions of its certificate and sends its first ACK; one that proves a device opens a device's session; with 1,024 sessions open either
is refused with REASON 1; any other is counted and refused with REASON 2. -/
def Obligations.AcceptAndConfirmOpenSessions : Prop :=
  (
    ∀ (sub : Nat) (src : Endpoint) (p : Bytes) (s : State) (d : Delivered) (h : Handshake),
      s.plainTaken? 2 sub src p = some d → s.portLive = true →
      s.handshakes.find? (fun h => h.initiator && h.peer == src && h.acceptPayload == []) = some h →
      let u := s.untake d
      match u.acceptedBy h p with
      | none => exec (.sessionAccept sub src p) s = .next (s.after ((u.count 0x71418 1).discardHandshake h))
      | some (c, isA) =>
          let h' := State.acceptedHandshake h p isA s.portTicks
          let q := State.openingSession h (u.localId (uAt p 0 4)) sub p c s.portTicks
          q.wire = uAt p 0 4 ∧ q.dev = c.index ∧ q.host = false ∧ q.opened = false ∧ q.txSeq = 1 ∧ q.txMsg = 1
          ∧ exec (.sessionAccept sub src p) s = .next (s.after
              (({ u with handshakes := u.handshakes.map (fun x => if x.id == h.id then h' else x), sessions := u.sessions ++ [q] } : State).sendPlain
                sub src 3 (State.confirmFor h p))))
  ∧ (
    ∀ (sub : Nat) (src : Endpoint) (p : Bytes) (s : State) (d : Delivered) (h : Handshake),
      s.plainTaken? 3 sub src p = some d → s.portLive = true →
      s.handshakes.find? (fun h => !h.initiator && h.peer == src && h.session == uAt p 0 4) = some h →
      let v := s.untake d
      let u : State := { v with handshakes := v.handshakes.filter (·.id != h.id) }
      match v.confirmedBy h p with
      | none =>
          let w := (u.count 0x71418 1).refuseHandshake sub src h.session 2
          exec (.sessionConfirm sub src p) s = .next (s.after (match s.deviceAt src with
            | none => w
            | some dev => w.discardHandshake { h with dev }))
      | some x => if 1024 ≤ u.sessions.length then exec (.sessionConfirm sub src p) s = .next (s.after (u.refuseHandshake sub src h.session 1))
        else match x with
        | .host perms =>
          let q : Session := { State.confirmedSession h sub p s.portTicks with perms }
          q.wire = h.session ∧ q.host = true ∧ q.opened = true ∧ q.txSeq = 1
          ∧ exec (.sessionConfirm sub src p) s = .next (s.after
              (({ u with
                  sessions := u.sessions ++ [q]
                  peers := u.peers.map fun e => if e.2.role == 0 && e.2.host == some src && e.2.state != 0 then
                      (e.1, { e.2 with session := h.session, state := if e.2.state == 2 then 3 else e.2.state }) else e } : State).sendAck
                h.session))
        | .device c key =>
          let q : Session := { State.confirmedSession h sub p s.portTicks with host := false, dev := c.index, role := c.role + 1 }
          exec (.sessionConfirm sub src p) s = .next (s.after
            ((({ u with sessions := u.sessions ++ [q] } : State).sendAck h.session).deviceJoins h.session c (Config.keyIsA key))))


/-- R351, R386: a CLOSE within its session ends it, a CLOSE outside one its handshake; a handshake message is sent again, unchanged,
and its interval doubles up to 1 s; 2 s without progress discard the handshake; a CLOSE not acknowledged for 2 s ends its session. -/
def Obligations.SessionsEndAndHandshakesResend : Prop :=
  (∀ (src : Endpoint) (sid : Nat) (p : Bytes) (s : State) (d : Delivered),
    s.delivered.find? (fun d => d.session == sid && d.type == 4 && d.src == src && d.frags.flatten == p) = some d →
    s.portLive = true → p.length = 8 →
    (∀ q, sid ≠ 0 → s.session? sid = some q → uAt p 0 4 = q.wire →
      exec (.sessionClose src sid p) s = .next (s.after ((s.untake d).dropSession sid)))
    ∧ (∀ h, sid = 0 → s.handshakes.find? (fun h => h.peer == src && (h.session == uAt p 0 4 || h.initiator)) = some h →
      exec (.sessionClose src sid p) s = .next (s.after ((s.untake d).discardHandshake h))))
  ∧ (∀ (i : Nat) (s : State) (h : Handshake), s.handshakes.find? (fun h => h.id == i && h.initiator) = some h →
    let now := max s.portTicks (h.lastSent + h.interval)
    let h' : Handshake := { h with lastSent := now, interval := min (2 * h.interval) 156250000 }
    let u : State := { s with portTicks := now, handshakes := s.handshakes.map fun x => if x.id == i then h' else x }
    (h.confirmPayload = [] → exec (.handshakeResend i) s = .next (s.after (u.sendPlain h.sub h.peer 1 h.initPayload)))
    ∧ (h.confirmPayload ≠ [] → exec (.handshakeResend i) s = .next (s.after (u.sendPlain h.sub h.peer 3 h.confirmPayload))))
  ∧ (∀ (i : Nat) (s : State) (h : Handshake), s.handshakes.find? (·.id == i) = some h →
    exec (.handshakeTimeout i) s = .next (s.after
      (({ s with portTicks := max s.portTicks (h.started + 312500000) } : State).discardHandshake h)))
  ∧ ∀ (sid t seq : Nat) (s : State) (q : Session), s.session? sid = some q → q.closing = some (t, seq) →
    exec (.closeAckTimeout sid) s = .next (s.after
      (({ s with portTicks := max s.portTicks (t + 312500000) } : State).dropSession sid))


/-- R357, R382, R401, R402, R414: every host message that the gate does not let pass is answered with its refusal (a durable write's under its WRITE_ID), and has no other
effect: NOT_PERMITTED for a session that may not send it, REFUSED_STOPPED in recovery, in the failed state, and with PORT stopped, but
for the messages that each of these still takes. -/
def Obligations.GateRefusesHostMessages : Prop :=
  ∀ (c : Instr) (type : Nat) (m : Msg) (writes : Bool) (s : State) (d : Delivered) (q : Session),
    hostRow c = some (type, m, writes) → s.Offers type m d q → rowTakes c d.frags.flatten = true →
    (durableType type = true → s.earlierWrite q d = false) →
    let wid := if durableType type then uAt d.frags.flatten 0 8 else 0
    let answer := fun (o : Machine.Outcome) => exec c s = .next (s.after ((s.untake d).reply q.id m.msgId o wid))
    let permitted := q.host = true ∧ bitAt q.perms (permBit type writes) = true
    (¬permitted → answer refNotPermitted)
    ∧ (permitted → s.boot.service = 2 → type ≠ 0x53 → ¬(type = 0x40 ∧ writes = false) → answer refStopped)
    ∧ (permitted → s.boot.service = 3 → ¬(type = 0x40 ∧ writes = false) → answer refStopped)
    ∧ (permitted → s.boot.service = 1 → s.runs fnPort = false → type ≠ 0x40 → type ≠ 0x50 → type ≠ 0x51 → type ≠ 0x52 →
      answer refStopped)

/-- R268: a SUBMIT, and a HANDLE_RETAIN whose final stage is a PREFILL stage that retains, is checked in the order of R268; the first check
that fails is its answer; past all of them it is admitted, and the reply's DETAIL is its entry. -/
def Obligations.SubmitChecksThenAdmits : Prop :=
  ∀ (retain : Bool) (m : Msg) (s : State) (d : Delivered) (q : Session),
    s.Admits (if retain then 0x38 else 0x10) m false d q →
    let c : Instr := if retain then .handleRetain m else .submit m
    let v := s.untake d
    let u : State := if d.leat then { v with intakePlain := [] } else v
    let answer := fun (o : Machine.Outcome) => exec c s = .next (s.after (u.reply q.id d.msgId o 0))
    (s.runs (fnHopper + fnPools) = false → answer refStopped)
    ∧ (s.runs (fnHopper + fnPools) = true → s.cfg.twin.role ≠ 0 → s.twin.state = 1 → answer refTwinState)
    ∧ (s.runs (fnHopper + fnPools) = true → ¬(s.cfg.twin.role ≠ 0 ∧ s.twin.state = 1) →
      (readSubmit d.frags.flatten = none → answer refMalformed)
      ∧ ∀ x, readSubmit d.frags.flatten = some x →
        (s.plan? x.plan = none → answer refNotHeld)
        ∧ ∀ pl, s.plan? x.plan = some pl →
          let xs := (pathOf pl x.entry x.final).filterMap (pl.stages[·]?)
          let retains := (pl.stages[x.final]?).any (·.kind == 4) && (x.handle.map fun h => bitAt h.2.2 1).getD false
          let stopped := s.runs (stagesNeed xs) = false ∨ xs.any (fun y => ((State.bindStage s.cfg.pools y).map (bitAt s.power.gate)).getD false) = true
          (retain = true → retains = false → answer refMalformed)
          ∧ ((retain = true → retains = true) →
            (stopped → answer refStopped)
            ∧ (¬stopped → ∀ o, u.checkObjects x pl xs = some o → answer o)
            ∧ (¬stopped → u.checkObjects x pl xs = none →
              (u.shareRefused x xs = true → answer (refuse stShare 0))
              ∧ (u.shareRefused x xs = false → u.entryRefused xs = true → answer (refuse stCapacity 0))
              ∧ (u.shareRefused x xs = false → u.entryRefused xs = false → u.handlesFull x = true → answer refLimit)
              ∧ (u.shareRefused x xs = false → u.entryRefused xs = false → u.handlesFull x = false →
                exec c s = .next (s.after (match u.admitNow d x pl (pathOf pl x.entry x.final) with
                  | .error e => e.2.reply q.id d.msgId e.1 0
                  | .ok (r, v) => (v.reply q.id d.msgId { detail := r } 0).afterAdmission r x (xs.any (·.repeats))))))))

/-- R265: the entry that an admitted request takes is the lowest that is FREE. -/
def Obligations.AdmissionTakesLowestFreeEntry : Prop :=
  ∀ s : State, (∀ p ∈ s.reqs, p.1 ≠ s.freeEntry) ∧ ∀ i < s.freeEntry, ∃ p ∈ s.reqs, p.1 = i

/-- R271, R362: CANCEL of a request that its session submitted and that has not ended ends it CANCELLED, and of one that has ended is
answered with its status; any other entry is NOT_HELD. R289: HANDLE_RELEASE frees a held handle, and stops a retention to come. -/
def Obligations.CancelAndReleaseEndTheirObject : Prop :=
  (∀ (m : Msg) (s : State) (d : Delivered) (q : Session) (r : Nat), s.Admits 0x12 m false d q →
    d.frags.flatten.length = 16 → uAt d.frags.flatten 0 2 = r → r < 4096 → allZero (d.frags.flatten.drop 2) = true →
    let u := s.untake d
    (∀ x, s.req? r = some x → x.session = q.id → x.status = none →
      exec (.cancel m) s = .next (s.after ((u.endRequest r stCancelled).reply q.id d.msgId { status := stCancelled } 0)))
    ∧ (∀ x st, s.req? r = some x → x.session = q.id → x.status = some st →
      exec (.cancel m) s = .next (s.after (u.reply q.id d.msgId { status := st } 0)))
    ∧ ((∀ x, s.req? r = some x → x.session ≠ q.id) → exec (.cancel m) s = .next (s.after (u.reply q.id d.msgId refNotHeld 0))))
  ∧ ∀ (m : Msg) (s : State) (d : Delivered) (q : Session), s.Admits 0x39 m false d q → d.frags.flatten.length = 8 →
    s.runs fnServe = true →
    let u := s.untake d
    let h := uAt d.frags.flatten 0 8
    let pendingOf := s.reqs.find? fun r => r.2.retain && !r.2.retained && !r.2.retainCancelled && r.2.status.isNone && r.2.prefixHandle == h
    (∀ x, s.prefixes.find? (·.handle == h) = some x →
      exec (.handleRelease m) s = .next (s.after ((u.dropPrefix x false).reply q.id d.msgId {} 0)))
    ∧ (s.prefixes.find? (·.handle == h) = none → ∀ r, pendingOf = some r →
      exec (.handleRelease m) s = .next (s.after
        ((u.setReq r.1 fun x => { x with retainCancelled := true }).reply q.id d.msgId {} 0)))
    ∧ (s.prefixes.find? (·.handle == h) = none → pendingOf = none →
      exec (.handleRelease m) s = .next (s.after (u.reply q.id d.msgId refNotHeld 0)))

/-- R367, R472 to R476: an INSPECT read returns the status space as it stands; a write reaches SCRUB_HOURS, which takes 1 to 168, and
COUNTER_CLEAR, whose groups fall to 0; a write of any other register or bit is NOT_PERMITTED. Clearing clears the counters of the selected
groups and no others, and never WHEEL_EVICT_MAX. -/
def Obligations.InspectReadsWritesAndClears : Prop :=
  (
    ∀ (m : Msg) (s : State) (d : Delivered) (q : Session) (w : Nat), w = uAt d.frags.flatten 0 16 →
      let p := d.frags.flatten
      let u := s.untake d
      (s.Admits 0x40 m false d q → p.length = 16 → fld w 63 48 = 0 → fld w 127 80 = 0 → fld w 47 0 % 8 = 0 → fld w 79 64 % 8 = 0 →
        let n := if fld w 79 64 = 0 then 65536 else fld w 79 64
        exec (.inspectRead m) s = .next (s.after (u.reply q.id m.msgId { data := u.statusBytes (fld w 47 0) n } 0)))
      ∧ (s.Admits 0x40 m true d q → State.isWrite p = true → State.writeRow p = 0 → p.length = 32 → fld w 63 48 = 0 → fld w 127 82 = 0 →
        fld w 79 64 = 0 → fld w 47 0 % 8 = 0 → (fld w 47 0 ≠ 0x100 ∨ maskWithout (uAt p 24 8) (0xFF * 2 ^ 40 ||| 0xFF) ≠ 0) →
        exec (.inspectWrite m) s = .next (s.after (u.reply q.id m.msgId refNotPermitted 0)))
      ∧ (s.Admits 0x40 m true d q → State.isWrite p = true → p.length = 32 → fld w 127 82 = 0 → fld w 79 48 = 0 → fld w 47 0 = 0x100 →
        maskWithout (uAt p 24 8) (0xFF * 2 ^ 40 ||| 0xFF) = 0 →
        let hours := (fld (uAt p 16 8) 47 40 &&& fld (uAt p 24 8) 47 40) ||| maskWithout s.tele.scrubHours (fld (uAt p 24 8) 47 40)
        let clear := uAt p 16 8 &&& uAt p 24 8 &&& 0xFF
        (uAt p 24 8 &&& 0xFF * 2 ^ 40 ≠ 0 → clear < 64 → 1 ≤ hours → hours ≤ 168 →
          exec (.scrubHoursWrite m) s = .next (s.after
            ((({ u with tele := { u.tele with scrubHours := hours } } : State).clearCounters clear).reply q.id m.msgId {} 0)))
        ∧ (uAt p 24 8 &&& 0xFF * 2 ^ 40 ≠ 0 → clear < 64 → ¬(1 ≤ hours ∧ hours ≤ 168) →
          exec (.scrubHoursWrite m) s = .next (s.after (u.reply q.id m.msgId refCheck 0)))
        ∧ (uAt p 24 8 &&& 0xFF * 2 ^ 40 = 0 → uAt p 24 8 &&& 0xFF ≠ 0 → clear < 64 →
          exec (.counterClear m) s = .next (s.after ((u.clearCounters clear).reply q.id m.msgId {} 0)))))
  ∧ (
    ∀ (s : State) (sel off : Nat),
      ((∃ g < 6, bitAt sel g = true ∧ State.inGroup g off = true) → (s.clearCounters sel).counter off = 0)
      ∧ ((∀ g < 6, bitAt sel g = true → State.inGroup g off = false) → (s.clearCounters sel).counter off = s.counter off)
      ∧ ∀ pool < 8, (s.clearCounters sel).counter (State.poolCtr pool 0xB0) = s.counter (State.poolCtr pool 0xB0))


/-- R413, R425: POWER, STOP, CONFIG and RESTART are handled one at a time in their order of arrival. With none in progress the message is
handled at once; otherwise it waits behind the others, and goes on when what is in progress has ended. -/
def Obligations.ControlMessagesTakeTurns : Prop :=
  ∀ (c : Instr) (type : Nat) (m : Msg) (s : State) (d : Delivered) (q : Session),
    hostRow c = some (type, m, false) → type ∈ [0x48, 0x50, 0x51, 0x52] → s.Admits type m false d q →
    rowTakes c d.frags.flatten = true →
    let u := s.untake d
    let x : CtlOp := { session := q.id, msgId := m.msgId, type, payload := d.frags.flatten, arrived := s.portTicks }
    (s.fns.current = none → s.fns.waiting = [] → exec c s = .next (s.after (u.startCtl x).settleCurrent))
    ∧ (exec c s = .next (s.after (State.settle { u with fns := { u.fns with waiting := u.fns.waiting ++ [x] } })))

/-- R410, R411: a STOP with ABORT ends at once every request in flight that needs a stopped function, CANCELLED; one without lets them run on;
either stops the named functions and all that need them, and clears their work and answers when none is left. With PORT all functions
stop, with HOPPER all but PORT and TWIN, with POOLS all of its own. -/
def Obligations.StopStopsWhatNeedsIt : Prop :=
  (
    ∀ (m : Msg) (s : State) (d : Delivered) (q : Session) (w : Nat), s.Admits 0x50 m false d q → s.fns.current = none →
      s.fns.waiting = [] → w = uAt d.frags.flatten 0 16 → d.frags.flatten.length = 16 → fld w 127 9 = 0 →
      let u := s.untake d
      let stop := stopClosure (fld w 7 0) &&& s.fns.running
      let x : CtlOp := { session := q.id, msgId := m.msgId, type := 0x50, payload := d.frags.flatten, functions := stop, arrived := s.portTicks }
      let finish := fun (v : State) => if v.anyNeeds stop then v else (v.clearWork stop).finishCurrent {}
      (bitAt w 8 = false →
        exec (.stopDrain m) s = .next (s.after (finish
          { u with fns := { u.fns with running := maskWithout s.fns.running stop, current := some x } })))
      ∧ (bitAt w 8 = true →
        let v := ((({ u with fns := { u.fns with running := maskWithout s.fns.running stop, current := some { x with functions := 0 } } } : State).endRequests
          (fun r => r.needs &&& stop != 0) stCancelled).clearWork stop)
        exec (.stopAbort m) s = .next (s.after (finish { v with fns := { v.fns with current := some x } }))))
  ∧ (
    ∀ m < 256,
      stopClosure m < 256 ∧ m &&& stopClosure m = m ∧ stopClosure (stopClosure m) = stopClosure m
      ∧ (∀ f < 8, fnNeeds f &&& stopClosure m ≠ 0 → bitAt (stopClosure m) f = true)
      ∧ (m &&& 7 = 0 → stopClosure m = m))


/-- R415, R416: a CONFIG whose section is well formed and fits the others replaces it in the running copy when the functions that depend
on it have stopped, and is BUSY otherwise; with LIVE_ONLY it may change LIVE fields alone. -/
def Obligations.ConfigReplacesSection : Prop :=
  ∀ (m : Msg) (s : State) (d : Delivered) (q : Session) (w : Nat), s.Admits 0x51 m false d q → s.fns.current = none →
    s.fns.waiting = [] → w = uAt d.frags.flatten 0 16 → 16 ≤ d.frags.flatten.length → fld w 127 5 = 0 → fld w 3 0 < 10 → fld w 3 0 ≠ 4 →
    let p := d.frags.flatten
    let u := s.untake d
    let answer := fun (c : Instr) (o : Machine.Outcome) => exec c s = .next (s.after (u.reply q.id m.msgId o 0))
    (bitAt w 4 = false →
      (s.fns.running &&& State.dependents (fld w 3 0) ≠ 0 → answer (.configSection m) refBusy)
      ∧ (s.fns.running &&& State.dependents (fld w 3 0) = 0 →
        (∀ e, s.parseSection (fld w 3 0) (p.drop 16) = .error e → answer (.configSection m) e.outcome)
        ∧ ∀ n, s.parseSection (fld w 3 0) (p.drop 16) = .ok n →
          let x : CtlOp := { session := q.id, msgId := m.msgId, type := 0x51, payload := p, arrived := s.portTicks }
          let v := (({ u with cfg := n, fns := { u.fns with current := some x } } : State).extendM3 2 p)
          let t := (if fld w 3 0 = 5 then v.listPeers else v).refreshCatalogue s.cfg
          exec (.configSection m) s = .next (s.after (t.finishCurrent {}).settleCurrent)))
    ∧ (bitAt w 4 = true →
      (∀ e, s.parseSection (fld w 3 0) (p.drop 16) = .error e → answer (.configLive m) e.outcome)
      ∧ ∀ n, s.parseSection (fld w 3 0) (p.drop 16) = .ok n →
        (State.withLive s.cfg n ≠ n → answer (.configLive m) refWrongState)
        ∧ (State.withLive s.cfg n = n →
          let x : CtlOp := { session := q.id, msgId := m.msgId, type := 0x51, payload := p, arrived := s.portTicks }
          let v := ({ u with cfg := n, fns := { u.fns with current := some x } } : State).extendM3 2 p
          let v := if fld w 3 0 = 2 then v.newShareWeights s.cfg else v
          exec (.configLive m) s = .next (s.after
            (if fld w 3 0 = 2 ∧ v.weightsSettled = false then v else v.finishCurrent {}).settleCurrent)))

/-- R412, R417, R418, R450: RESTART of functions that nothing recovers, each with what it needs running or named with it, starts them, and
POOLS at the P-level of the running copy; else it is WRONG_STATE. -/
def Obligations.RestartStartsFunctions : Prop :=
  ∀ (m : Msg) (s : State) (d : Delivered) (q : Session) (w : Nat), s.Admits 0x52 m false d q → s.fns.current = none →
    s.fns.waiting = [] → w = uAt d.frags.flatten 0 16 → d.frags.flatten.length = 16 → fld w 127 8 = 0 →
    let u := s.untake d
    let f := fld w 7 0
    let new := maskWithout f s.fns.running
    let x : CtlOp := { session := q.id, msgId := m.msgId, type := 0x52, payload := d.frags.flatten, functions := if bitAt s.fns.running 0 then 0 else 1
                       arrived := s.portTicks }
    let may := f &&& s.fns.recovering = 0 ∧ State.restartOk s.fns.running f = true
      ∧ (bitAt new 2 = true → s.power.state = 0 ∧ s.power.arraysClocked = true)
    (¬may → exec (.restart m) s = .next (s.after (u.reply q.id m.msgId refWrongState 0)))
    ∧ (may →
      let v := (({ u with fns := { u.fns with running := s.fns.running ||| f, current := some x } } : State).extendM3 3 d.frags.flatten)
      let r := s.cfg.mode.vals s.fuses.part
      let v := if bitAt new 2 && s.power.pLevel != r.pLevel then v.emit (.avs r.pLevel) else v
      let v := if bitAt new 2 then { v with power := { v.power with
        pLevel := r.pLevel, cap := r.cap, spreadArith := s.cfg.power.arithSpread, spreadMesh := s.cfg.power.meshSpread } } else v
      let v := if bitAt new 7 then v.enterSolo else v
      exec (.restart m) s = .next (s.after ((v.startWork new).finishCurrent {}).settleCurrent))

/-- R411, R425 to R430: a POWER that R425 refuses is answered so; one to IDLE or STANDBY from another state, of no other change, is under way
until POWER_TRANSITION_DONE; OFF_PREP answers, then says farewell; the divider switches when the new voltage stands; a pool whose tiles
passed their self-test leaves the gated pools; requests that outlast DRAIN_MS end CANCELLED. -/
def Obligations.PowerAndGatingTransitions : Prop :=
  (
    ∀ (m : Msg) (s : State) (d : Delivered) (q : Session) (w : Nat), s.Admits 0x48 m false d q → s.fns.current = none →
      s.fns.waiting = [] → w = uAt d.frags.flatten 0 16 → d.frags.flatten.length = 16 → fld w 7 6 = 0 → fld w 127 32 = 0 →
      let u := s.untake d
      let x : CtlOp := { session := q.id, msgId := m.msgId, type := 0x48, payload := d.frags.flatten, arrived := s.portTicks }
      (∀ o, s.powerRefusal w = some o → exec (.power m) s = .next (s.after (u.reply q.id m.msgId o 0)))
      ∧ (s.powerRefusal w = none → fld w 2 0 ∈ [1, 2] → fld w 2 0 ≠ s.power.state → fld w 15 8 = s.power.gate → fld w 31 16 = 0 →
        exec (.power m) s = .next (s.after { u with
          power := { u.power with newLevel := none, target := some (fld w 2 0), draining := [], ungating := [] }
          fns := { u.fns with current := some x } })))
  ∧ (
    (∀ (s : State) (st : Nat), s.power.target = some st → st ≠ 3 →
      let u := if st = 2 then s.powerDownTiles (fun _ => true) else if s.power.state = 2 then s.zeroTiles else s
      exec (.powerTransitionDone none) s = .next (s.after (State.settle { u with power := { u.power with
        state := st, target := none, arraysClocked := st == 0, thermalHold := if st = 0 then false else u.power.thermalHold } })))
    ∧ (∀ (s : State) (c : CtlOp), s.power.target = some 3 → s.fns.current = some c →
      let e : State := { s with power := { s.power with state := 3, target := none, arraysClocked := false } }
      let u := e.zeroHbm.powerDownTiles fun _ => true
      exec (.powerTransitionDone none) s = .next (s.after
        ((({ u with fns := { u.fns with current := none } } : State).reply c.session c.msgId {} 0).goQuiet)))
    ∧ (∀ (s : State) (st t : Nat), s.power.target = some st → s.power.state = 2 →
      exec (.powerTransitionDone (some t)) s = .next (s.after (s.zeroTiles.deviceEvent { cause := 0x3A, unit := 0, unitIndex := t })))
    ∧ (∀ (s : State) (n : Nat), s.power.newLevel = some n →
      exec .plevelVoltageReached s = .next (s.after (State.settle { s with power := { s.power with pLevel := n, newLevel := none } })))
    ∧ (∀ (s : State) (pool : Nat), pool ∈ s.power.ungating →
      exec (.poolUngateReady pool none) s = .next (s.after (State.settle (({ s with power := { s.power with
        gate := maskWithout s.power.gate (2 ^ pool), ungating := s.power.ungating.filter (· != pool) } } : State).startWork 0)))
      ∧ ∀ t, exec (.poolUngateReady pool (some t)) s = .next (s.after (s.deviceEvent { cause := 0x3A, unit := 0, unitIndex := t })))
    ∧ (∀ (s : State) (pool : Nat) (x : Nat × Nat), s.power.draining.find? (·.1 == pool) = some x →
      exec (.poolGateDrainTimeout pool) s = .next (s.after (State.settle
        (({ s with portTicks := max s.portTicks (x.2 + State.ticksOfMs s.cfg.limits.drainMs) } : State).endRequests (State.boundTo pool) stCancelled))))
    ∧ ∀ (s : State) (c : CtlOp), s.fns.current = some c → c.type = 0x50 → bitAt (uAt c.payload 0 16) 8 = false →
      exec .stopDrainTimeout s = .next (s.after (State.settle
        (({ s with portTicks := max s.portTicks (c.arrived + State.ticksOfMs s.cfg.limits.drainMs) } : State).endRequests
          (fun r => r.needs &&& c.functions != 0) stCancelled))))


/-- R400, R419, R461: an image chunk that follows the one before it (or is the first, of a newer image) is programmed into a slot that the
device did not boot; the header goes in last, with the last chunk, and the signatures are checked then (an image that fails is AUTH). A chunk changes the flash alone and
never the slot that the device booted, outside recovery, and a slot whose image is not complete holds no header. -/
def Obligations.ImageWriteNeedsWholeImage : Prop :=
  (∀ (m : Msg) (s : State) (d : Delivered) (q : Session), s.Admits 0x53 m false d q →
    let r := s.imageChunk d.frags.flatten
    exec (.imageWrite m) s = .next (s.after ((({ s.untake d with flash := r.1 } : State).reply q.id m.msgId r.2 0))))
  ∧ (∀ (m : Msg) (s : State) (d : Delivered) (q : Session) (w : Nat), s.Admits 0x53 m false d q →
    let p := d.frags.flatten
    w = uAt p 0 16 → 16 ≤ p.length → fld w 31 2 = 0 → fld w 127 96 = 0 → fld w 95 64 ≤ 268435456 →
    fld w 63 32 + (p.drop 16).length ≤ fld w 95 64 → (s.boot.service = 2 ∨ s.boot.slot ≠ fld w 0 0) →
    let b := fld w 0 0
    let off := fld w 63 32
    let total := fld w 95 64
    let c := p.drop 16
    let old := (State.slotOf s.flash b).1
    let answer := fun (o : Machine.Outcome) (x : Bytes × Option (Nat × Nat × Bytes)) => exec (.imageWrite m) s = .next (s.after
      (({ s.untake d with flash := State.setSlot s.flash b x } : State).reply q.id m.msgId o 0))
    (off = 0 → 64 ≤ c.length → (s.boot.service = 2 ∨ s.boot.imageSeq < imageSeq (c.take 64)) → bitAt w 1 = false →
      answer {} (State.program (State.program old 0 (List.replicate 64 0xFF)) 64 (c.drop 64), some (c.length, total, c.take 64)))
    ∧ ∀ head, 0 < off → (State.slotOf s.flash b).2 = some (off, total, head) →
      (bitAt w 1 = false → answer {} (State.program old off c, some (off + c.length, total, head)))
      ∧ (bitAt w 1 = true → off + c.length = total →
        let img := State.program (State.program old off c) 0 head
        answer (if (signaturesOk s.fuses (img.take total)).isSome = true then {} else refAuth) (img, none)))
  ∧ (∀ (s : State) (p : Bytes) (b : Nat), b < 2 → s.boot.service ≠ 2 → s.boot.slot = b →
    State.slotOf (s.imageChunk p).1 b = State.slotOf s.flash b)
  ∧ ∀ (s : State) (p : Bytes) (b : Nat), fld (uAt p 0 16) 0 0 = b → fld (uAt p 0 16) 63 32 = 0 →
    (s.imageChunk p).1 ≠ s.flash → (bitAt (uAt p 0 16) 1 = false ∨ (s.imageChunk p).2 = refIncomplete) →
    headerOk (State.slotOf (s.imageChunk p).1 b).1 = false


/-- R343, R345, R356, R357: a durable write that is next in its session is applied at once by a device that stands alone, or by a twin
that holds its object's order token; of a WRITE_ID that is remembered the same outcome is answered again and nothing applied, and one whose
WRITE_ID is still under way waits for that write's outcome (R358; which writes those are, log entry 151). -/
def Obligations.DurableWriteAppliedOnce : Prop :=
  ∀ (c : Instr) (type : Nat) (m : Msg) (s : State) (d : Delivered) (q : Session),
    hostRow c = some (type, m, false) → durableType type = true → s.Admits type m false d q → rowTakes c d.frags.flatten = true →
    (s.Applies type d q → exec c s = .next (s.after ((s.untake d).performWrite (writeOf type d q))))
    ∧ (s.earlierWrite q d = false → 8 ≤ d.frags.flatten.length → s.runs (writeFn type d.frags.flatten) = true →
        ¬(s.cfg.twin.role ≠ 0 ∧ (s.twin.state = 0 ∨ s.runs fnTwin = false)) →
        let u := s.untake d
        (s.writePending (uAt d.frags.flatten 0 8) = true →
          exec c s = .next (s.after { u with twin := { u.twin with repeats := u.twin.repeats ++ [writeOf type d q] } }))
        ∧ ∀ o, s.writePending (uAt d.frags.flatten 0 8) = false → s.remembered (uAt d.frags.flatten 0 8) = some o →
          exec c s = .next (s.after (u.reply q.id d.msgId o (uAt d.frags.flatten 0 8))))

/-- R342, R343, R410: a durable write whose function is stopped is REFUSED_STOPPED; of a SOLO twin, or one whose TWIN function is stopped,
TWIN_STATE; a SYNCING twin forwards it to its partner; a PAIRED twin without the token asks for it and lets the write wait. -/
def Obligations.DurableWriteWaitsForToken : Prop :=
  ∀ (c : Instr) (type : Nat) (m : Msg) (s : State) (d : Delivered) (q : Session),
    hostRow c = some (type, m, false) → durableType type = true → s.Admits type m false d q → rowTakes c d.frags.flatten = true →
    s.earlierWrite q d = false → 8 ≤ d.frags.flatten.length →
    let u := s.untake d
    let w := writeOf type d q
    let twin := s.cfg.twin.role ≠ 0
    let runs := s.runs (writeFn type d.frags.flatten)
    let fresh := s.remembered w.writeId = none ∧ s.writePending w.writeId = false
    (runs = false → exec c s = .next (s.after (u.reply q.id d.msgId refStopped w.writeId)))
    ∧ (runs = true → twin → (s.twin.state = 0 ∨ s.runs fnTwin = false) →
      exec c s = .next (s.after (u.reply q.id d.msgId refTwinState w.writeId)))
    ∧ (runs = true → twin → s.twin.state = 1 → s.runs fnTwin = true → fresh →
      exec c s = .next (s.after
        (({ u with twin := { u.twin with forwarded := u.twin.forwarded ++ [w] } } : State).sendTwin 3 w.kind w.obj 0 w.writeId w.payload)))
    ∧ (runs = true → twin → s.twin.state = 2 → s.runs fnTwin = true → fresh → s.holdsToken w.kind w.obj = false →
      (∀ x ∈ s.twin.waiting, ¬(x.kind = w.kind ∧ x.obj = w.obj)) →
      exec c s = .next (s.after
        (({ u with twin := { u.twin with waiting := u.twin.waiting ++ [w] } } : State).sendTwin 1 w.kind w.obj 0 w.writeId [])))

/-- R198, R200, R249: TABLE_SWITCH makes a READY or retired version of a table or store its current one, and what was current is retired;
TABLE_RELEASE marks a version that is not current, and its memory goes with the last request bound to it. -/
def Obligations.SwitchAndReleaseVersions : Prop :=
  ∀ (s : State) (w : Write) (v : TableVer) (y : StoreVer), w.payload.length = 16 → fld (uAt w.payload 12 4) 31 10 = 0 →
    let id := fld (uAt w.payload 12 4) 8 0
    let ver := uAt w.payload 8 4
    (bitAt (uAt w.payload 12 4) 9 = false → s.table? id ver = some v →
      (v.released = false → (v.state = 1 ∨ v.state = 3) →
        (s.applyTableSwitch w) = (({ s with tables := s.tables.map fun x =>
          if x.table == id && x.version == ver then { x with state := 2 } else if x.table == id && x.state == 2 then { x with state := 3 } else x } :
          State).bumpObjects, some ({}, [], w)))
      ∧ (v.released = true ∨ v.state = 0 ∨ v.state = 2 → s.applyTableSwitch w = (s, some (refWrongState, [], w)))
      ∧ (v.state = 2 → s.applyTableRelease w = (s, some (refWrongState, [], w)))
      ∧ (v.state ≠ 2 → v.waiting = [] →
        s.applyTableRelease w = (((s.setTable { v with released := true, waiting := [] }).bumpObjects).reapStores, some ({}, [], w))))
    ∧ (bitAt (uAt w.payload 12 4) 9 = true → s.store? id ver = some y →
      (y.released = false → (y.state = 1 ∨ y.state = 3) →
        (s.applyTableSwitch w) = (({ s with stores := s.stores.map fun x =>
          if x.store == id && x.version == ver then { x with state := 2 } else if x.store == id && x.state == 2 then { x with state := 3 } else x } :
          State).bumpObjects, some ({}, [], w)))
      ∧ (y.state = 2 → s.applyTableRelease w = (s, some (refWrongState, [], w)))
      ∧ (y.state ≠ 2 →
        s.applyTableRelease w = (((s.setStore { y with released := true }).bumpObjects).reapStores, some ({}, [], w))))

/-- R196, R197, R249: a TABLE_WRITE that is refused leaves the state as it was, and none changes a version that is READY, current, retired
or released. -/
def Obligations.RefusedTableWriteChangesNothing : Prop :=
  ∀ (s : State) (t : TableCfg) (c : StoreCfg) (m : TableMsg) (body : Bytes) (o : Machine.Outcome),
    ((s.writeTable t m body).2 = some o → o ≠ {} → (s.writeTable t m body).1 = s)
    ∧ ((s.writeStore c m body).2 = some o → o ≠ {} → (s.writeStore c m body).1 = s)
    ∧ (∀ v, s.table? t.id m.version = some v → (v.state ≠ 0 ∨ v.released = true) →
      ∃ o, s.writeTable t m body = (s, some o) ∧ o ≠ {})
    ∧ ∀ v, s.store? c.id m.version = some v → (v.state ≠ 0 ∨ v.released = true) → ∃ o, s.writeStore c m body = (s, some o) ∧ o ≠ {}

/-- R161, R166, R215, R216, R364: a HOT_SET that passes its checks waits for its installation, and the one that waited before it is
SUPERSEDED; the installation takes it once no request is bound to the half it takes and the refresh time has passed: this device's rows are
placed, the others' asked for, and without others it takes effect at once. A merge asked for
while one is due or running, or a merged version waits for its switch, is DONE; with no version there is nothing to merge; without a Wheel
pool it stays due (the model's choice, log entry 52); one that the memory does not suffice for is refused and counted. -/
def Obligations.HotSetsAndMergesStartInTurn : Prop :=
  (
    (∀ (s : State) (w : Write) (t : TableCfg) (n : Nat) (rows : List Nat), n = uAt w.payload 16 4 →
      rows = (chunks 8 (w.payload.drop 24)).map leNat → w.payload.length = 24 + 8 * n → 0 < n → uAt w.payload 20 4 < 512 →
      (∀ r ∈ rows, r < t.rows ∧ r < 2 ^ 40) → distinct rows = true → n ≤ t.hotCap →
      s.tableCfg? (uAt w.payload 20 4) = some t → s.table? (uAt w.payload 20 4) (uAt w.payload 12 4) ≠ none →
      (s.tableRun (uAt w.payload 20 4)).installing = none → (s.tableRun (uAt w.payload 20 4)).lastHot < uAt w.payload 8 4 →
      let run := s.tableRun (uAt w.payload 20 4)
      let late := s.hotHalfFree (uAt w.payload 20 4) run.half = false ∨ ∃ x, run.started = some x ∧ s.portTicks < x + State.ticksOfMs t.hotRefreshMs
      let u := s.setTableRun { run with waiting := some w, waitMs := t.hotRefreshMs }
      (run.waiting = none → ¬late → s.applyHotSet w = (u, none))
      ∧ (run.waiting = none → late → s.applyHotSet w = (u.count (State.devCtr 11) 1, none))
      ∧ (∀ x, run.waiting = some x → ¬late → s.applyHotSet w = (u.answerWrite x refSuperseded [] true, none)))
    ∧ ∀ (s : State) (id : Nat) (w : Write) (t : TableCfg), s.tableCfg? id = some t → (s.tableRun id).waiting = some w →
      (s.tableRun id).installing = none →
      let run := s.tableRun id
      let u := match run.started with
        | some x => s.atLeast (x + State.ticksOfMs run.waitMs)
        | none => s
      let u := u.setTableRun { run with waiting := none, started := some u.portTicks }
      (s.hotHalfFree id run.half = false → exec (.hotSetInstall id) s = .next (s.after s))
      ∧ (s.hotHalfFree id run.half = true → s.table? id (uAt w.payload 12 4) = none →
        exec (.hotSetInstall id) s = .next (s.after (u.answerWrite w refFetchFailed [] true)))
      ∧ ∀ v, s.hotHalfFree id run.half = true → s.table? id (uAt w.payload 12 4) = some v →
        let rows := ((chunks 8 (w.payload.drop 24)).map leNat).zipIdx.map fun (r, h) => (h, (v.map.locate r).getD (0, 0))
        let mine := rows.filter fun x => x.2.1 == u.pairIndex
        let others := rows.filter fun x => x.2.1 != u.pairIndex
        let bytes := others.length * t.stride
        exec (.hotSetInstall id) s = .next (s.after (u.startInstall id w t v))
        ∧ ∀ a y, u.alloc (max 128 bytes) 4096 = some (a, y) →
          let y' : State := { y with used := (y.used.erase (a, max 128 bytes)) ++ (if bytes = 0 then [] else [(a, bytes)]) }
          let z := mine.foldl (fun (z : State) x => z.placeHot t (u.tableRun id).half a (others.map Prod.fst) x.1 (z.rowBytesOf t.stride v x.2.2)) y'
          let z := z.setTableRun { z.tableRun id with installing := some (w, a, others.map Prod.fst), missing := others.length }
          let e : Exchange := { xid := 0, owner := 0, req := 0, reqOrder := 0, tile := 0, kind := 2, object := id, ids := [], places := [] }
          (others = [] → exec (.hotSetInstall id) s = .next (s.after (z.endInstall id {})))
          ∧ ∀ z', others ≠ [] → z.requestAll e 0 0 v (others.map fun x => (x.2.1, x.2.2, x.1)) = some z' →
            exec (.hotSetInstall id) s = .next (s.after z'))
  ∧ (
    ∀ (s : State) (w : Write) (c : CorpusCfg) (k : Corpus), State.switchMsgOk w.payload = true →
      s.corpusCfg? (State.switchMsg w.payload).corpus = some c → s.corpus? (State.switchMsg w.payload).corpus = some k →
      ((k.merge.isSome = true ∨ k.due = true ∨ k.next.map (·.2) = some false) → s.applySwitchMerge w = (s, some ({}, [], w)))
      ∧ (k.merge = none → k.due = false → k.next.map (·.2) ≠ some false →
        ((k.next.isSome = true ∨ k.current = none) → s.applySwitchMerge w = (s, some (refWrongState, [], w)))
        ∧ (k.next = none → k.current.isSome = true → s.cfg.pools.any (·.has 0) = false →
          s.applySwitchMerge w = (s.setCorpus { k with due := true }, some ({}, [], w)))
        ∧ (k.next = none → k.current.isSome = true → s.cfg.pools.any (·.has 0) = true →
          s.applySwitchMerge w = match s.startMerge c k with
            | some u => (u, some ({}, [], w))
            | none => (s.count (State.devCtr 18) 1, some (refNoMemory, [], w)))))


/-- R363, R394: a chunk of a load that is not its last is stored in the load's range and answered; 60 s without a chunk abandon the load: it
is gone, its memory given back, and its last chunk, if it waits, INCOMPLETE; a REMOVE takes every image of its id out of use, and is answered when their memory is zero. -/
def Obligations.LoadsStoreAndRemoveImages : Prop :=
  (∀ (s : State) (w : Write) (l : Load) (h : Nat), h = uAt w.payload 0 32 → loadHeaderOk w.type w.payload = true →
    lhRemove h = false → lhFinal h = false → lhOverrides h = 0 → s.loads.find? (fun l => l.type == w.type && l.id == lhId h) = some l →
    l.session = w.session → l.total = lhTotal h → l.version = lhVersion h → l.forModel = lhForModel h → l.wrapped = lhWrapped h →
    l.final = none → lhTotal h ≠ 0 → lhOffset h + (w.payload.length - 32) ≤ lhTotal h →
    let chunk := w.payload.drop 32
    let l' := { l with got := l.got ++ [(lhOffset h, chunk.length)], lastChunk := s.portTicks }
    let u := s.storeHbm none 0 (l.base + lhOffset h) chunk
    s.applyLoad w = ({ u with loads := u.loads.map fun x => if x.type == w.type && x.id == lhId h then l' else x }, some {}))
  ∧ (∀ (kind : LoadKind) (id : Nat) (s : State) (l : Load), s.loads.find? (fun l => l.type == loadType kind && l.id == id) = some l →
    let u := ({ s with
      portTicks := max s.portTicks (l.lastChunk + State.ticksOfMs 60000)
      loads := s.loads.filter fun x => !(x.type == l.type && x.id == l.id) } : State).release l.base l.total
    (l.final = none → exec (.loadAbandonTimeout kind id) s = .next (s.after u))
    ∧ ∀ w o, l.final = some (w, o) → exec (.loadAbandonTimeout kind id) s = .next (s.after (u.endWrite w refIncomplete)))
  ∧ ∀ (s : State) (w : Write) (h : Nat), h = uAt w.payload 0 32 → loadHeaderOk w.type w.payload = true → lhRemove h = true →
    s.loads.find? (fun l => l.type == w.type && l.id == lhId h) = none →
    let r := s.removeObject w.type (lhId h)
    (r.1 = [] → s.applyLoad w = (s, some refNotHeld))
    ∧ (r.1 ≠ [] → s.applyLoad w = ({ r.2 with removals := r.2.removals ++ [(w, r.1)] }, none))


/-- R332, R333, R335: a hello of a host takes the lowest free entry or renews its own, and without a free one is counted; a hello that no
listed device's signature covers, or with a reserved byte set (R10), is counted and ignored; a listed device's is handed to the peer table. -/
def Obligations.HelloReachesPeerTable : Prop :=
  ∀ (sub : Nat) (src : Endpoint) (mac : Nat) (p : Bytes) (s : State) (d : Delivered),
    s.delivered.find? (fun d => d.session == 0 && d.type == 0x60 && d.sub == sub && d.src == src && d.mac == mac && d.frags.flatten == p) = some d →
    s.boot.service = 1 → s.portLive = true → s.works fnPort = true →
    (State.helloWhole p = false → exec (.peerHello sub src mac p) s = .next (s.after ((s.untake d).count 0x71420 1)))
    ∧ (State.helloWhole p = true →
    let u := s.untake d
    let own := s.peers.find? fun x => x.2.role == 0 && x.2.host == some src
    let host := uAt p 1 1 = 0 ∧ p.length = 88 ∧ uAt p 0 1 = 0 ∧ allZero (p.drop 40) = true
    (host → own = none → s.freeHostEntry = none → exec (.peerHello sub src mac p) s = .next (s.after (u.count 0x71428 1)))
    ∧ (host → own = none → ∀ i, s.freeHostEntry = some i →
      exec (.peerHello sub src mac p) s = .next (s.after { u with
        peers := sortBy (fun a b => decide (a.1 ≤ b.1)) ((i, { state := 3, since := s.portTicks, mac, host := some src }) :: u.peers) }))
    ∧ (host → ∀ i e, own = some (i, e) → (e.state = 4 ∨ e.state = 5) →
      exec (.peerHello sub src mac p) s = .next (s.after (u.setEntry i fun e => { e with state := 2, since := s.portTicks, mac })))
    ∧ (host → ∀ i e, own = some (i, e) → e.state ≠ 4 → e.state ≠ 5 → exec (.peerHello sub src mac p) s = .next (s.after u))
    ∧ (uAt p 1 1 = 0 → ¬host → exec (.peerHello sub src mac p) s = .next (s.after (u.count 0x71420 1)))
    ∧ (uAt p 1 1 ≠ 0 → exec (.peerHello sub src mac p) s = .next (s.after (match s.helloDevice p with
      | some c => u.deviceHello c sub src p
      | none => u.count 0x71420 1))))

/-- R335, R337, R346, R347, R368: a LIVE partner that says farewell or announces its failure is GONE, and in any other state of its entry
the session ends; one that announces its twin state has it noted, and its SPLIT splits a PAIRED pair. -/
def Obligations.FarewellsAndAnnouncementsTakeEffect : Prop :=
  ∀ (m : Msg) (s : State) (d : Delivered) (q : Session) (i : Nat) (e : PeerEntry), s.entryOfSession q.id = some (i, e) →
    let p := d.frags.flatten
    let u := s.untake d
    let note := fun (v : State) => match v.entry? i with
      | some e => if (v.setEntry i fun e => { e with twinState := uAt p 5 1 }).isTwinPartner e.devIndex then
          (v.setEntry i fun e => { e with twinState := uAt p 5 1 }).partnerReports (uAt p 5 1)
        else v.setEntry i fun e => { e with twinState := uAt p 5 1 }
      | none => v
    let leaves : State := if e.state = 3 then u.partnerGone i 5 else if e.session = 0 then u else u.dropSession e.session
    s.entry? i = some e →
    (s.Admits 0x61 m false d q → p.length = 4 → exec (.peerBye m) s = .next (s.after leaves))
    ∧ (s.Admits 0x63 m false d q → m.session ≠ 0 → p.length = 6 →
      (uAt p 0 4 = 1 → exec (.announceDeviceFailed m) s = .next (s.after leaves))
      ∧ (uAt p 0 4 = 2 → exec (.announceTwinLost m) s = .next (s.after (note u)))
      ∧ (uAt p 0 4 = 3 → exec (.announceTwinState m) s = .next (s.after (note u))))

/-- R335, R336, R351, R368: a heartbeat keeps its sender's ticks, and its echo gives the round trip in units of 100 ns, the least of the
session; a sub-port that sent nothing to a LIVE partner for the interval sends one, while PORT works, and on a failed device to hosts alone. Silence makes a LIVE partner LOST and ends its session,
or a session without an entry; a handshake without progress leaves a JOINING entry LOST; a host's entry that is LOST for 60 s is EMPTY. -/
def Obligations.HeartbeatsAndSilenceTellLiveness : Prop :=
  (
    (∀ (m : Msg) (s : State) (d : Delivered) (q : Session), s.Admits 0x62 m false d q → d.frags.flatten.length = 16 →
      let p := d.frags.flatten
      let u := (s.untake d).withSession q.id fun q => { q with heardTicks := uAt p 0 8, heardAt := s.portTicks }
      ((s.entryOfSession q.id = none ∨ uAt p 8 8 = 0 ∨ s.portTicks < uAt p 8 8) → exec (.heartbeat m) s = .next (s.after u))
      ∧ ∀ i e, s.entryOfSession q.id = some (i, e) → 0 < uAt p 8 8 → uAt p 8 8 ≤ s.portTicks →
        let rtt := min (ceilDiv ((s.portTicks - uAt p 8 8) * 64) 1000) 65535
        exec (.heartbeat m) s = .next (s.after (u.setEntry i fun e => { e with rtt := if e.rtt = 0 then rtt else min e.rtt rtt })))
    ∧ ∀ (entry sub : Nat) (s : State) (e : PeerEntry) (q : Session), s.entry? entry = some e → s.session? e.session = some q → e.state = 3 →
      e.session ≠ 0 → (s.boot.service = 1 → s.works fnPort = true) → (s.boot.service ≠ 1 → e.role = 0) → s.subs.any (fun p => p.1 == sub && p.2.up) = true →
      let now := max s.portTicks (lookupD sub e.sentAt e.since + s.hbTicks e.role e.devIndex)
      let u := ({ s with portTicks := now } : State).withSession q.id fun q => { q with sub }
      exec (.heartbeatSendTimer entry sub) s = .next (s.after
        ((u.sendMessage q.id 0x62 0 true (u.heartbeatPayload q)).withSession q.id fun x => { x with sub := q.sub })))
  ∧ (
    (∀ (i : Nat) (s : State) (e : PeerEntry), s.entry? i = some e → e.state = 3 →
      let u : State := { s with portTicks := max s.portTicks (max e.lastHeard e.since + s.silenceTicks e.role e.devIndex) }
      exec (.peerLivenessExpiry (.entry i)) s = .next (s.after ((if e.session = 0 then u else u.closeSession e.session 3).partnerGone i 4)))
    ∧ (∀ (sid : Nat) (s : State) (q : Session), s.session? sid = some q → (s.entryOfSession sid).any (fun e => e.2.state == 3) = false → q.opened = true →
      let u : State := { s with portTicks := max s.portTicks (q.lastHeard + s.silenceTicks q.role q.dev) }
      exec (.peerLivenessExpiry (.session sid)) s = .next (s.after ((u.closeSession sid 3).dropSession sid)))
    ∧ (∀ (i : Nat) (s : State) (e : PeerEntry), s.entry? i = some e → e.state = 2 →
      (∀ h ∈ s.handshakes, ¬((h.initiator = true ∧ e.role ≠ 0 ∧ h.dev = e.devIndex) ∨ e.host = some h.peer)) →
      let u : State := { s with portTicks := max s.portTicks (e.since + State.ticksOfUs (s.cfg.peers.hbUs * s.cfg.peers.hbMiss)) }
      exec (.joiningTimeout i) s = .next (s.after (u.partnerGone i 4)))
    ∧ ∀ (i : Nat) (s : State) (e : PeerEntry), s.entry? i = some e → e.role = 0 → e.state = 4 →
      exec (.hostEntryExpiry i) s = .next (s.after { s with
        portTicks := max s.portTicks (e.since + State.ticksOfMs 60000), peers := s.peers.filter (·.1 != i) }))


/-- R342 to R344, R346: a token that this twin holds is given when asked for, one that comes is held, and the partner's APPLIED with the
same outcome answers the host; a differing one splits the pair; silence of the partner leaves a PAIRED twin ALONE. The partner's next
mirrored write is applied with the values that it was given there; copies come in chunks, in order; SYNC_DONE ends catch-up with both
PAIRED. -/
def Obligations.TwinsExchangeTokensWritesAndCopies : Prop :=
  (
    (∀ (m : Msg) (s : State) (d : Delivered) (q : Session), s.Admits 0x78 m false d q →
      let p := d.frags.flatten
      let u := s.untake d
      let k := (twinKind p, twinObj p)
      (twinIs 1 p = true → s.twin.state = 2 → s.holdsToken k.1 k.2 = true → k ∉ s.twin.granting →
        exec (.tokenRequest m) s = .next (s.after { u with twin := { u.twin with granting := u.twin.granting ++ [k] } }))
      ∧ (twinIs 2 p = true → s.twin.state = 2 → s.holdsToken k.1 k.2 = false →
        exec (.tokenGrant m) s = .next (s.after (u.moveToken k)))
      ∧ (twinIs 4 p = true → p.length = 36 → twinSeq p ≠ 0 → ¬(s.twin.doneSeq = some (twinSeq p) ∧ s.twin.syncing = true) →
        ∀ (n : Nat) (w : Write) (o : Machine.Outcome), s.twin.mirrored.find? (·.1 == twinSeq p) = some (n, w, o) →
          ((o.status ≠ uAt p 32 2 ∨ o.reason ≠ uAt p 34 2) → exec (.applied m) s = .next (s.after u.enterSplit))
          ∧ (o.status = uAt p 32 2 → o.reason = uAt p 34 2 → w.session ≠ 0 → exec (.applied m) s = .next (s.after (({ u with twin := { u.twin with
              mirrored := u.twin.mirrored.filter (·.1 != twinSeq p)
              appliedOf := ((w.kind, w.obj), twinSeq p) :: dropKey (w.kind, w.obj) u.twin.appliedOf } } : State).endWrite w o)))))
    ∧ (∀ (s : State) (i : Nat) (e : PeerEntry), s.cfg.twin.role ≠ 0 → s.entryOfDevice s.cfg.twin.partner = some (i, e) → e.state = 3 →
      let u : State := { s with portTicks := max s.portTicks (max e.lastHeard e.since + s.silenceTicks e.role e.devIndex) }
      exec .twinPartnerLost s = .next (s.after ((if e.session = 0 then u else u.closeSession e.session 3).partnerGone i 4)))
    ∧ ∀ (s : State) (k : Nat × Nat), s.twin.state = 2 → (s.moveToken k).holdsToken k.1 k.2 = !(s.holdsToken k.1 k.2))
  ∧ (
    (∀ (m : Msg) (s : State) (d : Delivered) (q : Session), s.Admits 0x78 m false d q → s.inTurn m = true →
      let p := d.frags.flatten
      let u := s.untake d
      (twinIs 3 p = true → twinSeq p = s.twin.mirrorIn + 1 → (s.twin.state = 1 ∨ s.twin.state = 2) → s.twin.copy = none →
        s.tables.any (fun v => v.waiting.any (·.brought)) = false →
        let k := (twinKind p, twinObj p)
        let w : Write := { session := 0, msgId := twinSeq p, type := Config.mirrorType (twinKind p) (p.drop 32), writeId := twinWid p
                           kind := twinKind p, obj := twinObj p, payload := p.drop 32 }
        exec (.mirror m) s = .next (s.after (({ u with twin := { u.twin with
          mirrorIn := twinSeq p, appliedOf := (k, twinSeq p) :: dropKey k u.twin.appliedOf } } : State).performWrite w)))
      ∧ (twinIs 5 p = true → 48 ≤ p.length → s.twin.state = 1 → s.twin.copy = none → uAt p 32 8 = 0 →
        (p.length - 48 < uAt p 40 8 → exec (.syncChunk m) s = .next (s.after { u with twin := { u.twin with
          copy := some { kind := twinKind p, obj := twinObj p, total := uAt p 40 8, offset := p.length - 48, bytes := p.drop 48 } } }))
        ∧ (uAt p 40 8 ≤ p.length - 48 → exec (.syncChunk m) s = .next (s.after
          (({ u with twin := { u.twin with copy := none } } : State).takeCopy (p.drop 48)))))
      ∧ (twinIs 6 p = true → s.twin.state = 1 → s.twin.copy = none → twinSeq p = s.twin.mirrorIn + 1 → s.twin.forwarded = [] →
        s.tables.any (fun v => v.waiting.any (·.brought)) = false →
        exec (.syncDone m) s = .next (s.after
          (({ u with twin := { u.twin with state := 2, moved := [], mirrorIn := twinSeq p } } : State).sendTwin 4 (twinKind p) (twinObj p)
            (twinSeq p) (twinWid p) (leBytes 4 0)))))
    ∧ ∀ s : State, s.twin.syncing = true → s.liveDevice s.cfg.twin.partner = true → s.twin.doneSeq = none →
      (∀ c, s.twin.copy = some c → exec .bgTwinSync s = .next (s.after (s.sendChunk c)))
      ∧ (s.twin.copy = none → s.twin.syncTodo = [] →
        exec .bgTwinSync s = .next (s.after
          (({ s with twin := { s.twin with mirrorOut := s.twin.mirrorOut + 1, doneSeq := some s.twin.mirrorOut } } : State).sendTwin 6 0 0
            s.twin.mirrorOut 0 (leBytes 8 s.twin.syncSent)))))


/-- R85, R99, R105, R106: a work item whose input stream meets a fault ends with it: its record, which carries the fault cause, template,
stage and request, leaves and the tile has it no longer, or both wait while its handles wait for credits; an opcode that no ready work item
has does nothing. -/
def Obligations.StreamFaultEndsWorkItem : Prop :=
  ∀ (c : Instr) (t code : Nat) (text : Bool), itemRow c = some (t, code, text) → ∀ s : State, s.wheelAt t = none →
    (s.running? t code = none → exec c s = .next (s.after s))
    ∧ ∀ (x : Running) (f : Nat) (u : State), s.running? t code = some x → 0 < f → f < 8 →
      State.readSlots (s.ioFor t x.item) x (slotsRead text x.item.wi) s = (.error f, u) →
      let v := u.faultItem t x f
      exec c s = .next (s.after v)
      ∧ ∃ r : Completion, r.run = x.run ∧ fld r.record 26 24 = f
        ∧ (x.item.template < 65536 → x.item.stage < 512 → x.item.req < 4096 →
          fld r.record 42 27 = x.item.template ∧ fld r.record 51 43 = x.item.stage ∧ fld r.record 63 52 = x.item.req)
        ∧ ((v.completions = u.completions ++ [r] ∧ ∀ z, (v.tile t).running = some z → z.run ≠ x.run)
          ∨ (v.completions = u.completions ∧ v.waitsForCredit t x.run = true ∧ ∃ k ∈ (v.tile t).closing, k.x = x ∧ k.done = some r))

/-- R128: SIGNAL's record carries IMM1 for signal IMM0, which the record adds to the request; YIELD returns the tile's unstarted entries of
the request, in order, to the front of the pool's queue and completes; NOP only completes. A completion waits while handles of its work
item wait for credits (R85). -/
def Obligations.SignalYieldAndNopComplete : Prop :=
  (∀ (t : Nat) (s u : State) (x : Running) (bs : List (Nat × Bytes)), s.Runs t 0x00 false x bs u →
    exec (.nop t) s = .next (s.after (u.finishItem t x { writes := [] })))
  ∧ (∀ (t : Nat) (s u : State) (x : Running) (bs : List (Nat × Bytes)), s.Runs t 0x02 false x bs u →
    exec (.signal t) s = .next (s.after (u.finishItem t x { writes := [] })))
  ∧ (∀ (t : Nat) (s u : State) (x : Running) (bs : List (Nat × Bytes)), s.Runs t 0x03 false x bs u →
    let mine := fun (i : Item) => i.req == x.item.req && i.reqOrder == x.item.reqOrder
    let v := (u.setTile t fun y => { y with queue := y.queue.filter fun i => !(mine i) }).returnItems x.item.pool ((u.tile t).queue.filter mine)
    exec (.yieldItem t) s = .next (s.after (v.finishItem t x { writes := [] })))
  ∧ (∀ (t : Nat) (s : State) (x : Running), ∃ r : Completion,
    fld r.record 26 24 = 0
    ∧ r.signals = (if wOpcode x.item.wi = 0x02 then [(wImm x.item.wi 0, wImm x.item.wi 1)] else []) ++ (wDone x.item.wi).toList.map (fun g => (g, 1))
    ∧ (s.waitsForCredit t x.run = false → (s.finishItem t x { writes := [] }).completions = s.completions ++ [r])
    ∧ (s.waitsForCredit t x.run = true → (s.finishItem t x { writes := [] }).completions = s.completions
      ∧ ∃ k ∈ ((s.finishItem t x { writes := [] }).tile t).closing, k.x = x ∧ k.done = some r))
  ∧ (∀ (p : Nat) (is : List Item) (s : State), ((s.returnItems p is).pool p).queue = is ++ (s.pool p).queue)
  ∧ ∀ (s : State) (r : Nat) (q : Request) (g n : Nat), s.req? r = some q → g < q.signals.length →
    ((s.addSignals r [(g, n)]).req? r).map (fun q => q.signals.getD g 0) = some (satTo 24 (q.signals.getD g 0 + n))

/-- R96, R126, R127: a BARRIER leaves its value in its slot and waits; with all arrivals there the slot is released; each waiting work
item then writes the combined value where slot 0 is used, and completes. -/
def Obligations.BarriersReleaseTogether : Prop :=
  (∀ (t : Nat) (s u : State) (x : Running) (bs : List (Nat × Bytes)), s.Runs t 0x01 false x bs u →
    let mine := fun (b : BarrierSlot) => b.req == x.item.req && b.stage == x.item.stage && b.number == wImm x.item.wi 0
    exec (.barrier t) s = .next (s.after ((u.setPool x.item.pool fun p => { p with barriers := modifyFirst mine (fun b =>
      { b with values := b.values ++ [wImm x.item.wi 3 + wImm x.item.wi 4 * 2 ^ 32], tiles := b.tiles ++ [t] }) p.barriers }).setRunning t
        fun x => { x with waits := 1 })))
  ∧ (∀ (p i : Nat) (s : State) (b : BarrierSlot), (s.pool p).barriers[i]? = some b →
    (b.values.length = b.need → b.released = false → exec (.barrierCombine p i) s = .next (s.after (s.setPool p fun x =>
      { x with barriers := modifyAt i (fun b => { b with released := true }) x.barriers })))
    ∧ (b.values.length ≠ b.need → exec (.barrierCombine p i) s = .next (s.after s)))
  ∧ ∀ (t : Nat) (s : State) (x : Running) (b : BarrierSlot), (s.tile t).running = some x → wOpcode x.item.wi = 0x01 → x.waits = 1 →
    let mine := fun (b : BarrierSlot) =>
      b.req == x.item.req && b.stage == x.item.stage && b.number == wImm x.item.wi 0 && b.released && b.tiles.contains t
    (s.pool x.item.pool).barriers.find? mine = some b →
    exec (.barrierReleaseArrival t) s = .next (s.after ((s.setPool x.item.pool fun p =>
      { p with barriers := modifyFirst mine (fun b => { b with tiles := b.tiles.erase t }) p.barriers }).finishItem t x
        { writes := if wUses x.item.wi 0 then [(0, leBytes 8 (combine b.op b.values))] else [] }))
    ∧ (b.op = 0 → combine b.op b.values = b.values.length)
    ∧ (b.op = 1 → combine b.op b.values = min b.values.sum (2 ^ 64 - 1))

/-- R69, R73, R77, R79, R88, R104: the stream engine's work items write to slot 8 what slot 0 delivers; LEAT_SEND's 1 to 256 bytes leave
as one payload for the tiles that its immediates name, numbered after all that left before (R93), or enter the Hopper's intake; more or none
fault with cause 1. -/
def Obligations.MovesDeliverTheirStream : Prop :=
  ∀ (t : Nat) (s u : State) (x : Running) (bs : List (Nat × Bytes)),
    let b := readBytes bs 0
    let moved := (Host.Outcome.next (s.after (u.finishItem t x { writes := [(8, b)] })) : Host.Outcome State Machine.Fault Machine.Refusal)
    (s.Runs t 0x40 false x bs u → exec (.copy t) s = moved)
    ∧ (s.Runs t 0x41 false x bs u → exec (.gather t) s = moved)
    ∧ (s.Runs t 0x42 false x bs u → exec (.scatter t) s = moved)
    ∧ (s.Runs t 0x43 false x bs u → exec (.transpose t) s = moved)
    ∧ (s.Runs t 0x44 false x bs u → exec (.decompress t) s = moved)
    ∧ (s.Runs t 0x45 false x bs u →
      let d := Config.leatDest (wImm x.item.wi 0)
      let dsts := d.1.map (u.poolTile x.item.pool)
      (b.length = 0 ∨ 256 < b.length → exec (.leatSend t) s = .next (s.after (u.faultItem t x 1)))
      ∧ (0 < b.length → b.length ≤ 256 → exec (.leatSend t) s = .next (s.after (
        if dsts.any fun v => decide (u.tileLimit v < d.2 + b.length) then u.faultItem t x 1
        else (if dsts.isEmpty then u.intakePayload b else u.sendLeat
          { src := t, dsts, offset := d.2, bytes := b, queue := Config.leatQueue (wImm x.item.wi 1), req := x.item.req
            reqOrder := x.item.reqOrder, run := x.run, use := .plain }).finishItem t x { writes := [] }))))
    ∧ (∀ f, (u.sendLeat f).leats = u.leats ++ [{ f with sent := u.meshNext }] ∧ (u.sendLeat f).meshNext = u.meshNext + 1)
    ∧ (u.intakePayload b).intakePlain = u.intakePlain ++ [b]

/-- R31 to R58, R101, R103, R147: every arithmetic work item applies its operation to the bytes that its slots deliver and writes the
result; the operations are those of Arrays.lean on the operands laid out there. -/
def Obligations.ArithmeticItemsWriteResults : Prop :=
  ∀ (t : Nat) (s u : State) (x : Running) (bs : List (Nat × Bytes)),
    let w := x.item.wi
    let d := State.slotDesc x 0
    let rows := rowsOf (wAFmt w) d (readBytes bs 0)
    let second := u.operandLike (wWFmt w) (State.slotDesc x 1) (readBytes bs 1) rows
    let third := second.2.operandLike (wWFmt w) (State.slotDesc x 2) (readBytes bs 2) rows
    let conv := u.needSlots (convLen w d) (readBytes bs) (inSlots w)
    let done := fun (r : OpOut × State) => (Host.Outcome.next (s.after (r.2.finishItem t x r.1)) : Host.Outcome State Machine.Fault Machine.Refusal)
    (s.Runs t 0x10 false x bs u → exec (.gemm t) s = done (
      let g := u.needSlots (gemmLen w) (readBytes bs) (inSlots w)
      g.2.gemmOp t w (readBytes g.1)))
    ∧ (s.Runs t 0x11 false x bs u → exec (.conv t) s = done (conv.2.convOp t w d (readBytes conv.1)))
    ∧ (s.Runs t 0x12 false x bs u → s.wheelAt t = none →
      exec (.dist t) s = done (u.distOp w (readBytes bs)))
    ∧ (s.Runs t 0x20 false x bs u → exec (.ewUnary t) s = done (u.ewUnaryOp w rows))
    ∧ (s.Runs t 0x21 false x bs u → exec (.ewBinary t) s = done (second.2.ewBinaryOp w (List.zipWith List.zip rows second.1)))
    ∧ (s.Runs t 0x22 false x bs u → exec (.ewFma t) s =
      done (ewFmaOp w (List.zipWith List.zip rows (List.zipWith List.zip second.1 third.1)), third.2))
    ∧ (s.Runs t 0x23 false x bs u → exec (.reduce t) s = done (u.reduceOp w (if wImm w 1 = 0 then rows
      else linesAlong (dCount d (wImm w 1)) (((List.range (wImm w 1)).map (dCount d)).foldl (· * ·) 1) rows.flatten)))
    ∧ (s.Runs t 0x24 false x bs u → exec (.norm t) s = done (
      let g := u.needCodes (fmtBits (wWFmt w)) (2 * (rows.headD []).length) (rowsOf (wWFmt w) (State.slotDesc x 1) (readBytes bs 1)).flatten
      g.2.normOp w rows (g.1.map (elemF32 (wWFmt w)))))
    ∧ (s.Runs t 0x25 false x bs u →
      let ls := chunkList (max 1 (wImm w 0)) rows.flatten
      let mask := u.operandLike (wWFmt w) (State.slotDesc x 1) (readBytes bs 1) ls
      exec (.softmax t) s = done (if wUses w 1 then mask.2.softmaxOp w ls (some mask.1) else u.softmaxOp w ls none))
    ∧ (s.Runs t 0x26 false x bs u → exec (.pool2d t) s = done (u.pool2dOp w d (readBytes bs 0)))
    ∧ (s.Runs t 0x27 false x bs u → exec (.dwconv t) s = done (dwconvOp w d (readBytes conv.1), conv.2))
    ∧ (s.Runs t 0x28 false x bs u → exec (.convert t) s = done (convertOp w rows, u))

/-- R41, R44: an integer sum stays in the 32-bit range in whatever order it is taken; a sum whose exact value lies outside is flagged, and
one that is not flagged is exact. -/
def Obligations.IntegerSumsSaturate : Prop :=
  ∀ (xs : List Int) (s : State), (∀ x ∈ xs, -(2 ^ 31) ≤ x ∧ x ≤ 2 ^ 31 - 1) →
    let r := (s.sumI32 xs).1
    r.1 ≤ 2 ^ 31 - 1 ∧ -(2 ^ 31) ≤ r.1 ∧ (r.2 = false → r.1 = xs.sum) ∧ (xs.sum < -(2 ^ 31) ∨ 2 ^ 31 - 1 < xs.sum → r.2 = true)

/-- R46: a block with a NaN or an infinity gets scale 0xFF and zero elements, a block of zeros scale 0x00 and zero elements; else the
scale's exponent is that of the largest magnitude less the format's greatest, between −127 and 127, and every element is its value divided
by the scale, rounded to nearest, ties to even, at most the element maximum. -/
def Obligations.MxBlocksFollowTheOcpConversion : Prop :=
  ∀ (f : Nat) (xs : List W32), isMx f = true → xs.length = 32 →
    ((∃ y ∈ xs, f32Val y = .nan ∨ ∃ n, f32Val y = .inf n) → mxBlock f xs = (List.replicate 32 0, 0xFF, 0))
    ∧ ((∀ y ∈ xs, ∃ z k, f32Val y = .fin z 0 k) → mxBlock f xs = (List.replicate 32 0, 0, 0))
    ∧ ∀ (top : Int) (i : Nat) (x : W32) (m e : Int), (∀ y ∈ xs, ∃ z n k, f32Val y = .fin z n k) →
      (∃ y ∈ xs, ∃ n k z, f32Val y = .fin z n k ∧ n ≠ 0 ∧ (Nat.log2 n.natAbs : Int) + k = top) →
      (∀ y ∈ xs, ∀ n k z, f32Val y = .fin z n k → n ≠ 0 → (Nat.log2 n.natAbs : Int) + k ≤ top) →
      let emax : Int := if f = 4 then 8 else if f = 5 then 15 else if f = 6 then 2 else if f = 7 then 4 else if f = 8 then 2 else 0
      let sc := max (-127) (min 127 (top - emax))
      sc + 127 = ((mxBlock f xs).2.1 : Int)
      ∧ (xs[i]? = some x → (∃ z, f32Val x = .fin z m e) →
        (f = 9 → (mxBlock f xs).1[i]? = some (unsignedOf 8 (max (-127) (min 127 (roundInt m (e - sc + 6))))))
        ∧ (f ≠ 9 →
          let c := min (roundCode (fmtOf f).prec (fmtOf f).eminq m.natAbs 1 (e - sc)) (fmtOf f).maxCode
          some (c + if (f32Val x).isNeg then 2 ^ ((fmtOf f).width - 1) else 0) = (mxBlock f xs).1[i]?))

/-- R175 to R180, R286: the Bolter's work items apply their selection to the lists that slot 0 delivers; SAMPLE gives its request the token
that it writes, or with no selectable candidate writes nothing and says so. -/
def Obligations.BolterItemsWriteRecords : Prop :=
  ∀ (t : Nat) (s u : State) (x : Running) (bs : List (Nat × Bytes)),
    let w := x.item.wi
    let d := State.slotDesc x 0
    let ty := wImm w 1
    let lists := (listsOf d (readBytes bs 0)).map fun b => (chunks (scoreBytes ty) b).map leNat
    let done := fun (v : State) => (Host.Outcome.next (s.after v) : Host.Outcome State Machine.Fault Machine.Refusal)
    (s.Runs t 0x30 false x bs u → wImm w 2 = 0 →
      (∀ o, topkOp w d (readBytes bs 0) (readBytes bs 1) (readBytes bs 2) = .ok o → exec (.topk t) s = done (u.finishItem t x o))
      ∧ (sidesOk w (lists.map List.length).sum (readBytes bs 1) (readBytes bs 2) = false → exec (.topk t) s = done (u.faultItem t x 1)))
    ∧ (s.Runs t 0x31 false x bs u → exec (.kth t) s = done (u.finishItem t x (recordsOut (lists.map (kthRecord (wImm w 0) ty)))))
    ∧ (s.Runs t 0x32 false x bs u → exec (.argmax t) s = done (u.finishItem t x (recordsOut (lists.map (argmaxRecord ty)))))
    ∧ (s.Runs t 0x33 false x bs u →
      let n := wImm w 0
      let short := (readBytes bs 0).length < 4 * n ∨ (wUses w 1 = true ∧ (readBytes bs 1).length < 8 * n)
      (short → exec (.sort t) s = done (u.faultItem t x 1))
      ∧ (¬short → exec (.sort t) s = done (u.finishItem t x { writes := [(8, sortRecords ((((chunks 4 (readBytes bs 0)).take n).map leNat).zip
        (if wUses w 1 then ((chunks 8 (readBytes bs 1)).take n).map leNat else List.range n)))] })))
    ∧ (s.Runs t 0x34 false x bs u → exec (.hist t) s =
      done (u.finishItem t x { writes := [(8, histBytes (wImm w 0) (wImm w 1) ((chunks 4 (readBytes bs 0)).map leNat))] }))
    ∧ (s.Runs t 0x35 false x bs u →
      let ins := ((List.range 4).filter (wUses w)).map (readBytes bs)
      let l := mergeLists (wImm w 0) (wImm w 1) (ins.map fun b => { listRead b with cands := (listRead b).cands.take 65536 })
      let total := (ins.map fun b => fld (leNat (b.take 32)) 159 128).sum
      (131072 < total → exec (.merge t) s = done (u.faultItem t x 1))
      ∧ (total ≤ 131072 → exec (.merge t) s = done (u.finishItem t x
        { writes := [(8, listBytes l)], flags := listBits l.flags, aux := l.tieLeft })))
    ∧ (s.Runs t 0x36 false x bs u → exec (.sample t) s = done (match u.sampleOf w (listRead (readBytes bs 0)).cands with
      | (some c, v) => (v.setReq x.item.req fun q => if q.order == x.item.reqOrder then { q with token := some c.id, tokenSeen := false } else q).finishItem
          t x { writes := [(8, leBytes 4 c.id)] }
      | (none, v) => v.endItem t x 0 0 0 true [] []))

/-- R168, R170, R172, R175: a TOPK list holds the best K candidates in candidate order: as many as there are up to K, each one of the
input's, none left out that comes before one kept; the header counts the candidates left out with the last key. -/
def Obligations.TopkKeepsTheBest : Prop :=
  ∀ (k ty : Nat) (raw ids srcs : List Nat), 0 < k →
    let all := (candidates ty raw ids srcs).1
    let l := topkList k ty raw ids srcs
    l.cands.length = min k all.length
    ∧ l.cands.Pairwise (fun a b => candLe a b = true)
    ∧ ∃ out : List Cand, (l.cands ++ out).Perm all ∧ (∀ a ∈ l.cands, ∀ b ∈ out, candLe a b = true)
      ∧ l.tieLeft = (out.filter (·.key == l.lastKey)).length
      ∧ (bitAt l.flags 2 = true ↔ l.tieLeft ≠ 0) ∧ (bitAt l.flags 3 = true ↔ all.length < k)
      ∧ l.nans + all.length = raw.length

/-- R187, R189: a member of a selection group counts its stream's candidates in round 1; when every member has counted, the root decides
and the decision goes to the members, each of which counts the next round or hands over what the final decision selects. -/
def Obligations.SelectionGroupsDecide : Prop :=
  (∀ (t : Nat) (s u : State) (x : Running) (bs : List (Nat × Bytes)) (i : Nat), s.Runs t 0x30 false x bs u → wImm x.item.wi 2 ≠ 0 →
    u.selectAt x.item (fld (wImm x.item.wi 2) 31 16) = some i →
    let raw := (chunks (scoreBytes (wImm x.item.wi 1)) (readBytes bs 0)).map leNat
    let c := candidates (wImm x.item.wi 1) raw ((chunks 8 (readBytes bs 1)).map leNat) ((chunks 8 (readBytes bs 2)).map leNat)
    let y := { x with bytes := c.1.flatMap candEncode, store := [c.2], waits := 2 }
    (sidesOk x.item.wi raw.length (readBytes bs 1) (readBytes bs 2) = false → exec (.topk t) s = .next (s.after (u.faultItem t x 1)))
    ∧ (sidesOk x.item.wi raw.length (readBytes bs 1) (readBytes bs 2) = true →
      exec (.topk t) s = .next (s.after ((u.setRunning t fun _ => y).memberCounts t x.item.pool i y))))
  ∧ (∀ (p i : Nat) (s : State) (g : SelectSlot), (s.pool p).selects[i]? = some g → g.group < 65536 → 0 < g.size →
    (g.arrived.length ≠ g.size → exec (.selectRoundCombine p i) s = .next (s.after s))
    ∧ (g.arrived.length = g.size → s.groupColl g = none →
      let d := decide' g.k g.decision g.bins g.valid g.certain
      exec (.selectRoundCombine p i) s = .next (s.after (s.releaseDecision p i d.1 d.2))))
  ∧ ∀ (t : Nat) (s : State) (x : Running) (i : Nat) (g : SelectSlot), (s.tile t).running = some x → wOpcode x.item.wi = 0x30 → x.waits = 2 →
    s.selectAt x.item (fld (wImm x.item.wi 2) 31 16) = some i → (s.pool x.item.pool).selects[i]? = some g → t ∈ g.flying →
    let u := s.setSelect x.item.pool i fun g => { g with flying := g.flying.erase t }
    let mine := g.gathered ++ [(wImm x.item.wi 3, decided g.decision (State.memberCands x))]
    (g.decision.kind = 0 → exec (.selectDecisionArrival t) s = .next (s.after (u.memberCounts t x.item.pool i x)))
    ∧ (g.decision.kind ≠ 0 → mine.length ≠ g.size →
      exec (.selectDecisionArrival t) s = .next (s.after (u.setSelect x.item.pool i fun g => { g with gathered := mine })))
    ∧ (g.decision.kind ≠ 0 → mine.length = g.size → s.collectives = [] →
      exec (.selectDecisionArrival t) s = .next (s.after ((u.setSelect x.item.pool i fun g => { g with gathered := mine }).finishGroup
        x.item.pool i (some (groupList g.k (wImm x.item.wi 1) g.decision g.nans false
          ((sortBy (fun (a b : Nat × List Cand) => decide (a.1 ≤ b.1)) mine).flatMap Prod.snd))))))


/-- R201, R202, R204, R206, R212: a member of a coalescing group whose batch is not well formed faults, and one that is not the last waits
with what it read; a pooling work item writes the vectors of its chunk's bags and hands on one handle for the span written, counting empty
bags. -/
def Obligations.LookupItemsGatherAndPool : Prop :=
  (∀ (t : Nat) (s u : State) (x : Running) (bs : List (Nat × Bytes)), s.Runs t 0x50 false x bs u →
    let w := x.item.wi
    let batch := readBatch (fun i => (u.tableCfg? i).map (·.rows)) (readBytes bs 0)
    (∀ f, batch = .error f → exec (.coalesce t) s = .next (s.after (u.faultItem t x f)))
    ∧ ∀ b i, batch = .ok b → u.selectAt x.item (65536 + fld (wImm w 2) 31 16) = some i →
      let shape := fun (bag : Nat × Nat × Nat) => (u.tableCfg? bag.1).map fun c => (c.format, c.width)
      let uniform := wImm w 0 != 0xFFFF || b.bags.all fun bag => shape bag == shape (b.bags.getD 0 (0, 0, 0))
      let v := (u.setRunning t fun y => { y with waits := 3, bytes := readBytes bs 0, store := [0, 0, 0] ++ List.replicate (fld (wImm w 2) 15 0) 0 }).setSelect
        x.item.pool i fun g => { g with arrived := g.arrived ++ [t] }
      let id := if wImm w 0 = 0xFFFF then (b.bags.getD 0 (0, 0, 0)).1 else wImm w 0
      (uniform = false → exec (.coalesce t) s = .next (s.after (u.faultItem t x 1)))
      ∧ (uniform = true → (v.coalesceMembers x.item.pool i).length < fld (wImm w 2) 15 0 → exec (.coalesce t) s = .next (s.after v))
      ∧ (uniform = true → fld (wImm w 2) 15 0 ≤ (v.coalesceMembers x.item.pool i).length →
        exec (.coalesce t) s = .next (s.after (
          if State.areasOk (v.coalesceMembers x.item.pool i) b (((u.tableCfg? id).map TableCfg.stride).getD 32) then
            v.coalesceLoop t (2 * b.bags.size + 2) false
          else v.coalesceFails t 1))))
  ∧ ∀ (t mode : Nat) (s u v : State) (x : Running) (h : Nat) (bs : Bytes) (p : Nat × Nat) (ps : List (Nat × Nat)), mode < 3 →
    s.running? t (0x51 + mode) = some x → x.handles.head? = some h → s.shapeOk x.item h = true →
    s.ioRead (s.ioFor t x.item) 0 (targetOf (handleAddr h)) (handleAddr h) (handleBytes h) = (.ok bs, u) →
    let bags := State.readChunk ((chunks 16 bs).map leNat)
    State.poolBags (s.ioFor t x.item) t x mode (State.poolStride (wAFmt x.item.wi) (wImm x.item.wi 0)) bags u = (.ok (p :: ps), v) →
    let lo := (ps.map Prod.fst).foldl min p.1
    let hi := ((p :: ps).map fun y => y.1 + y.2).foldl max 0
    let empty := (bags.filter fun b => b.2.1 == 0).length
    let tag := wOutTag x.item.wi
    let hs := if inHbm lo then (List.range (ceilDiv (hi - lo / 128 * 128) 4194176)).map fun i =>
        hbmHandle (lo / 128 * 128 + 4194176 * i) (min 4194176 (hi - lo / 128 * 128 - 4194176 * i)) tag
      else ((tileOf lo).map fun y => tileHandle y.1 y.2 (hi - lo) (v.gen y.1 (y.2 / 4096)) tag).toList
    exec (if mode = 0 then .poolSum t else if mode = 1 then .poolMean t else .poolWsum t) s = .next (s.after
      ((v.sendHandles t x hs false).endItem t x 0 (if empty = 0 then 0 else cbEmpty) (satTo 16 empty) false [] []))

/-- R222 to R244, R261, R262: NORMALISE takes its field's handles as they come and, with the last or the first ill-formed subpart under
REJECT, writes the mapped text, its ill-formed subparts replaced and counted; the walk, lattice, detokeniser, stop matcher and mask write what
their tables give; PACK writes the prompt of the passages it chose. -/
def Obligations.TextItemsWriteText : Prop :=
  (∀ (t : Nat) (s u : State) (x : Running) (h : Nat) (bs : Bytes), s.running? t 0x60 = some x → x.handles[x.round]? = some h →
    handlePoison h = false → s.handleFault h = none → x.bytes.length + handleBytes h ≤ 1048576 → (x.round ≠ 0 ∨ handleTag h ≠ 1) →
    s.ioRead (s.ioFor t x.item) (dHint (State.slotDesc x 0)) (targetOf (handleAddr h)) (handleAddr h) (handleBytes h) = (.ok bs, u) →
    let all := x.bytes ++ bs
    let reject := wImm x.item.wi 0 == 2 || (wImm x.item.wi 0 == 0 && ((s.itemTok x.item).map (·.invalid)).getD 0 == 1)
    let chars := (utf8Scan true all.length all).1
    let n := replacedIn chars
    let w := u.setRunning t fun y => { y with bytes := all, round := y.round + 1 }
    (handleLast h = true → reject = true → n ≠ 0 → exec (.normalise t) s = .next (s.after (u.endItem t x 0 cbText 0 true [] [])))
    ∧ (handleLast h = true → (reject = false ∨ n = 0) → ∀ v,
      State.touchTable (u.ioFor t x.item) (dHint (State.slotDesc x 1)) (dBase (State.slotDesc x 1))
        (chars.flatMap fun c => charMapReads (u.tableRd x 1) c.1).eraseDups u = (none, v) →
      let text := chars.flatMap fun c => charMappedAt (v.tableRd x 1) c.1
      exec (.normalise t) s = .next (s.after
        ((v.setField x.item all.length text).finishText t x text (if n = 0 then 0 else cbText) n)))
    ∧ (∀ y, handleLast h = false → reject = false → w.running? t 0x60 = some y → y.handles[y.round]? = none →
      ((w.live? y.item.req y.item.reqOrder).isSome = true ∨ y.item.isShared = true) → (w.dequeue t y.item = none ∨ w.dequeue t y.item = some []) →
      exec (.normalise t) s = .next (s.after w)))
  ∧ ∀ (t : Nat) (s u : State) (x : Running) (bs : List (Nat × Bytes)),
    let w := x.item.wi
    let i := x.item
    let rd := u.tableRd x 1
    let touch := fun (v : State) (reads : List (Nat × Nat)) =>
      State.touchTable (v.ioFor t i) (dHint (State.slotDesc x 1)) (dBase (State.slotDesc x 1)) reads.eraseDups v
    (∀ k received text, s.Runs t 0x61 true x bs u → u.itemTok i = some k → u.fieldOf i = some (received, text) → (readBytes bs 0).take text.length = text →
      let starts := charStarts text.length 0 text
      let gs := (starts.filter fun a => a / 4096 % max 1 (fld (wImm w 2) 15 0) == wImm w 3).map
        (edgeGroup (fun n => leNat (rd (64 * n) 64)) k starts text)
      let c := (gs.flatMap (·.2)).foldl touchNode (if (u.tile t).trieTok = some k.id then (u.tile t).trieNodes else [], 0)
      let y := (u.setTile t fun y => { y with trieTok := some k.id, trieNodes := c.1 }).count (State.tileCtr t 0x38) c.2
      ∀ v, touch y ((0, 64) :: (gs.flatMap (·.2)).map fun n => (64 * n, 64)) = (none, v) →
      exec (.trieWalk t) s = .next (s.after (v.finishText t x (gs.flatMap fun p => p.1.flatMap (leBytes 8)) 0 0)))
    ∧ (∀ k received text ts, s.Runs t 0x62 true x bs u → u.itemTok i = some k → u.fieldOf i = some (received, text) →
      let g := u.walkMembers i
      let part := (readBytes bs 0).length / g
      let groups := (List.range g).flatMap fun m => readGroups ((charStarts text.length 0 text).filter fun a => a / 4096 % g == m)
        (words64 (slice (readBytes bs 0) (m * part) part))
      segment k text (sortBy (fun (a b : Nat × List Nat) => decide (a.1 ≤ b.1)) groups) = some ts →
      let o := tokenList k (wImm w 0) (wImm w 1) received ts
      exec (.latticeStep t) s = .next (s.after (u.finishText t x o.1 (if o.2 = 0 then 0 else cbTrunc) o.2)))
    ∧ (∀ k v, s.Runs t 0x63 true x bs u → u.itemTok i = some k → (∀ n ∈ words32 (readBytes bs 0), n < k.vocab) →
      touch u ((words32 (readBytes bs 0)).flatMap fun n =>
        let e := leNat (rd (8 * n) 8)
        (8 * n, 8) :: if bitAt e 40 || fld e 39 32 = 0 then [] else [(8 * k.vocab + fld e 31 0, fld e 39 32)]) = (none, v) →
      let bytes := (words32 (readBytes bs 0)).flatMap fun n =>
        let e := leNat (rd (8 * n) 8)
        if bitAt e 40 then [] else rd (8 * k.vocab + fld e 31 0) (fld e 39 32)
      let st : TextState := if v.itemRepeats i then ((v.req? i.req).map v.textState).getD {} else {}
      let all := st.held ++ bytes
      let y := utf8Scan (!(v.itemRepeats i)) all.length all
      let out := y.1.flatMap fun c => utf8Enc c.1
      exec (.detok t) s = .next (s.after ((if v.itemRepeats i then
          (v.putTextState i { st with held := y.2 }).setOwner i fun q => { q with emitted := some out.length } else v).finishText t x out
        (if replacedIn y.1 = 0 then 0 else cbText) (replacedIn y.1))))
    ∧ (∀ q, s.Runs t 0x64 true x bs u → u.req? i.req = some q →
      let st := u.textState q
      let text := match q.emitted with
        | some n => (readBytes bs 0).take n
        | none => readBytes bs 0
      let r := matchStops q.stops text st.q st.tail []
      exec (.stopMatch t) s = .next (s.after (((u.putTextState i
        (if r.1 then { matched := true, q := r.2.1 } else { st with q := r.2.1, tail := r.2.2.1 })).setOwner i
          fun q => { q with emitted := none }).finishText t x r.2.2.2 0 0)))
    ∧ (∀ q, s.Runs t 0x65 true x bs u → u.req? i.req = some q → q.grammar = none →
      exec (.maskApply t) s = .next (s.after (u.finishItem t x { writes := [(8, ((words32 (readBytes bs 0)).map (BitVec.ofNat 32)).flatMap fun v =>
        leBytes 4 (v : W32).toNat)] })))
    ∧ (∀ q b g, s.Runs t 0x65 true x bs u → u.req? i.req = some q → q.grammar = some b → u.grammarKey? b.2 = some g →
      let at' := fun (o n : Nat) => u.readMem (g.obj.base + o) n
      let mask := (stateMask g.vocab g.offMasks at' (leNat (at' (g.offStates + 16 * wImm w 1) 16))).getD 0
      exec (.maskApply t) s = .next (s.after (u.finishItem t x { writes := [(8, (((words32 (readBytes bs 0)).map (BitVec.ofNat 32)).zipIdx.map
        fun (v, j) => State.maskLogit (bitAt mask (wImm w 2 + j)) v).flatMap fun v => leBytes 4 v.toNat)] })))
    ∧ ∀ p, s.Runs t 0x66 false x bs u → readTemplate (readBytes bs 0) = some p →
      let list := uAt (readBytes bs 1) 0 32
      let whole := words32 (slice (readBytes bs 2) 32 (4 * uAt (readBytes bs 2) 8 4))
      let fixed := ((p.slots.filter (tsKind · == 0)).map fun y => (tsRun1 y).2).sum + whole.length
      let excess := fixed - wImm w 0
      let side := ((p.kind? 1).map tsQtrunc).getD 0
      let query := if side = 2 then whole.drop excess else whole.take (whole.length - excess)
      let c : PackChoice := match p.kind? 2 with
        | some y => choose (wImm w 1 == 1) (tsRun1 y).2 (tsRun2 y).2 (tsMinTrim y)
            ((chunks 32 (slice (readBytes bs 1) 32 (32 * fld list 127 96))).map readPassage) { room := wImm w 0 - fixed }
        | none => { room := wImm w 0 - fixed }
      (excess ≠ 0 → (side = 0 ∨ whole.length ≤ excess) → exec (.pack t) s = .next (s.after (u.faultItem t x 1)))
      ∧ ∀ ps v, (excess = 0 ∨ (side ≠ 0 ∧ excess < whole.length)) → State.readPlaced (u.ioFor t i) c.placed u = (.ok ps, v) →
      let y := State.layPrompt p query ps p.slots ([], [])
      let cut := c.skipped + b01 (c.cut != 0)
      exec (.pack t) s = .next (s.after (v.finishItem t x {
        writes := [(8, State.promptBytes (wImm w 0) list excess c y.1 y.2)], aux := satTo 16 cut
        flags := (if excess != 0 || cut != 0 then cbTrunc else 0) + (if c.duplicates = 0 then 0 else cbDup) }))

/-- R80, R81, R85, R93, R105: a handle with its credit enters its queue after what its producer sent there earlier; a returned credit goes
to the producer's oldest waiting handle, and a producer that waited for nothing else ends; a fill lands in a ring that is not full, against a
credit when it comes from another tile, and after the last the producing work item ends; the reader's released slot sends the credit back. -/
def Obligations.HandlesAndRingsMove : Prop :=
  (∀ (i : Nat) (s : State) (f : SluiceFlight), s.sluiceFlights[i]? = some f → f.credit = true →
    (s.sluiceFlights.take i).any (fun g => g.src == f.src && g.dst == f.dst && g.queue == f.queue) = false → s.overtakes f.src f.dst f.sent = false →
    exec (.sluiceHandleArrival i) s = .next (s.after (({ s with sluiceFlights := s.sluiceFlights.eraseIdx i } : State).setTile f.dst fun x => { x with
      sluice := insertKey f.queue (lookupD f.queue x.sluice [] ++ [f.entry]) x.sluice
      reserved := insertKey f.queue (lookupD f.queue x.reserved 0 - 1) x.reserved })))
  ∧ (∀ (i : Nat) (s : State) (c : SluiceCredit), s.sluiceCredits[i]? = some c → s.overtakes c.dst c.src c.sent = false →
    let mine := fun (f : SluiceFlight) => f.src == c.src && f.dst == c.dst && f.queue == c.queue && !f.credit
    let u : State := { s with sluiceCredits := s.sluiceCredits.eraseIdx i }
    (s.sluiceFlights.any mine = true → exec (.sluiceCreditArrival i) s = .next (s.after
      (({ u with sluiceFlights := modifyFirst mine (fun f => { f with credit := true, sent := s.meshNext }) s.sluiceFlights } : State).sendNext.settleClosing c.src)))
    ∧ (s.sluiceFlights.any mine = false → exec (.sluiceCreditArrival i) s = .next (s.after
      (u.setTile c.dst fun x => { x with reserved := insertKey c.queue (lookupD c.queue x.reserved 0 - 1) x.reserved }))))
  ∧ (∀ (t ring u i : Nat) (s v : State) (x : Producer) (k : Closing) (b : Bytes) (rest : List Bytes), s.producerOf t ring = some (u, i, x) →
    s.closingOf u x.run = some k → x.fills = b :: rest →
    let r := s.ringOf t ring x.key
    let n := dRingSlots x.desc + 1
    let write := s.writeAt { tile := u, pool := k.x.item.pool, req := k.x.item.req } x.gang (State.innerOf x.desc)
      (dBase x.desc + ((r.2 % n : Nat) : Int) * dStride x.desc (dNdim x.desc - 1)) b
    ((r.1 + n ≤ r.2 ∨ (u ≠ t ∧ x.credits = 0)) → exec (.ringFillLanded t ring) s = .next (s.after s))
    ∧ (r.2 < r.1 + n → (u = t ∨ x.credits ≠ 0) →
      (∀ f, write = (some f, v) → exec (.ringFillLanded t ring) s = .next (s.after (v.closeRun u x.run f)))
      ∧ (write = (none, v) → rest ≠ [] →
        exec (.ringFillLanded t ring) s = .next (s.after ((v.setRing t ring x.key (r.1, r.2 + 1)).setTile u fun y => { y with
          producers := modifyAt i (fun z => { z with fills := rest, credits := z.credits - 1 }) y.producers })))
      ∧ (write = (none, v) → rest = [] →
        let w := (v.setRing t ring x.key (r.1, r.2 + 1)).setTile u fun y => { y with producers := y.producers.eraseIdx i }
        exec (.ringFillLanded t ring) s = .next (s.after (if (w.tile u).producers.any (·.run == x.run) then w else w.closeRun u x.run 0)))))
  ∧ (∀ (t ring n d : Nat) (s v : State) (x : Running) (bs : Bytes), (s.tile t).running = some x →
    x.slots.find? (fun p => x.toFetch.contains p.1 && decide (2 ≤ dRingSlots p.2) && dRingId p.2 == ring) = some (n, d) →
    let r := s.ringOf t ring (State.stageKey x.item)
    let o := dNdim d - 1
    (r.2 ≤ r.1 → exec (.ringSlotRelease t ring) s = .next (s.after s))
    ∧ (r.1 < r.2 → s.readUnits (s.ioFor t x.item) 0 (targetOf (dBase d)) (dBase d + ((r.1 % (dRingSlots d + 1) : Nat) : Int) * dStride d o)
      (dUnit d) (streamOffsets (State.innerOf d) none) = (.ok bs, v) →
    let got := lookupD n x.fetched [] ++ bs
    let y := (v.setRing t ring (State.stageKey x.item) (r.1 + 1, r.2)).setRunning t fun x => { x with
      fetched := insertKey n got x.fetched
      toFetch := if decide (dCount d o * innerUnits d * dUnit d ≤ got.length) then x.toFetch.erase n else x.toFetch }
    exec (.ringSlotRelease t ring) s = .next (s.after (match y.producerOf t ring with
      | some (u, _, _) => if u = t then y else { y with ringCredits := y.ringCredits ++ [(u, t, ring)] }
      | none => y))))
  ∧ ∀ (i : Nat) (s : State) (c : Nat × Nat × Nat), s.ringCredits[i]? = some c →
    exec (.ringCreditArrival i) s = .next (s.after (({ s with ringCredits := s.ringCredits.eraseIdx i } : State).setTile c.1 fun y => { y with
      producers := y.producers.map fun (x : Producer) =>
        if x.tile == c.2.1 && dRingId x.desc == c.2.2 then { x with credits := x.credits + 1 } else x }))

/-- R61, R89, R90, R93, R95, R98, R300, R310, R443, R447: a payload of a work item lands at a destination after what its source sent there
earlier, its bytes before its handle; a remote read gives its slot the bytes, after its reader's earlier ones from that tile; a failed flit is
counted and sent again, 16 failed retries being a dead link; a line that stays uncorrectable is listed and its reader fails. -/
def Obligations.PayloadsReadsAndRetries : Prop :=
  (∀ (i t : Nat) (s u : State) (f : LeatFlight), s.leatArrives i t = some (f, u) → f.use = .plain →
    let v := (u.tileWrite (some f.req) (tileWindow t + f.offset) f.bytes).2
    (f.queue = none → exec (.leatPayloadLand i t) s = .next (s.after v))
    ∧ (∀ q, f.queue = some q → (v.live? f.req f.reqOrder).isSome = true →
      exec (.leatPayloadLand i t) s = .next (s.after (v.sendHandle f.src t q
        { handle := setLast (tileHandle t f.offset f.bytes.length (v.gen t (f.offset / 4096)) 0), req := f.req, reqOrder := f.reqOrder } f.run)))
    ∧ ∀ q, f.queue = some q → v.live? f.req f.reqOrder = none →
      exec (.leatPayloadLand i t) s = .next (s.after
        (v.releaseBuffer (setLast (tileHandle t f.offset f.bytes.length (v.gen t (f.offset / 4096)) 0)))))
  ∧ (∀ (i t : Nat) (s : State) (f : LeatFlight), s.leats[i]? = some f →
    (((∃ g ∈ s.leats.take i, g.src = f.src ∧ t ∈ g.dsts) ∨ t ∉ f.dsts ∨ s.overtakes f.src t f.sent = true) →
      exec (.leatPayloadLand i t) s = .next (s.after s))
    ∧ (t ∈ f.dsts → (∀ g ∈ s.leats.take i, g.src = f.src → t ∉ g.dsts) → s.overtakes f.src t f.sent = false → ∃ u, s.leatArrives i t = some (f, u)))
  ∧ (∀ (i : Nat) (s u : State) (rr : RemoteRead) (x : Running) (bs : Bytes), s.remoteReads[i]? = some rr → (s.tile rr.reader).running = some x →
    rr.slot ∈ x.toFetch →
    (∀ q ∈ s.remoteReads.take i, q.reader = rr.reader →
      targetOf (dBase (State.slotDesc x q.slot)) ≠ targetOf (dBase (State.slotDesc x rr.slot))) →
    State.readStream (s.ioFor rr.reader x.item) (State.slotDesc x rr.slot) ((x.index.find? (·.1 == rr.slot)).map Prod.snd)
      { s with remoteReads := s.remoteReads.eraseIdx i } = (.ok bs, u) →
    exec (.remoteRead i) s = .next (s.after (u.setRunning rr.reader fun x => { x with
      fetched := (rr.slot, bs) :: x.fetched, toFetch := x.toFetch.erase rr.slot })))
  ∧ (∀ (t dir : Nat) (again : Bool) (s : State) (k : Nat), s.boot.service = 1 → s.power.state ≤ 1 →
    (if again then (s.errors.flitFails.find? fun f => f.1 == t && f.2.1 == dir).map (·.2.2 + 1) else some 0) = some k →
    let u : State := { s with errors := { s.errors with
      flitFails := (t, dir, k) :: s.errors.flitFails.filter fun f => !(f.1 == t && f.2.1 == dir) } }
    (k < 16 → exec (.meshFlitCrcFail t dir again) s = .next (s.after
      ((u.count (State.tileCtr t (0x80 + 8 * dir)) 1).correctedEvent { cause := 0x10, unit := 2, unitIndex := t, detail := dir } fnPools)))
    ∧ (16 ≤ k → exec (.meshFlitCrcFail t dir again) s = .next (s.after
      (u.deviceEvent { cause := 0x11, unit := 2, unitIndex := t, detail := dir }))))
  ∧ ∀ (line r : Nat) (s : State) (q : Request), s.boot.service = 1 → line ∉ s.errors.badLines → s.req? r = some q →
    let e : State.Event := { cause := 0x09, unit := 1, unitIndex := stackOf (line * 64), addr := line * 64 }
    (∀ o, o ≠ .failed → exec (.hbmEccRetry line (.request r) o) s = .next (s.after (s.correctedEvent e fnHopper)))
    ∧ exec (.hbmEccRetry line (.request r) .failed) s = .next (s.after
      (((s.containedEvent { e with cause := 0x0A, req := some r } fnHopper).listLine line).failRequest r 6 none))
    ∧ exec (.hbmEccRetry line .background .failed) s = .next (s.after ((s.containedEvent { e with cause := 0x0A } 0).listLine line))
    ∧ ∀ t p o, o ≠ .failed → (s.tile t).running.isSome = true → s.workTile t = true → s.poolOf t = some p → s.wheelTile t = false →
      exec (.hbmEccRetry line (.tile t) o) s = .next (s.after ((s.chargeFree (State.poolCtr p 0x18)).correctedEvent e fnPools))

/-- R24, R106, R117, R270, R279, R288: a request whose budget runs out ends FAILED_DEADLINE; a record takes effect once all that its work item
sent has been taken up; a handle that reaches the Hopper is kept for the stages that take it, in order, unless its request has ended;
write-backs and page copies that end are noted. -/
def Obligations.HopperTakesRecordsAndHandles : Prop :=
  (∀ (r d : Nat) (s : State) (q : Request), s.req? r = some q → q.deadline = some d → q.status = none →
    exec (.deadlineExpiry r) s = .next (s.after (({ s with meshCount := max s.meshCount d } : State).endRequest r stDeadline)))
  ∧ (∀ (i : Nat) (s : State) (c : Completion), s.completions[i]? = some c →
    (s.runFlying c = true → exec (.workCompletionRecord i) s = .next (s.after s))
    ∧ (s.runFlying c = false →
      let r := fld c.record 63 52
      let u := ({ s with completions := s.completions.eraseIdx i } : State).releaseBuffers c.released
      exec (.workCompletionRecord i) s = .next (s.after
        (((u.chargeShare c.pool (((u.req? r).map (·.shareClass)).getD 0)).takeRecord c).freeIfIdle r))))
  ∧ (∀ (i : Nat) (s : State) (h : Handoff) (q : Request), s.handoffs[i]? = some h →
    (s.handoffs.take i).any (fun g => g.run == h.run && g.reqOrder == h.reqOrder) = false → s.req? h.req = some q →
    let u : State := { s with handoffs := s.handoffs.eraseIdx i }
    let shared := (s.stageOf q h.hand.stage).map (·.repeats) = some true ∧ (((s.planOf q).bind fun p => p.items[h.hand.template]?).map perRequest) = some false
    (∀ d, shared → s.stepOf h.req h.reqOrder = some d →
      exec (.hopperHandoff i) s = .next (s.after (if u.handsFull q (q.hands ++ d.hands) h.hand.stage then
          (u.releaseBuffer h.hand.handle).faultProducer h.run h.reqOrder else u.setStep { d with hands := d.hands ++ [h.hand] })))
    ∧ ((¬shared ∨ s.stepOf h.req h.reqOrder = none) →
    ((q.order ≠ h.reqOrder ∨ q.status ≠ none) →
      exec (.hopperHandoff i) s = .next (s.after (u.releaseBuffer h.hand.handle)))
    ∧ (q.order = h.reqOrder → q.status = none → u.handsFull q q.hands h.hand.stage = true →
      exec (.hopperHandoff i) s = .next (s.after ((u.releaseBuffer h.hand.handle).faultProducer h.run h.reqOrder)))
    ∧ (q.order = h.reqOrder → q.status = none → u.handsFull q q.hands h.hand.stage = false → 
      let v := u.setReq h.req fun q => { q with hands := q.hands ++ [h.hand] }
      exec (.hopperHandoff i) s = .next (s.after (if h.opcode = 0x36 then v.seeToken h.req else v)))))
  ∧ (∀ (r : Nat) (s : State) (q : Request), s.req? r = some q → q.writeback = true → q.status = none →
    exec (.kvWritebackDone r) s = .next (s.after ((s.unstage ((q.pages.filter fun p => !p.shared).map (·.base)) (s.pageBytes q)).setReq r
      fun q => { q with writeback := false })))
  ∧ ∀ (r : Nat) (s : State) (q : Request) (p : Prefix), s.req? r = some q → q.copying = true → q.status = none →
    s.prefixes.find? (fun p => some p.handle == q.reuse) = some p →
    let layers := ((s.modelOf q).map (·.layers)).getD 1
    let own := ((q.pages.drop (q.length / 64 * layers)).take layers).map (·.base)
    let n := q.length % 64 * (s.pageBytes q / 64)
    p.partialPages.find? (fun a => s.hasBadLine a n) = none →
    exec (.prefixPageCopyDone r) s = .next (s.after ((((p.partialPages.zip own).foldl (fun (s : State) y =>
      s.storeHbm (some r) fnHopper y.2 (s.readMem y.1 n)) s).setReq r
      fun q => { q with copying := false }).advanceKv r q.length))

/-- R85, R86, R99, R120 to R123, R272: a tile with fewer than 8 entries gets ready work, or is idle with an empty queue; a thief takes at most
half, and at most four, of the stealable entries from its candidate's tail; the entry at a queue's head starts once its handles are there,
with its first fault or a poisoned input ending it. -/
def Obligations.TilesRefillStealAndStart : Prop :=
  (∀ (t p : Nat) (s : State), s.poolOf t = some p → s.workTile t = true → (s.tile t).queue.length < 8 →
    exec (.tileRefillRequest t) s = .next (s.after (s.refill t))
    ∧ (((s.adoptWeights p).pool p).queue.filter ((s.adoptWeights p).itemReady t) = [] → (s.tile t).queue = [] →
      exec (.tileRefillRequest t) s = .next (s.after ((s.adoptWeights p).setTile t fun x => { x with idle := true, steal := 0, woken := false }))))
  ∧ (∀ (thief victim : Nat) (s : State), s.workTile thief = true → (s.tile thief).idle = true →
    (s.stealOrder thief)[(s.tile thief).steal]? = some victim →
    let can := (s.tile victim).queue.filter State.stealable
    let k := min (ceilDiv can.length 2) 4
    let got := can.drop (can.length - k)
    exec (.stealTake thief victim) s = .next (s.after
      ((s.setTile victim fun v => { v with queue := v.queue.filter fun i => !(got.contains i) }).setTile thief fun v =>
        { v with queue := v.queue ++ got, steal := v.steal + 1
                 idle := !(((v.steal + 1) % 4 == 0 || decide ((s.stealOrder thief).length ≤ v.steal + 1)) && !(v.queue ++ got).isEmpty) }))
    ∧ got.length = k)
  ∧ (∀ (t : Nat) (s : State), s.workTile t = true → (s.tile t).idle = true → (s.tile t).queue = [] →
    ((s.tile t).woken = false → exec (.hopperWake t) s = .next (s.after s))
    ∧ ((s.tile t).woken = true → (s.tile t).steal < (s.stealOrder t).length → exec (.hopperWake t) s = .next (s.after s))
    ∧ ((s.tile t).woken = true → (s.stealOrder t).length ≤ (s.tile t).steal → exec (.hopperWake t) s = .next (s.after
      ((s.setTile t fun y => { y with woken := false }).refill t)))
    ∧ ((s.stealOrder t).length ≤ (s.tile t).steal → exec (.idleTileTimeout t) s = .next (s.after (s.refill t)))
    ∧ ((s.tile t).steal < (s.stealOrder t).length → exec (.idleTileTimeout t) s = .next (s.after s)))
  ∧ ∀ (t : Nat) (s : State) (i : Item) (rest : List Item), (s.tile t).queue = i :: rest → (s.tile t).running = none → s.workTile t = true →
    (s.dequeue t i = none → exec (.workItemStart t) s = .next (s.after s))
    ∧ ∀ es, s.dequeue t i = some es →
      let hs := es.map (·.handle)
      let c := State.swapContext t i (match wInQ i.wi with
        | some q => s.takeEntries t q es
        | none => s)
      let v := c.2
      let p := v.placeSlots t i hs
      let f := State.slotsToFetch i.wi t p.1
      let x : Running := { item := i, run := v.runNext, slots := p.1, index := p.2.1, handles := hs, toFetch := f.1 }
      let y := ({ v with runNext := v.runNext + 1 } : State).setTile t fun y =>
        { y with queue := rest, running := some x, gang := if wOpcode i.wi / 16 = 1 then wGang i.wi else y.gang }
      (p.2.2 ≠ 0 → exec (.workItemStart t) s = .next (s.after (y.faultItem t x p.2.2)))
      ∧ (p.2.2 = 0 → (hs ++ i.inHandles.map Prod.snd).any handlePoison = true → exec (.workItemStart t) s = .next (s.after (y.faultItem t x 7)))
      ∧ (p.2.2 = 0 → (hs ++ i.inHandles.map Prod.snd).any handlePoison = false → c.1 ≠ none → exec (.workItemStart t) s = .next (s.after (y.faultItem t x 6)))
      ∧ (p.2.2 = 0 → (hs ++ i.inHandles.map Prod.snd).any handlePoison = false → c.1 = none →
        exec (.workItemStart t) s = .next (s.after { y with remoteReads := y.remoteReads ++ f.2.map fun n => { reader := t, slot := n } }))


/-- R294, R447: a write by the port or the Hopper stores its bytes and leaves every other byte as it was, but for a listed line that it covers
in part, which does not change; a line that it covers whole leaves the bad-line table, and no other does. The memory keeps its form. -/
def Obligations.HbmWritesSpareListedLines : Prop :=
  ∀ (s : State) (a : Nat) (bs : Bytes), s.memOk →
    let t := s.portWrite a bs
    let covered := fun (l : Nat) => a ≤ l * 64 ∧ l * 64 + 64 ≤ a + bs.length
    t.memOk
    ∧ (∀ x, x < a ∨ a + bs.length ≤ x → Memory.read t.mem x = Memory.read s.mem x)
    ∧ (∀ i, i < bs.length → ((a + i) / 64 ∈ s.errors.badLines → covered ((a + i) / 64)) → Memory.read t.mem (a + i) = bs.getD i 0)
    ∧ (∀ i, i < bs.length → (a + i) / 64 ∈ s.errors.badLines → ¬covered ((a + i) / 64) → Memory.read t.mem (a + i) = Memory.read s.mem (a + i))
    ∧ ∀ l, l ∈ t.errors.badLines ↔ l ∈ s.errors.badLines ∧ ¬covered l

/-- R209 to R211, R252, R253, R369, R430: an owner answers a row or passage request with its status and what it holds, or NOT_READY while
its function does not run or the pool that serves it is gated; a reply goes to the exchange that awaits it, whose look-up, install or
passage stage goes on or ends. -/
def Obligations.OwnersServeRowsAndPassages : Prop :=
  ∀ (m : Msg) (s : State) (d : Delivered) (q : Session),
    let p := d.frags.flatten
    let h := CollHead.decode p
    let body := p.drop 64
    let u := s.untake d
    let answer := fun (op : Nat) (bs : Bytes) (v : State) => (Host.Outcome.next (s.after (v.sendColl q.id
      { op, origin := h.origin, number := h.number, req := h.req } bs)) : Host.Outcome State Machine.Fault Machine.Refusal)
    (s.Joins 1 m d q →
      ((s.runs fnLookup = false ∨ (∀ pool, s.hotPool = some pool → bitAt s.power.gate pool = true)) → exec (.rowRequest m) s = answer 2
        (replyHeader 0x53574F52 (h.number % 65536) (fld (uAt body 0 32) 56 48) 2 0 0) u)
      ∧ ∀ pool status stride rows, s.hotPool = some pool → bitAt s.power.gate pool = false → s.runs fnLookup = true →
        u.serveRows body = (status, stride, rows) →
        (status ≠ 0 → exec (.rowRequest m) s = answer 2
          (replyHeader 0x53574F52 (h.number % 65536) (fld (uAt body 0 32) 56 48) status 0 stride ++ rows) u)
        ∧ (status = 0 → exec (.rowRequest m) s = answer 2
          (replyHeader 0x53574F52 (h.number % 65536) (fld (uAt body 0 32) 56 48) 0 (fld (uAt body 0 32) 159 128) stride ++ rows)
          (u.chargeShare pool (fld (uAt body 0 32) 165 160))))
    ∧ (s.Joins 3 m d q → exec (.passageRequest m) s = answer 4 (
      let r := if s.runs fnServe then u.servePassages body else (2, 0, [])
      replyHeader 0x53505350 (h.number % 65536) 0 r.1 r.2.1 0 ++ r.2.2) u)
    ∧ (s.Joins 2 m d q → u.exchangeOf q [0, 2] h.number = none → exec (.rowReply m) s = .next (s.after u))
    ∧ (s.Joins 2 m d q → ∀ e, u.exchangeOf q [0, 2] h.number = some e →
      let r := uAt body 0 32
      let stride := fld r 175 160
      let v := u.dropExchange e
      let ok := replyWhole r = true ∧ fld r 31 0 = 0x53574F52 ∧ fld r 56 48 = e.object ∧ fld r 47 32 = e.xid % 65536
      (¬ok → exec (.rowReply m) s = .next (s.after (v.exchangeFails e stContained)))
      ∧ (ok → fld r 71 64 ≠ 0 → exec (.rowReply m) s = .next (s.after (v.exchangeFails e (State.replyEnds (fld r 71 64)))))
      ∧ (ok → fld r 71 64 = 0 → fld r 159 128 = e.ids.length → (body.drop 32).length = e.ids.length * stride →
        (s.tableCfg? e.object).map (·.stride) = some stride →
        (e.kind = 2 → exec (.rowReply m) s = .next (s.after (v.hotRows e stride (body.drop 32))))
        ∧ (e.kind ≠ 2 → (s.live? e.req e.reqOrder).isSome = true →
          exec (.rowReply m) s = .next (s.after (v.lookupRows e stride (body.drop 32))))))
    ∧ (s.Joins 4 m d q → u.exchangeOf q [1] h.number = none → exec (.passageReply m) s = .next (s.after u))
    ∧ (s.Joins 4 m d q → ∀ e, u.exchangeOf q [1] h.number = some e → (s.live? e.req e.reqOrder).isSome = true →
      let r := uAt body 0 32
      let v := u.dropExchange e
      let ok := replyWhole r = true ∧ fld r 31 0 = 0x53505350 ∧ fld r 56 48 = 0 ∧ fld r 47 32 = e.xid % 65536
      (¬ok → exec (.passageReply m) s = .next (s.after (v.exchangeFails e stContained)))
      ∧ (ok → fld r 71 64 ≠ 0 → exec (.passageReply m) s = .next (s.after (v.exchangeFails e (State.replyEnds (fld r 71 64)))))
      ∧ (ok → fld r 71 64 = 0 → ∀ ps, State.replyPassages e.ids (body.drop 32) = some ps →
        (∀ p ∈ ps, p.2.length ≤ 4 * ((s.storeCfg? e.object).map (·.maxTokens)).getD 0) →
        exec (.passageReply m) s = .next (s.after (v.passagesLand e ps)))
      ∧ (ok → fld r 71 64 = 0 → State.replyPassages e.ids (body.drop 32) = none →
        exec (.passageReply m) s = .next (s.after (v.exchangeFails e stContained))))

/-- R184, R185, R189, R191, R369: a MERGE_START is forwarded to the children of the rank that it makes its receiver, and admitted or refused
there; a list is kept by rank 0 unless its coverage overlaps what is there, and passed to rank 0 by a rank that has sent its own; sums,
gathered entries and decisions of a selection reach the collective, a decision going on down the tree. -/
def Obligations.CollectivesTakeTheirMessages : Prop :=
  ∀ (m : Msg) (s : State) (d : Delivered) (q : Session),
    let p := d.frags.flatten
    let h := CollHead.decode p
    let body := p.drop 64
    let u := s.untake d
    let done := fun (v : State) => (Host.Outcome.next (s.after v) : Host.Outcome State Machine.Fault Machine.Refusal)
    let members := h.origin :: (maskBits h.coverage).filter (· != h.origin)
    let old := s.coll? 0 h.number h.origin
    (s.Joins 5 m d q →
      ((members.findIdx? s.ownIndex = none ∨ members.findIdx? s.ownIndex = some 0 ∨ ∃ c, old = some c ∧ c.upward = none) →
        exec (.mergeStart m) s = done u)
      ∧ ∀ rank, members.findIdx? s.ownIndex = some rank → rank ≠ 0 → (∀ c, old = some c → c.upward ≠ none) →
        let v := (rankKids members.length rank).foldl (fun (v : State) kid => match (members[kid]?).bind v.ownerSession with
          | some sid => v.sendColl sid { op := 5, level := rankLevel kid, rank, origin := h.origin, number := h.number, req := h.req
                                         budget := h.budget, coverage := h.coverage } body
          | none => v) (match old with
            | some c => u.dropColl c
            | none => u)
        let c : Collective := { number := h.number, origin := h.origin, originReq := h.req, kind := 0, members, rank, req := 4096, reqOrder := 0
                                k := uAt body 4 4, limit := if h.budget = 0 then none else some (s.meshCount + countsOf h.budget) }
        (∀ x w, v.admitMerge h body = some (x, w) →
          exec (.mergeStart m) s = done { w with collectives := w.collectives ++ [{ c with req := x.1, reqOrder := x.2 }] })
        ∧ (v.admitMerge h body = none → exec (.mergeStart m) s = done { v with collectives := v.collectives ++ [c] }))
    ∧ (s.Joins 6 m d q →
      (old = none → exec (.mergeList m) s = done u)
      ∧ ∀ c, old = some c →
        let refusal := h.coverage = 0 ∨ listWhole body = false
        (c.rank = 0 → refusal → exec (.mergeList m) s = done (u.setColl { c with arrived := c.arrived ++ [h.rank] }))
        ∧ (c.rank = 0 → ¬refusal → h.coverage &&& c.covered ≠ 0 → exec (.mergeList m) s = done u)
        ∧ (c.rank = 0 → ¬refusal → h.coverage &&& c.covered = 0 → exec (.mergeList m) s = done (u.setColl { c with
          waiting := c.waiting ++ [(h.rank, h.coverage, body)], covered := c.covered ||| h.coverage }))
        ∧ (c.rank ≠ 0 → ¬refusal → c.sent = false →
          exec (.mergeList m) s = done (u.setColl { c with waiting := c.waiting ++ [(h.rank, h.coverage, body)] }))
        ∧ (c.rank ≠ 0 → (refusal ∨ c.sent = true) →
          let v := u.setColl { c with arrived := c.arrived ++ [h.rank] }
          exec (.mergeList m) s = done (match (c.members[0]?).bind v.ownerSession with
            | some sid => v.sendColl sid h body
            | none => v)))
    ∧ (s.Joins 7 m d q → (body.length = 1044 → exec (.selBins m) s = done (u.keepSel q h.number (uAt body 0 4) body))
      ∧ (body.length ≠ 1044 → exec (.selBins m) s = done u))
    ∧ (s.Joins 9 m d q → (listWhole body = true → exec (.selGather m) s = done (u.keepSel q h.number 13 body))
      ∧ (listWhole body = false → exec (.selGather m) s = done u))
    ∧ (∀ n round, ∃ c ∈ (u.keepSel q n round body).collectives, c.kind = 1 ∧ c.number = n ∧ ∃ dev, (dev, round, body) ∈ c.waiting)
    ∧ (s.Joins 8 m d q →
      let found := s.collectives.find? fun x => x.kind == 1 && x.number == h.number && !x.members.isEmpty
      let d := Decision.decode body
      let left := maskBits h.coverage
      (found = none → exec (.selDecision m) s = done u)
      ∧ ∀ c, found = some c →
        ((c.rank = 0 ∨ body.length ≠ 32 ∨ d.round = 0 ∨ 13 < d.round) → exec (.selDecision m) s = done u)
        ∧ (c.rank ≠ 0 → body.length = 32 → 1 ≤ d.round → d.round ≤ 13 →
          ((d.kind ≠ 0 ∨ d.round ≠ 1 ∨ h.coverage = 0) → exec (.selDecision m) s = done (u.takeDecision c d 0))
          ∧ ∀ rank, d.kind = 0 → d.round = 1 → h.coverage ≠ 0 → left.findIdx? s.ownIndex = some rank →
            exec (.selDecision m) s = done (u.takeDecision { c with
              members := left, rank, missing := c.missing || decide (left.length < c.members.length)
              waiting := c.waiting.filter fun x => x.2.1 == 13 } d 0)))

/-- R141, R142, R146, R151, R153 to R155: a rider's query is read, folded and multicast to the tiles, or fails its request; an evicted entry
goes into the rider's keeper list, a higher θ to the tiles; a rider that has left everywhere gives its result and frees its slot; one whose
request ended is dropped. -/
def Obligations.RidersBoardKeepAndLeave : Prop :=
  ∀ (s : State) (p slot : Nat) (w : Wheel) (r : Rider) (c : CorpusCfg) (k : Corpus), s.wheel? p = some w → State.rider? w slot = some r →
    s.corpusCfg? w.corpus = some c → s.corpus? w.corpus = some k → s.poolActive p = true →
    (r.phase = 0 → s.riderLive r = true → ∀ hnd q, s.req? r.req = some q → (State.stageRun? q r.stage).map (·.inputs) = some [hnd] →
      (handlePoison hnd = true → exec (.riderPrepare p slot) s = .next (s.after (s.failRequest r.req 5 (some r.stage))))
      ∧ (∀ u, handlePoison hnd = false → s.hopperGet r.req r.stage hnd = .error u → exec (.riderPrepare p slot) s = .next (s.after u))
      ∧ ∀ bs, handlePoison hnd = false → s.hopperGet r.req r.stage hnd = .ok bs →
        (queryOk c bs = false → exec (.riderPrepare p slot) s = .next (s.after (s.failRequest r.req 1 (some r.stage))))
        ∧ (queryOk c bs = true →
          let f := s.foldQuery c k { r with phase := 1, k := fld (uAt bs 0 32) 95 80, rescore := fld (uAt bs 0 32) 111 96
                                            listOut := bitAt (uAt bs 0 32) 34 || s.merging r.req r.reqOrder } (queryElems c bs)
          let v := f.2.setWheel (State.onRider w slot fun _ => f.1)
          exec (.riderPrepare p slot) s = .next (s.after ((List.range (State.riderParts c)).foldl (fun (v : State) i =>
            v.multicast (v.keeperOf c p slot) p f.1 (slice (packCodes (codeBits c) f.1.codes ++ State.riderRecord f.1 0) (256 * i) 256)
              (.rider slot)) v))))
    ∧ (r.phase = 3 → w.flying = [] → (w.tiles.any fun x => x.2.evict.any (·.1 == slot)) = false →
      (s.riderLive r = false → exec (.riderFinalMerge p slot) s = .next (s.after (s.freeSlot w slot r)))
      ∧ (s.riderLive r = true →
        let f := State.finalList r (w.tiles.flatMap fun x => lookupD slot x.2.lists [])
        let ty := scoreType c.distance
        (r.rescore = 0 → exec (.riderFinalMerge p slot) s = .next (s.after ((s.handResult c r {
          k := r.k, type := ty, cands := f.1, tieLeft := f.2, nans := r.nans
          flags := (if f.2 = 0 then 0 else flTie) + (if f.1.length < r.k then flShort else 0) + (if r.nans = 0 && !r.nan then 0 else flNan) }).freeSlot
            w slot r)))
        ∧ (r.rescore ≠ 0 →
          (∀ e u, State.rescoreAll c k r f.1 s = (.error e, u) →
            exec (.riderFinalMerge p slot) s = .next (s.after ((u.hopperFault r.req r.stage e.1 e.2).freeSlot w slot r)))
          ∧ ∀ vs u, State.rescoreAll c k r f.1 s = (.ok vs, u) →
            let l := topkList r.k ty (vs.map (·.toNat)) (f.1.map (·.id)) (f.1.map (·.src))
            let nans := r.nans + l.nans
            exec (.riderFinalMerge p slot) s = .next (s.after ((u.handResult c r { l with
              nans, flags := if nans = 0 && !r.nan then l.flags else l.flags ||| flNan }).freeSlot w slot r)))))
    ∧ (r.phase < 3 → s.riderLive r = false →
      exec (.riderDrop p slot) s = .next (s.after ((s.setWheel (State.onTile
        (State.onRider w slot fun r => { r with phase := 4, keeper := [] }) (s.keeperOf c p slot)
        fun x => { x with landed := x.landed.filter (· != slot) })).multicast (s.keeperOf c p slot) p r [] (.drop slot))))
    ∧ ∀ t e rest x, s.wheels.find? (fun w => w.tiles.any (·.1 == t)) = some w → w.tiles.find? (·.1 == t) = some (t, x) →
      x.evict = (slot, e) :: rest → r.phase = 2 →
      let y := State.keeperTake r e
      let v := (s.setWheel (State.onRider (State.onTile w t fun x => { x with evict := rest }) slot fun _ => y)).layTile (s.keeperOf c w.pool slot)
      y.keeper = (insertBy candLe e r.keeper).take (State.kList r) ∧ r.theta ≤ y.theta
      ∧ exec (.evictionArrival t) s = .next (s.after (((if r.theta < y.theta then
          v.multicast (s.keeperOf c w.pool slot) w.pool y (leBytes 4 y.theta) (.theta slot y.theta) else v).resumeSlice t).layTile t))

/-- R129, R135, R137 to R139, R143, R145, R146, R151, R152, R156, R446: a tile scores its slice for every rider aboard; when it has, it sends
its token with its landed bits and its fault bit; with every token in, the root releases the next segment or holds, by what the tokens carry; a
release reaches a tile, which admits boarders and retires those that leave; a Wheel that does not turn for a second with a rider aboard stops
the function. -/
def Obligations.WheelTurnsBySegments : Prop :=
  (∀ (t : Nat) (s : State) (w : Wheel) (x : WheelTile), s.wheelAt t = some (w, x) →
    (x.release ≠ none → x.token = none → (x.scored = true ∨ x.aboard = []) →
      exec (.wheelSliceDone t) s = .next (s.after (s.setWheel (State.onTile w t fun x => { x with token := some (x.landed, x.fault) }))))
    ∧ (x.scored = false → x.aboard ≠ [] → exec (.wheelSliceDone t) s = .next (s.after s))
    ∧ ((x.begun = true ∨ x.scored = true) → exec (.dist t) s = .next (s.after s))
    ∧ (∀ rel c k, x.release = some rel → s.corpusCfg? w.corpus = some c → s.corpus? w.corpus = some k → x.begun = false → x.scored = false →
      let p := s.relIndex w.pool t
      let rows := s.sliceRows c k rel.seg p
      let y := x.aboard.foldl (fun (acc : List (Nat × Cand) × Wheel) slot => match State.rider? acc.2 slot with
        | some r => if r.phase != 2 then acc else
            let z := State.scoreRider c (rows.filter (State.sees k (rel.switch == 1) rel.seg r)) r
            (acc.1 ++ z.1, State.onRider acc.2 slot fun _ => z.2)
        | none => acc) ([], w)
      let u := (s.fillRing t (s.sliceBytes c k rel.seg p)).chargeFree (State.tileCtr t 0)
      (s.sliceBad c k rel.seg p = none →
        exec (.dist t) s = .next (s.after (u.goOnSlice t y.2 { x with begun := true, todo := y.1, evicted := 0 })))
      ∧ ∀ line, s.sliceBad c k rel.seg p = some line →
        exec (.dist t) s = .next (s.after (((u.goOnSlice t y.2 { x with begun := true, todo := y.1, evicted := 0, fault := true }).containedEvent
          { cause := 0x0B, unit := 1, unitIndex := stackOf (line * 64), addr := line * 64 } fnWheel).containedEvent
          { cause := 0x21, unit := 9, unitIndex := t, addr := line * 64 } fnWheel)))
    ∧ (w.flying.contains t = true →
      let rel := w.release
      exec (.wheelReleaseArrival t) s = .next (s.after ((s.setWheel (State.onTile { w with flying := w.flying.erase t } t fun x =>
        let x := if rel.faulted then x.aboard.foldl (fun x i => State.clearSlot i x) x else x
        let y := rel.board.foldl (fun (y : WheelTile) i =>
          { y with aboard := y.aboard ++ [i], lists := insertKey i [] y.lists, theta := insertKey i 0 y.theta }) x
        { y with
          release := some rel, begun := false, scored := false, todo := [], evicted := 0, token := none, fault := false
          aboard := y.aboard.filter fun i => !(rel.leave.contains i)
          landed := y.landed.filter fun i => !(rel.leave.contains i), parts := y.parts.filter fun z => !(rel.leave.contains z.1) })).layTile t))))
  ∧ (∀ (l : Nat) (es : List (Nat × Cand)) (x : WheelTile), (State.takeTodo l es x).scored = false → x.scored = false →
    State.evictRoom ≤ (State.takeTodo l es x).evict.length)
  ∧ ∀ (p : Nat) (s : State) (w : Wheel), s.wheel? p = some w → s.works fnWheel = true →
    (s.poolActive p = true → w.flying = [] → w.tiles ≠ [] → (w.tiles.all fun x => x.2.token.isSome) = true →
      let y := { w with riders := w.riders.map fun r => if r.phase == 2 then { r with scored := r.scored ++ [w.release.seg] } else r }
      let landed := State.tokenMask w
      (w.release.next ≠ .pause →
        exec (.wheelBoundaryCombine p) s = .next (s.after (s.formRelease y w.release.next landed (State.tokenFault w))))
      ∧ (w.release.next = .pause → State.stirs y landed = true →
        exec (.wheelBoundaryCombine p) s = .next (s.after (s.formRelease y (w.held.getD .pause) landed (State.tokenFault w))))
      ∧ (w.release.next = .pause → State.stirs y landed = false →
        exec (.wheelBoundaryCombine p) s = .next (s.after (s.setWheel
          { y with tiles := w.tiles.map fun x => (x.1, { x.2 with release := none, token := none }) }))))
    ∧ (s.poolActive p = true → State.paused w = true → State.stirs w (State.landedAll w) = true →
      exec (.wheelWake p) s = .next (s.after (s.formRelease w (w.held.getD .pause) (State.landedAll w) false)))
    ∧ ((w.riders.any (·.phase == 2)) = true →
      exec (.wheelWatchdog p) s = .next (s.after ((s.atLeast (w.at' + State.ticksOfMs 1000)).functionEvent { cause := 0x2D, unit := 9, unitIndex := p } 3)))


/-- R162, R197, R300, R394, R447, R449, R453, R454, R477: a background merge writes a segment at a time, a slab copy lets the writes that wait
for it go on, zeroising clears one range and answers the removals it completes, the HBM and tile-memory scrubs count what they correct and
list or clear what they cannot, the second time a word of a tile fails failing the device, telemetry takes one sample, calibration takes one sensor, and a deferral past its limit is counted. -/
def Obligations.BackgroundTasksRun : Prop :=
  (∀ (id : Nat) (s : State) (k : Corpus) (c : CorpusCfg) (g : MergeRun), s.corpus? id = some k → s.corpusCfg? id = some c → k.merge = some g →
    ((s.works fnWheel = false ∨ s.cfg.pools.any (·.has 0) = false) → exec (.bgCorpusMerge id) s = .next (s.after s))
    ∧ (s.works fnWheel = true → s.cfg.pools.any (·.has 0) = true →
      let u := s.mergeSegment c k g
      (g.next + 1 < g.last → exec (.bgCorpusMerge id) s = .next (s.after u))
      ∧ (g.next + 1 = g.last → ∀ k', u.corpus? id = some k' →
        exec (.bgCorpusMerge id) s = .next (s.after (u.finishMerge c k' { g with next := g.next + 1 })))
      ∧ (g.last ≤ g.next → exec (.bgCorpusMerge id) s = .next (s.after (s.finishMerge c k g)))))
  ∧ (∀ (id v n : Nat) (s u : State) (x y : TableVer) (t : TableCfg) (w : Write) (rest : List Write) (slab : Nat × Nat × Nat),
    s.table? id v = some x → s.tableCfg? id = some t → x.waiting = w :: rest → x.slabs.find? (·.1 == n) = some slab → s.sharedSlab x n = true →
    (s.newSlab { x with written := s.soundRows t.stride x x.written } n slab.2.2 = some (y, u) →
      exec (.bgSlabCopy id v n) s = .next (s.after (u.drainTable id v (x.waiting.length + 1))))
    ∧ (s.newSlab { x with written := s.soundRows t.stride x x.written } n slab.2.2 = none →
      (x.opened = none → exec (.bgSlabCopy id v n) s = .next (s.after ((s.setTable { x with waiting := rest }).answerWrite w refNoMemory [] true)))
      ∧ ∀ last, x.opened = some last → exec (.bgSlabCopy id v n) s = .next (s.after (rest.foldl (fun (v : State) y => match v.applyTableWrite y with
        | (v, some o) => v.answerWrite o.2.2 o.1 o.2.1 true
        | (v, none) => v) ((s.unopen x last).answerWrite w refNoMemory [] true)))))
  ∧ (∀ (s : State) (a n : Nat) (rest : List (Nat × Nat)), s.zeroing = (a, n) :: rest →
    let left := s.removals.map fun x => (x.1, x.2.filter (· != (a, n)))
    let u : State := { s with zeroing := rest, mem := Memory.clear s.mem a n, removals := left.filter (!·.2.isEmpty) }
    exec .bgZeroise s = .next (s.after ((left.filter (·.2.isEmpty)).foldl (fun u x => u.answerWrite x.1 {} [] true) u)))
  ∧ (∀ (s : State) (line : Nat), line = s.tele.scrubNext → s.boot.service = 1 → s.boot.offPrep = false →
    let u : State := { s with tele := { s.tele with scrubNext := (line + 1) % (hbmBytes / 64) } }
    let e : State.Event := { cause := 0x08, unit := 1, unitIndex := stackOf (line * 64), addr := line * 64 }
    exec (.bgHbmScrub line .clean) s = .next (s.after u)
    ∧ (line ∉ s.errors.badLines → exec (.bgHbmScrub line .corrected) s = .next (s.after (u.correctedEvent e 0)))
    ∧ (line ∉ s.errors.badLines →
      exec (.bgHbmScrub line .failed) s = .next (s.after ((u.containedEvent { e with cause := 0x0A } 0).listLine line))))
  ∧ (∀ (t word p : Nat) (s : State), s.poolOf t = some p → s.poolActive p = true →
    let fn := if ((s.poolCfg? p).map fun c => c.has 0).getD false then fnWheel else fnPools
    let e : State.Event := { cause := 0x01, unit := 0, unitIndex := t, addr := tileWindow t + 8 * word }
    let y := s.chargeFree (State.tileCtr t 0)
    exec (.bgTmScrub t word .clean) s = .next (s.after y)
    ∧ exec (.bgTmScrub t word .corrected) s = .next (s.after ((y.count (State.tileCtr t 0x78) 1).correctedEvent e fn))
    ∧ let u := y.containedEvent { e with cause := 0x02 } fn
      let v : State := { u with errors := { u.errors with tileWords := (t, word) :: u.errors.tileWords } }
      let failed := fun (x : State) => exec (.bgTmScrub t word .failed) s = .next (s.after x)
      ((t, word) ∈ u.errors.tileWords → failed (u.deviceEvent { e with cause := 0x03 }))
      ∧ ((t, word) ∉ u.errors.tileWords → u.inCacheBanks t word = true → failed (v.badCacheWord t word))
      ∧ ((t, word) ∉ u.errors.tileWords → u.inCacheBanks t word = false → u.inContext t word = true → failed (v.chargeFree (State.poolCtr p 0x18)))
      ∧ ((t, word) ∉ u.errors.tileWords → u.inCacheBanks t word = false → u.inContext t word = false →
        (u.ownsWord t e.addr = false → failed (v.clearMem e.addr 8))
        ∧ (u.ownsWord t e.addr = true → failed { v with errors := { v.errors with badWords := (t, word) :: u.errors.badWords } })))
  ∧ ∀ s : State, s.awake = true →
    (∀ x, exec (.bgTelemetry x) s = .next (s.after { s with tele := { s.tele with block := s.telemetryWords x } }))
    ∧ (∀ n, n < 64 → exec (.bgSensorCal n) s = .next (s.after { s with tele := { s.tele with sensorOut := some n } }))
    ∧ ∀ task slots, task < 9 →
      exec (.bgDeferralExpiry task slots) s = .next (s.after ((s.count (State.bgLate task) 1).count (State.bgSlots task) slots))

/-- R431 to R433, R457, R459, R465: a temperature of 115 °C, a rail above its limit, input power above the cap, a silent controller or its
alert is a trip; THERMTRIP_N is cleared below 105 °C unless the comparator latched it; a trip out of ACTIVE gates the arrays, and every
request ends. -/
def Obligations.ProtectionTripsAtItsLimits : Prop :=
  (∀ s : State, s.awake = true →
    (∀ (a : Int) (temps : List Int), s.tele.sensorOut = none → temps.length ≤ 63 → (∀ b ∈ temps, b ≤ a) →
      let u : State := { s with
        power := { s.power with hottest := a }
        pins := { s.pins with thermtrip := s.pins.thermLatched || (s.pins.thermtrip && decide (1680 ≤ a)) } }
      (a < 1840 → exec (.thermalCheck (a :: temps)) s = .next (s.after u))
      ∧ (1840 ≤ a → exec (.thermalCheck (a :: temps)) s = .next (s.after (u.trip 1 0 a.toNat).settle)))
    ∧ (∀ (x : Sample) (mw : Nat),
      let u : State := { s with power := { s.power with inputMw := mw } }
      let cap := min (s.cfg.mode.vals s.fuses.part).cap s.power.cap
      (∀ p ∈ x.iout.zip railLimits, p.1 ≤ p.2) →
      (mw ≤ cap * 1000 → exec (.powerCheck x mw) s = .next (s.after u.settle))
      ∧ (cap * 1000 < mw → exec (.powerCheck x mw) s = .next (s.after (u.trip 3 0 (mw / 1000)).settle)))
    ∧ (∀ (x : Sample) (mw k i : Nat), k < 8 → x.iout[k]? = some i → railLimits.getD k 0 < i →
      (∀ j, j < k → x.iout.getD j 0 ≤ railLimits.getD j 0) →
      let u := ({ s with power := { s.power with inputMw := mw } } : State).trip 2 k i
      exec (.powerCheck x mw) s = .next (s.after (if u.capInForce * 1000 < mw then u.trip 3 0 (mw / 1000) else u).settle))
    ∧ (∀ (vout iout : List Nat),
      exec (.pmbusPoll vout iout) s = .next (s.after { s with power := { s.power with rails := (vout.zip iout).take 8, silent := [] } }))
    ∧ (∀ k, k < 8 → exec (.pmbusNoAnswer k) s = .next (s.after
      (({ s with power := { s.power with silent := k :: s.power.silent.filter (· != k) } } : State).trip 2 k 0).settle))
    ∧ exec .pmbAlert s = .next (s.after (s.trip 2 0 0).settle))
  ∧ (∀ (s : State) (n : Nat), s.pins.resetLow = false →
    exec (.thermalComparator n) s = .next (s.after { s with pins := { s.pins with thermtrip := true, thermLatched := true } }))
  ∧ ∀ (s : State) (code sensor detail : Nat), s.boot.service = 1 → s.power.state = 0 → s.power.arraysClocked = true → s.boot.offPrep = false →
    let u := s.trip code sensor detail
    u.power.arraysClocked = false ∧ u.power.state = 1 ∧ (code = 1 → u.pins.thermtrip = true)
    ∧ (∀ n, 1 ≤ n → n ≤ 6 → bitAt u.fns.running n = false)
    ∧ (s.tele.trips.length = 3 → 1 ≤ code → code ≤ 3 → u.tele.trips.getD (code - 1) 0 = bump (s.tele.trips.getD (code - 1) 0) 1)

/-- R374, R446, R450 to R452: the loss of a PLL's lock, the firmware watchdog, a failed entropy source and a stack that loses its training
are DEVICE events: logged under their cause, arrays gated, FAULT_N asserted, every function stopped, and the device failed; a second one is
only logged. A function's recovery that ends leaves it stopped. -/
def Obligations.DeviceEventsFailTheDevice : Prop :=
  (∀ s : State, s.awake = true →
    let fails := fun (cause unit idx : Nat) => (Host.Outcome.next (s.after (s.deviceEvent { cause, unit, unitIndex := idx }))
      : Host.Outcome State Machine.Fault Machine.Refusal)
    exec (.pllLockLoss .arith) s = fails 0x36 8 0 ∧ exec (.pllLockLoss .mesh) s = fails 0x36 2 0
    ∧ (∀ k, exec (.pllLockLoss (.hbm k)) s = fails 0x36 1 k)
    ∧ exec (.pllLockLoss .port) s = fails 0x36 4 0 ∧ exec (.pllLockLoss .ctrl) s = fails 0x36 6 0
    ∧ exec .fwWatchdog s = fails 0x37 6 0 ∧ exec .entropyFail s = fails 0x35 7 0
    ∧ ∀ k, k < 16 → exec (.hbmStackTrainingLoss k) s = fails 0x0C 1 k)
  ∧ (∀ (s : State) (e : State.Event), s.boot.service ≠ 3 →
    let u := s.deviceEvent e
    u.power.arraysClocked = false ∧ u.pins.faultN = true ∧ u.boot.service = 3 ∧ u.boot.deviceFailed = true ∧ u.boot.millpond = true
    ∧ ∀ n, n < 8 → bitAt u.fns.running n = false)
  ∧ (∀ (s : State) (e : State.Event), s.boot.service = 3 →
    s.deviceEvent e = s.logEvent { e with cls := some 3, functions := s.fns.running })
  ∧ ∀ (f : Nat) (s : State), f < 8 → bitAt s.fns.recovering f = true →
    let u : State := { s with fns := { s.fns with
      recovering := maskWithout s.fns.recovering (2 ^ f), recoveries := s.fns.recoveries.erase (stopClosure (2 ^ f)) } }
    exec (.functionRecoveryDone f) s = .next (s.after u.settle) ∧ bitAt u.fns.recovering f = false ∧ u.fns.running = s.fns.running

/-- R395, R396, R463, R464, R466, R477: the TAP answers IDCODE at any time and its other instructions only while RESET_N is low; the management
bus answers reads of the telemetry block and refuses every write; a debug authorisation draws a fresh challenge, and a record that grants
nothing is counted, the eighth ending all attempts; what scope 2 does, once no write is being applied, leaves no byte of any memory. -/
def Obligations.DebugAndManagementAnswer : Prop :=
  (∀ s : State,
    let tap := fun (instr : Nat) => ({ s with pins := { s.pins with tapReset := false, tapInstr := instr, extestDrive := none } } : State)
    exec .tapReset s = .next (s.after { s with pins := { s.pins with tapReset := true, tapInstr := 0, extestDrive := none } })
    ∧ (s.fuses.part = .a → exec .tapIdcode s = .next (s.after ((tap 0).emit (.tdo 32 0x1C16A7AB))))
    ∧ (s.fuses.part = .b → exec .tapIdcode s = .next (s.after ((tap 0).emit (.tdo 32 0x1C16B7AB))))
    ∧ (s.pins.resetLow = true →
      exec .tapBypass s = .next (s.after ((tap 1).emit (.tdo 1 0)))
      ∧ (∀ pins v, exec (.tapSamplePreload pins (some v)) s = .next (s.after
        (({ tap 2 with pins := { (tap 2).pins with boundary := v } } : State).emit (.boundary pins))))
      ∧ exec .tapExtest s = .next (s.after
        (({ tap 3 with pins := { (tap 3).pins with extestDrive := some s.pins.boundary } } : State).emit (.extest s.pins.boundary))))
    ∧ (s.pins.resetLow = false → exec .tapBypass s = .next (s.after s) ∧ exec .tapExtest s = .next (s.after s)
      ∧ ∀ pins load, exec (.tapSamplePreload pins load) s = .next (s.after s)))
  ∧ (∀ s : State, s.awake = true →
    (∀ cmd, cmd < 64 → exec (.smbusBlockRead s.pins.mgmtAddr cmd) s = .next (s.after (s.emit (.mgmt (leBytes 8 (s.tele.block.getD cmd 0))))))
    ∧ exec (.i3cPrivateRead s.pins.mgmtAddr) s = .next (s.after (s.emit (.mgmt ((List.range 64).flatMap fun i => leBytes 8 (s.tele.block.getD i 0)))))
    ∧ exec (.mgmtWriteNack s.pins.mgmtAddr) s = .next (s.after (s.emit .mgmtNack))
    ∧ (∀ cmd, 64 ≤ cmd → exec (.smbusBlockRead s.pins.mgmtAddr cmd) s = .next (s.after (s.emit .mgmtNack)))
    ∧ ∀ a, a ≠ s.pins.mgmtAddr → exec (.mgmtWriteNack a) s = .next (s.after s)
      ∧ exec (.i3cPrivateRead a) s = .next (s.after s) ∧ ∀ cmd, exec (.smbusBlockRead a cmd) s = .next (s.after s))
  ∧ ∀ (s : State) (r : Bytes), s.awake = true →
    (8 ≤ s.boot.authFailures → exec (.dbgAuth r) s = .next (s.after s))
    ∧ (s.boot.authFailures < 8 →
      let u : State := { s with free := s.free + 1, boot := { s.boot with challenge := fit 32 (Config.entropy s.free 32) } }
      exec (.dbgAuth r) s = .next (s.after (match s.grantedScope r with
        | none => { u with boot := { u.boot with authFailures := s.boot.authFailures + 1 } }
        | some scope =>
          let v := (u.extendM3 4 r).logEvent { cause := 0, unit := 7, detail := scope, cls := some 0 }
          if scope = 1 then { v with boot := { v.boot with debugStatus := true } } else { v with boot := { v.boot with debugPending := true } })))
    ∧ s.fullDebug.boot.debugFull = true ∧ s.fullDebug.boot.debugPending = false ∧ s.fullDebug.mem = []

/-- R388, R389: no step loses anything burnt in fuses. The part stays, enrolled owner slots stay as they were burnt, of which there are at
most eight, and the least security versions never fall. -/
def Obligations.FusesNeverRollBack : Prop :=
  ∀ (f : Fuses) (s t : State), f.Extends s.fuses → s.fuses.owners.length ≤ 8 → step s = .next t →
    f.Extends t.fuses ∧ t.fuses.owners.length ≤ 8
end

