-- ==== Sys2Proof/Laws/State.lean ====
section
/-! SUPPORT. What the plain updates of the state leave alone: one lemma for each field that an update does not write. -/

namespace Sys2Proof.Machine.State

-- writeMem

@[simp] theorem writeMem_pending (s : State) (a : Nat) (bs : Bytes) : (s.writeMem a bs).pending = s.pending := rfl
@[simp] theorem writeMem_out (s : State) (a : Nat) (bs : Bytes) : (s.writeMem a bs).out = s.out := rfl
@[simp] theorem writeMem_free (s : State) (a : Nat) (bs : Bytes) : (s.writeMem a bs).free = s.free := rfl
@[simp] theorem writeMem_portTicks (s : State) (a : Nat) (bs : Bytes) : (s.writeMem a bs).portTicks = s.portTicks := rfl
@[simp] theorem writeMem_meshCount (s : State) (a : Nat) (bs : Bytes) : (s.writeMem a bs).meshCount = s.meshCount := rfl
@[simp] theorem writeMem_used (s : State) (a : Nat) (bs : Bytes) : (s.writeMem a bs).used = s.used := rfl
@[simp] theorem writeMem_zeroing (s : State) (a : Nat) (bs : Bytes) : (s.writeMem a bs).zeroing = s.zeroing := rfl
@[simp] theorem writeMem_kvBase (s : State) (a : Nat) (bs : Bytes) : (s.writeMem a bs).kvBase = s.kvBase := rfl
@[simp] theorem writeMem_kvSize (s : State) (a : Nat) (bs : Bytes) : (s.writeMem a bs).kvSize = s.kvSize := rfl
@[simp] theorem writeMem_kvUsed (s : State) (a : Nat) (bs : Bytes) : (s.writeMem a bs).kvUsed = s.kvUsed := rfl
@[simp] theorem writeMem_fuses (s : State) (a : Nat) (bs : Bytes) : (s.writeMem a bs).fuses = s.fuses := rfl
@[simp] theorem writeMem_flash (s : State) (a : Nat) (bs : Bytes) : (s.writeMem a bs).flash = s.flash := rfl
@[simp] theorem writeMem_pins (s : State) (a : Nat) (bs : Bytes) : (s.writeMem a bs).pins = s.pins := rfl
@[simp] theorem writeMem_boot (s : State) (a : Nat) (bs : Bytes) : (s.writeMem a bs).boot = s.boot := rfl
@[simp] theorem writeMem_cfg (s : State) (a : Nat) (bs : Bytes) : (s.writeMem a bs).cfg = s.cfg := rfl
@[simp] theorem writeMem_fns (s : State) (a : Nat) (bs : Bytes) : (s.writeMem a bs).fns = s.fns := rfl
@[simp] theorem writeMem_power (s : State) (a : Nat) (bs : Bytes) : (s.writeMem a bs).power = s.power := rfl
@[simp] theorem writeMem_subs (s : State) (a : Nat) (bs : Bytes) : (s.writeMem a bs).subs = s.subs := rfl
@[simp] theorem writeMem_trained (s : State) (a : Nat) (bs : Bytes) : (s.writeMem a bs).trained = s.trained := rfl
@[simp] theorem writeMem_peers (s : State) (a : Nat) (bs : Bytes) : (s.writeMem a bs).peers = s.peers := rfl
@[simp] theorem writeMem_twin (s : State) (a : Nat) (bs : Bytes) : (s.writeMem a bs).twin = s.twin := rfl
@[simp] theorem writeMem_sessions (s : State) (a : Nat) (bs : Bytes) : (s.writeMem a bs).sessions = s.sessions := rfl
@[simp] theorem writeMem_handshakes (s : State) (a : Nat) (bs : Bytes) : (s.writeMem a bs).handshakes = s.handshakes := rfl
@[simp] theorem writeMem_nextHandshake (s : State) (a : Nat) (bs : Bytes) : (s.writeMem a bs).nextHandshake = s.nextHandshake := rfl
@[simp] theorem writeMem_delivered (s : State) (a : Nat) (bs : Bytes) : (s.writeMem a bs).delivered = s.delivered := rfl
@[simp] theorem writeMem_intakePlain (s : State) (a : Nat) (bs : Bytes) : (s.writeMem a bs).intakePlain = s.intakePlain := rfl
@[simp] theorem writeMem_plainParts (s : State) (a : Nat) (bs : Bytes) : (s.writeMem a bs).plainParts = s.plainParts := rfl
@[simp] theorem writeMem_errors (s : State) (a : Nat) (bs : Bytes) : (s.writeMem a bs).errors = s.errors := rfl
@[simp] theorem writeMem_tele (s : State) (a : Nat) (bs : Bytes) : (s.writeMem a bs).tele = s.tele := rfl
@[simp] theorem writeMem_counters (s : State) (a : Nat) (bs : Bytes) : (s.writeMem a bs).counters = s.counters := rfl
@[simp] theorem writeMem_objectGen (s : State) (a : Nat) (bs : Bytes) : (s.writeMem a bs).objectGen = s.objectGen := rfl
@[simp] theorem writeMem_reqs (s : State) (a : Nat) (bs : Bytes) : (s.writeMem a bs).reqs = s.reqs := rfl
@[simp] theorem writeMem_admitted (s : State) (a : Nat) (bs : Bytes) : (s.writeMem a bs).admitted = s.admitted := rfl
@[simp] theorem writeMem_runNext (s : State) (a : Nat) (bs : Bytes) : (s.writeMem a bs).runNext = s.runNext := rfl
@[simp] theorem writeMem_keys (s : State) (a : Nat) (bs : Bytes) : (s.writeMem a bs).keys = s.keys := rfl
@[simp] theorem writeMem_plans (s : State) (a : Nat) (bs : Bytes) : (s.writeMem a bs).plans = s.plans := rfl
@[simp] theorem writeMem_models (s : State) (a : Nat) (bs : Bytes) : (s.writeMem a bs).models = s.models := rfl
@[simp] theorem writeMem_adapters (s : State) (a : Nat) (bs : Bytes) : (s.writeMem a bs).adapters = s.adapters := rfl
@[simp] theorem writeMem_grammars (s : State) (a : Nat) (bs : Bytes) : (s.writeMem a bs).grammars = s.grammars := rfl
@[simp] theorem writeMem_prefixes (s : State) (a : Nat) (bs : Bytes) : (s.writeMem a bs).prefixes = s.prefixes := rfl
@[simp] theorem writeMem_loads (s : State) (a : Nat) (bs : Bytes) : (s.writeMem a bs).loads = s.loads := rfl
@[simp] theorem writeMem_removals (s : State) (a : Nat) (bs : Bytes) : (s.writeMem a bs).removals = s.removals := rfl
@[simp] theorem writeMem_tiles (s : State) (a : Nat) (bs : Bytes) : (s.writeMem a bs).tiles = s.tiles := rfl
@[simp] theorem writeMem_pools (s : State) (a : Nat) (bs : Bytes) : (s.writeMem a bs).pools = s.pools := rfl
@[simp] theorem writeMem_steps (s : State) (a : Nat) (bs : Bytes) : (s.writeMem a bs).steps = s.steps := rfl
@[simp] theorem writeMem_completions (s : State) (a : Nat) (bs : Bytes) : (s.writeMem a bs).completions = s.completions := rfl
@[simp] theorem writeMem_handoffs (s : State) (a : Nat) (bs : Bytes) : (s.writeMem a bs).handoffs = s.handoffs := rfl
@[simp] theorem writeMem_sluiceFlights (s : State) (a : Nat) (bs : Bytes) : (s.writeMem a bs).sluiceFlights = s.sluiceFlights := rfl
@[simp] theorem writeMem_ringCredits (s : State) (a : Nat) (bs : Bytes) : (s.writeMem a bs).ringCredits = s.ringCredits := rfl
@[simp] theorem writeMem_sluiceCredits (s : State) (a : Nat) (bs : Bytes) : (s.writeMem a bs).sluiceCredits = s.sluiceCredits := rfl
@[simp] theorem writeMem_leats (s : State) (a : Nat) (bs : Bytes) : (s.writeMem a bs).leats = s.leats := rfl
@[simp] theorem writeMem_meshNext (s : State) (a : Nat) (bs : Bytes) : (s.writeMem a bs).meshNext = s.meshNext := rfl
@[simp] theorem writeMem_remoteReads (s : State) (a : Nat) (bs : Bytes) : (s.writeMem a bs).remoteReads = s.remoteReads := rfl
@[simp] theorem writeMem_tables (s : State) (a : Nat) (bs : Bytes) : (s.writeMem a bs).tables = s.tables := rfl
@[simp] theorem writeMem_stores (s : State) (a : Nat) (bs : Bytes) : (s.writeMem a bs).stores = s.stores := rfl
@[simp] theorem writeMem_hotSets (s : State) (a : Nat) (bs : Bytes) : (s.writeMem a bs).hotSets = s.hotSets := rfl
@[simp] theorem writeMem_tableRuns (s : State) (a : Nat) (bs : Bytes) : (s.writeMem a bs).tableRuns = s.tableRuns := rfl
@[simp] theorem writeMem_storeRuns (s : State) (a : Nat) (bs : Bytes) : (s.writeMem a bs).storeRuns = s.storeRuns := rfl
@[simp] theorem writeMem_exchanges (s : State) (a : Nat) (bs : Bytes) : (s.writeMem a bs).exchanges = s.exchanges := rfl
@[simp] theorem writeMem_nextXid (s : State) (a : Nat) (bs : Bytes) : (s.writeMem a bs).nextXid = s.nextXid := rfl
@[simp] theorem writeMem_corpora (s : State) (a : Nat) (bs : Bytes) : (s.writeMem a bs).corpora = s.corpora := rfl
@[simp] theorem writeMem_wheels (s : State) (a : Nat) (bs : Bytes) : (s.writeMem a bs).wheels = s.wheels := rfl
@[simp] theorem writeMem_collectives (s : State) (a : Nat) (bs : Bytes) : (s.writeMem a bs).collectives = s.collectives := rfl
@[simp] theorem writeMem_hotStale (s : State) (a : Nat) (bs : Bytes) : (s.writeMem a bs).hotStale = s.hotStale := rfl
@[simp] theorem writeMem_textImages (s : State) (a : Nat) (bs : Bytes) : (s.writeMem a bs).textImages = s.textImages := rfl
@[simp] theorem writeMem_textOld (s : State) (a : Nat) (bs : Bytes) : (s.writeMem a bs).textOld = s.textOld := rfl

-- clearMem

@[simp] theorem clearMem_pending (s : State) (a n : Nat) : (s.clearMem a n).pending = s.pending := rfl
@[simp] theorem clearMem_out (s : State) (a n : Nat) : (s.clearMem a n).out = s.out := rfl
@[simp] theorem clearMem_free (s : State) (a n : Nat) : (s.clearMem a n).free = s.free := rfl
@[simp] theorem clearMem_portTicks (s : State) (a n : Nat) : (s.clearMem a n).portTicks = s.portTicks := rfl
@[simp] theorem clearMem_meshCount (s : State) (a n : Nat) : (s.clearMem a n).meshCount = s.meshCount := rfl
@[simp] theorem clearMem_used (s : State) (a n : Nat) : (s.clearMem a n).used = s.used := rfl
@[simp] theorem clearMem_zeroing (s : State) (a n : Nat) : (s.clearMem a n).zeroing = s.zeroing := rfl
@[simp] theorem clearMem_kvBase (s : State) (a n : Nat) : (s.clearMem a n).kvBase = s.kvBase := rfl
@[simp] theorem clearMem_kvSize (s : State) (a n : Nat) : (s.clearMem a n).kvSize = s.kvSize := rfl
@[simp] theorem clearMem_kvUsed (s : State) (a n : Nat) : (s.clearMem a n).kvUsed = s.kvUsed := rfl
@[simp] theorem clearMem_fuses (s : State) (a n : Nat) : (s.clearMem a n).fuses = s.fuses := rfl
@[simp] theorem clearMem_flash (s : State) (a n : Nat) : (s.clearMem a n).flash = s.flash := rfl
@[simp] theorem clearMem_pins (s : State) (a n : Nat) : (s.clearMem a n).pins = s.pins := rfl
@[simp] theorem clearMem_boot (s : State) (a n : Nat) : (s.clearMem a n).boot = s.boot := rfl
@[simp] theorem clearMem_cfg (s : State) (a n : Nat) : (s.clearMem a n).cfg = s.cfg := rfl
@[simp] theorem clearMem_fns (s : State) (a n : Nat) : (s.clearMem a n).fns = s.fns := rfl
@[simp] theorem clearMem_power (s : State) (a n : Nat) : (s.clearMem a n).power = s.power := rfl
@[simp] theorem clearMem_subs (s : State) (a n : Nat) : (s.clearMem a n).subs = s.subs := rfl
@[simp] theorem clearMem_trained (s : State) (a n : Nat) : (s.clearMem a n).trained = s.trained := rfl
@[simp] theorem clearMem_peers (s : State) (a n : Nat) : (s.clearMem a n).peers = s.peers := rfl
@[simp] theorem clearMem_twin (s : State) (a n : Nat) : (s.clearMem a n).twin = s.twin := rfl
@[simp] theorem clearMem_sessions (s : State) (a n : Nat) : (s.clearMem a n).sessions = s.sessions := rfl
@[simp] theorem clearMem_handshakes (s : State) (a n : Nat) : (s.clearMem a n).handshakes = s.handshakes := rfl
@[simp] theorem clearMem_nextHandshake (s : State) (a n : Nat) : (s.clearMem a n).nextHandshake = s.nextHandshake := rfl
@[simp] theorem clearMem_delivered (s : State) (a n : Nat) : (s.clearMem a n).delivered = s.delivered := rfl
@[simp] theorem clearMem_intakePlain (s : State) (a n : Nat) : (s.clearMem a n).intakePlain = s.intakePlain := rfl
@[simp] theorem clearMem_plainParts (s : State) (a n : Nat) : (s.clearMem a n).plainParts = s.plainParts := rfl
@[simp] theorem clearMem_errors (s : State) (a n : Nat) : (s.clearMem a n).errors = s.errors := rfl
@[simp] theorem clearMem_tele (s : State) (a n : Nat) : (s.clearMem a n).tele = s.tele := rfl
@[simp] theorem clearMem_counters (s : State) (a n : Nat) : (s.clearMem a n).counters = s.counters := rfl
@[simp] theorem clearMem_objectGen (s : State) (a n : Nat) : (s.clearMem a n).objectGen = s.objectGen := rfl
@[simp] theorem clearMem_reqs (s : State) (a n : Nat) : (s.clearMem a n).reqs = s.reqs := rfl
@[simp] theorem clearMem_admitted (s : State) (a n : Nat) : (s.clearMem a n).admitted = s.admitted := rfl
@[simp] theorem clearMem_runNext (s : State) (a n : Nat) : (s.clearMem a n).runNext = s.runNext := rfl
@[simp] theorem clearMem_keys (s : State) (a n : Nat) : (s.clearMem a n).keys = s.keys := rfl
@[simp] theorem clearMem_plans (s : State) (a n : Nat) : (s.clearMem a n).plans = s.plans := rfl
@[simp] theorem clearMem_models (s : State) (a n : Nat) : (s.clearMem a n).models = s.models := rfl
@[simp] theorem clearMem_adapters (s : State) (a n : Nat) : (s.clearMem a n).adapters = s.adapters := rfl
@[simp] theorem clearMem_grammars (s : State) (a n : Nat) : (s.clearMem a n).grammars = s.grammars := rfl
@[simp] theorem clearMem_prefixes (s : State) (a n : Nat) : (s.clearMem a n).prefixes = s.prefixes := rfl
@[simp] theorem clearMem_loads (s : State) (a n : Nat) : (s.clearMem a n).loads = s.loads := rfl
@[simp] theorem clearMem_removals (s : State) (a n : Nat) : (s.clearMem a n).removals = s.removals := rfl
@[simp] theorem clearMem_tiles (s : State) (a n : Nat) : (s.clearMem a n).tiles = s.tiles := rfl
@[simp] theorem clearMem_pools (s : State) (a n : Nat) : (s.clearMem a n).pools = s.pools := rfl
@[simp] theorem clearMem_steps (s : State) (a n : Nat) : (s.clearMem a n).steps = s.steps := rfl
@[simp] theorem clearMem_completions (s : State) (a n : Nat) : (s.clearMem a n).completions = s.completions := rfl
@[simp] theorem clearMem_handoffs (s : State) (a n : Nat) : (s.clearMem a n).handoffs = s.handoffs := rfl
@[simp] theorem clearMem_sluiceFlights (s : State) (a n : Nat) : (s.clearMem a n).sluiceFlights = s.sluiceFlights := rfl
@[simp] theorem clearMem_ringCredits (s : State) (a n : Nat) : (s.clearMem a n).ringCredits = s.ringCredits := rfl
@[simp] theorem clearMem_sluiceCredits (s : State) (a n : Nat) : (s.clearMem a n).sluiceCredits = s.sluiceCredits := rfl
@[simp] theorem clearMem_leats (s : State) (a n : Nat) : (s.clearMem a n).leats = s.leats := rfl
@[simp] theorem clearMem_meshNext (s : State) (a n : Nat) : (s.clearMem a n).meshNext = s.meshNext := rfl
@[simp] theorem clearMem_remoteReads (s : State) (a n : Nat) : (s.clearMem a n).remoteReads = s.remoteReads := rfl
@[simp] theorem clearMem_tables (s : State) (a n : Nat) : (s.clearMem a n).tables = s.tables := rfl
@[simp] theorem clearMem_stores (s : State) (a n : Nat) : (s.clearMem a n).stores = s.stores := rfl
@[simp] theorem clearMem_hotSets (s : State) (a n : Nat) : (s.clearMem a n).hotSets = s.hotSets := rfl
@[simp] theorem clearMem_tableRuns (s : State) (a n : Nat) : (s.clearMem a n).tableRuns = s.tableRuns := rfl
@[simp] theorem clearMem_storeRuns (s : State) (a n : Nat) : (s.clearMem a n).storeRuns = s.storeRuns := rfl
@[simp] theorem clearMem_exchanges (s : State) (a n : Nat) : (s.clearMem a n).exchanges = s.exchanges := rfl
@[simp] theorem clearMem_nextXid (s : State) (a n : Nat) : (s.clearMem a n).nextXid = s.nextXid := rfl
@[simp] theorem clearMem_corpora (s : State) (a n : Nat) : (s.clearMem a n).corpora = s.corpora := rfl
@[simp] theorem clearMem_wheels (s : State) (a n : Nat) : (s.clearMem a n).wheels = s.wheels := rfl
@[simp] theorem clearMem_collectives (s : State) (a n : Nat) : (s.clearMem a n).collectives = s.collectives := rfl
@[simp] theorem clearMem_hotStale (s : State) (a n : Nat) : (s.clearMem a n).hotStale = s.hotStale := rfl
@[simp] theorem clearMem_textImages (s : State) (a n : Nat) : (s.clearMem a n).textImages = s.textImages := rfl
@[simp] theorem clearMem_textOld (s : State) (a n : Nat) : (s.clearMem a n).textOld = s.textOld := rfl

-- count

@[simp] theorem count_pending (s : State) (off k : Nat) : (s.count off k).pending = s.pending := rfl
@[simp] theorem count_out (s : State) (off k : Nat) : (s.count off k).out = s.out := rfl
@[simp] theorem count_free (s : State) (off k : Nat) : (s.count off k).free = s.free := rfl
@[simp] theorem count_portTicks (s : State) (off k : Nat) : (s.count off k).portTicks = s.portTicks := rfl
@[simp] theorem count_meshCount (s : State) (off k : Nat) : (s.count off k).meshCount = s.meshCount := rfl
@[simp] theorem count_mem (s : State) (off k : Nat) : (s.count off k).mem = s.mem := rfl
@[simp] theorem count_used (s : State) (off k : Nat) : (s.count off k).used = s.used := rfl
@[simp] theorem count_zeroing (s : State) (off k : Nat) : (s.count off k).zeroing = s.zeroing := rfl
@[simp] theorem count_kvBase (s : State) (off k : Nat) : (s.count off k).kvBase = s.kvBase := rfl
@[simp] theorem count_kvSize (s : State) (off k : Nat) : (s.count off k).kvSize = s.kvSize := rfl
@[simp] theorem count_kvUsed (s : State) (off k : Nat) : (s.count off k).kvUsed = s.kvUsed := rfl
@[simp] theorem count_fuses (s : State) (off k : Nat) : (s.count off k).fuses = s.fuses := rfl
@[simp] theorem count_flash (s : State) (off k : Nat) : (s.count off k).flash = s.flash := rfl
@[simp] theorem count_pins (s : State) (off k : Nat) : (s.count off k).pins = s.pins := rfl
@[simp] theorem count_boot (s : State) (off k : Nat) : (s.count off k).boot = s.boot := rfl
@[simp] theorem count_cfg (s : State) (off k : Nat) : (s.count off k).cfg = s.cfg := rfl
@[simp] theorem count_fns (s : State) (off k : Nat) : (s.count off k).fns = s.fns := rfl
@[simp] theorem count_power (s : State) (off k : Nat) : (s.count off k).power = s.power := rfl
@[simp] theorem count_subs (s : State) (off k : Nat) : (s.count off k).subs = s.subs := rfl
@[simp] theorem count_trained (s : State) (off k : Nat) : (s.count off k).trained = s.trained := rfl
@[simp] theorem count_peers (s : State) (off k : Nat) : (s.count off k).peers = s.peers := rfl
@[simp] theorem count_twin (s : State) (off k : Nat) : (s.count off k).twin = s.twin := rfl
@[simp] theorem count_sessions (s : State) (off k : Nat) : (s.count off k).sessions = s.sessions := rfl
@[simp] theorem count_handshakes (s : State) (off k : Nat) : (s.count off k).handshakes = s.handshakes := rfl
@[simp] theorem count_nextHandshake (s : State) (off k : Nat) : (s.count off k).nextHandshake = s.nextHandshake := rfl
@[simp] theorem count_delivered (s : State) (off k : Nat) : (s.count off k).delivered = s.delivered := rfl
@[simp] theorem count_intakePlain (s : State) (off k : Nat) : (s.count off k).intakePlain = s.intakePlain := rfl
@[simp] theorem count_plainParts (s : State) (off k : Nat) : (s.count off k).plainParts = s.plainParts := rfl
@[simp] theorem count_errors (s : State) (off k : Nat) : (s.count off k).errors = s.errors := rfl
@[simp] theorem count_tele (s : State) (off k : Nat) : (s.count off k).tele = s.tele := rfl
@[simp] theorem count_objectGen (s : State) (off k : Nat) : (s.count off k).objectGen = s.objectGen := rfl
@[simp] theorem count_reqs (s : State) (off k : Nat) : (s.count off k).reqs = s.reqs := rfl
@[simp] theorem count_admitted (s : State) (off k : Nat) : (s.count off k).admitted = s.admitted := rfl
@[simp] theorem count_runNext (s : State) (off k : Nat) : (s.count off k).runNext = s.runNext := rfl
@[simp] theorem count_keys (s : State) (off k : Nat) : (s.count off k).keys = s.keys := rfl
@[simp] theorem count_plans (s : State) (off k : Nat) : (s.count off k).plans = s.plans := rfl
@[simp] theorem count_models (s : State) (off k : Nat) : (s.count off k).models = s.models := rfl
@[simp] theorem count_adapters (s : State) (off k : Nat) : (s.count off k).adapters = s.adapters := rfl
@[simp] theorem count_grammars (s : State) (off k : Nat) : (s.count off k).grammars = s.grammars := rfl
@[simp] theorem count_prefixes (s : State) (off k : Nat) : (s.count off k).prefixes = s.prefixes := rfl
@[simp] theorem count_loads (s : State) (off k : Nat) : (s.count off k).loads = s.loads := rfl
@[simp] theorem count_removals (s : State) (off k : Nat) : (s.count off k).removals = s.removals := rfl
@[simp] theorem count_tiles (s : State) (off k : Nat) : (s.count off k).tiles = s.tiles := rfl
@[simp] theorem count_pools (s : State) (off k : Nat) : (s.count off k).pools = s.pools := rfl
@[simp] theorem count_steps (s : State) (off k : Nat) : (s.count off k).steps = s.steps := rfl
@[simp] theorem count_completions (s : State) (off k : Nat) : (s.count off k).completions = s.completions := rfl
@[simp] theorem count_handoffs (s : State) (off k : Nat) : (s.count off k).handoffs = s.handoffs := rfl
@[simp] theorem count_sluiceFlights (s : State) (off k : Nat) : (s.count off k).sluiceFlights = s.sluiceFlights := rfl
@[simp] theorem count_ringCredits (s : State) (off k : Nat) : (s.count off k).ringCredits = s.ringCredits := rfl
@[simp] theorem count_sluiceCredits (s : State) (off k : Nat) : (s.count off k).sluiceCredits = s.sluiceCredits := rfl
@[simp] theorem count_leats (s : State) (off k : Nat) : (s.count off k).leats = s.leats := rfl
@[simp] theorem count_meshNext (s : State) (off k : Nat) : (s.count off k).meshNext = s.meshNext := rfl
@[simp] theorem count_remoteReads (s : State) (off k : Nat) : (s.count off k).remoteReads = s.remoteReads := rfl
@[simp] theorem count_tables (s : State) (off k : Nat) : (s.count off k).tables = s.tables := rfl
@[simp] theorem count_stores (s : State) (off k : Nat) : (s.count off k).stores = s.stores := rfl
@[simp] theorem count_hotSets (s : State) (off k : Nat) : (s.count off k).hotSets = s.hotSets := rfl
@[simp] theorem count_tableRuns (s : State) (off k : Nat) : (s.count off k).tableRuns = s.tableRuns := rfl
@[simp] theorem count_storeRuns (s : State) (off k : Nat) : (s.count off k).storeRuns = s.storeRuns := rfl
@[simp] theorem count_exchanges (s : State) (off k : Nat) : (s.count off k).exchanges = s.exchanges := rfl
@[simp] theorem count_nextXid (s : State) (off k : Nat) : (s.count off k).nextXid = s.nextXid := rfl
@[simp] theorem count_corpora (s : State) (off k : Nat) : (s.count off k).corpora = s.corpora := rfl
@[simp] theorem count_wheels (s : State) (off k : Nat) : (s.count off k).wheels = s.wheels := rfl
@[simp] theorem count_collectives (s : State) (off k : Nat) : (s.count off k).collectives = s.collectives := rfl
@[simp] theorem count_hotStale (s : State) (off k : Nat) : (s.count off k).hotStale = s.hotStale := rfl
@[simp] theorem count_textImages (s : State) (off k : Nat) : (s.count off k).textImages = s.textImages := rfl
@[simp] theorem count_textOld (s : State) (off k : Nat) : (s.count off k).textOld = s.textOld := rfl

-- setTile

@[simp] theorem setTile_pending (s : State) (t : Nat) (f : Tile → Tile) : (s.setTile t f).pending = s.pending := rfl
@[simp] theorem setTile_out (s : State) (t : Nat) (f : Tile → Tile) : (s.setTile t f).out = s.out := rfl
@[simp] theorem setTile_free (s : State) (t : Nat) (f : Tile → Tile) : (s.setTile t f).free = s.free := rfl
@[simp] theorem setTile_portTicks (s : State) (t : Nat) (f : Tile → Tile) : (s.setTile t f).portTicks = s.portTicks := rfl
@[simp] theorem setTile_meshCount (s : State) (t : Nat) (f : Tile → Tile) : (s.setTile t f).meshCount = s.meshCount := rfl
@[simp] theorem setTile_mem (s : State) (t : Nat) (f : Tile → Tile) : (s.setTile t f).mem = s.mem := rfl
@[simp] theorem setTile_used (s : State) (t : Nat) (f : Tile → Tile) : (s.setTile t f).used = s.used := rfl
@[simp] theorem setTile_zeroing (s : State) (t : Nat) (f : Tile → Tile) : (s.setTile t f).zeroing = s.zeroing := rfl
@[simp] theorem setTile_kvBase (s : State) (t : Nat) (f : Tile → Tile) : (s.setTile t f).kvBase = s.kvBase := rfl
@[simp] theorem setTile_kvSize (s : State) (t : Nat) (f : Tile → Tile) : (s.setTile t f).kvSize = s.kvSize := rfl
@[simp] theorem setTile_kvUsed (s : State) (t : Nat) (f : Tile → Tile) : (s.setTile t f).kvUsed = s.kvUsed := rfl
@[simp] theorem setTile_fuses (s : State) (t : Nat) (f : Tile → Tile) : (s.setTile t f).fuses = s.fuses := rfl
@[simp] theorem setTile_flash (s : State) (t : Nat) (f : Tile → Tile) : (s.setTile t f).flash = s.flash := rfl
@[simp] theorem setTile_pins (s : State) (t : Nat) (f : Tile → Tile) : (s.setTile t f).pins = s.pins := rfl
@[simp] theorem setTile_boot (s : State) (t : Nat) (f : Tile → Tile) : (s.setTile t f).boot = s.boot := rfl
@[simp] theorem setTile_cfg (s : State) (t : Nat) (f : Tile → Tile) : (s.setTile t f).cfg = s.cfg := rfl
@[simp] theorem setTile_fns (s : State) (t : Nat) (f : Tile → Tile) : (s.setTile t f).fns = s.fns := rfl
@[simp] theorem setTile_power (s : State) (t : Nat) (f : Tile → Tile) : (s.setTile t f).power = s.power := rfl
@[simp] theorem setTile_subs (s : State) (t : Nat) (f : Tile → Tile) : (s.setTile t f).subs = s.subs := rfl
@[simp] theorem setTile_trained (s : State) (t : Nat) (f : Tile → Tile) : (s.setTile t f).trained = s.trained := rfl
@[simp] theorem setTile_peers (s : State) (t : Nat) (f : Tile → Tile) : (s.setTile t f).peers = s.peers := rfl
@[simp] theorem setTile_twin (s : State) (t : Nat) (f : Tile → Tile) : (s.setTile t f).twin = s.twin := rfl
@[simp] theorem setTile_sessions (s : State) (t : Nat) (f : Tile → Tile) : (s.setTile t f).sessions = s.sessions := rfl
@[simp] theorem setTile_handshakes (s : State) (t : Nat) (f : Tile → Tile) : (s.setTile t f).handshakes = s.handshakes := rfl
@[simp] theorem setTile_nextHandshake (s : State) (t : Nat) (f : Tile → Tile) : (s.setTile t f).nextHandshake = s.nextHandshake := rfl
@[simp] theorem setTile_delivered (s : State) (t : Nat) (f : Tile → Tile) : (s.setTile t f).delivered = s.delivered := rfl
@[simp] theorem setTile_intakePlain (s : State) (t : Nat) (f : Tile → Tile) : (s.setTile t f).intakePlain = s.intakePlain := rfl
@[simp] theorem setTile_plainParts (s : State) (t : Nat) (f : Tile → Tile) : (s.setTile t f).plainParts = s.plainParts := rfl
@[simp] theorem setTile_errors (s : State) (t : Nat) (f : Tile → Tile) : (s.setTile t f).errors = s.errors := rfl
@[simp] theorem setTile_tele (s : State) (t : Nat) (f : Tile → Tile) : (s.setTile t f).tele = s.tele := rfl
@[simp] theorem setTile_counters (s : State) (t : Nat) (f : Tile → Tile) : (s.setTile t f).counters = s.counters := rfl
@[simp] theorem setTile_objectGen (s : State) (t : Nat) (f : Tile → Tile) : (s.setTile t f).objectGen = s.objectGen := rfl
@[simp] theorem setTile_reqs (s : State) (t : Nat) (f : Tile → Tile) : (s.setTile t f).reqs = s.reqs := rfl
@[simp] theorem setTile_admitted (s : State) (t : Nat) (f : Tile → Tile) : (s.setTile t f).admitted = s.admitted := rfl
@[simp] theorem setTile_runNext (s : State) (t : Nat) (f : Tile → Tile) : (s.setTile t f).runNext = s.runNext := rfl
@[simp] theorem setTile_keys (s : State) (t : Nat) (f : Tile → Tile) : (s.setTile t f).keys = s.keys := rfl
@[simp] theorem setTile_plans (s : State) (t : Nat) (f : Tile → Tile) : (s.setTile t f).plans = s.plans := rfl
@[simp] theorem setTile_models (s : State) (t : Nat) (f : Tile → Tile) : (s.setTile t f).models = s.models := rfl
@[simp] theorem setTile_adapters (s : State) (t : Nat) (f : Tile → Tile) : (s.setTile t f).adapters = s.adapters := rfl
@[simp] theorem setTile_grammars (s : State) (t : Nat) (f : Tile → Tile) : (s.setTile t f).grammars = s.grammars := rfl
@[simp] theorem setTile_prefixes (s : State) (t : Nat) (f : Tile → Tile) : (s.setTile t f).prefixes = s.prefixes := rfl
@[simp] theorem setTile_loads (s : State) (t : Nat) (f : Tile → Tile) : (s.setTile t f).loads = s.loads := rfl
@[simp] theorem setTile_removals (s : State) (t : Nat) (f : Tile → Tile) : (s.setTile t f).removals = s.removals := rfl
@[simp] theorem setTile_pools (s : State) (t : Nat) (f : Tile → Tile) : (s.setTile t f).pools = s.pools := rfl
@[simp] theorem setTile_steps (s : State) (t : Nat) (f : Tile → Tile) : (s.setTile t f).steps = s.steps := rfl
@[simp] theorem setTile_completions (s : State) (t : Nat) (f : Tile → Tile) : (s.setTile t f).completions = s.completions := rfl
@[simp] theorem setTile_handoffs (s : State) (t : Nat) (f : Tile → Tile) : (s.setTile t f).handoffs = s.handoffs := rfl
@[simp] theorem setTile_sluiceFlights (s : State) (t : Nat) (f : Tile → Tile) : (s.setTile t f).sluiceFlights = s.sluiceFlights := rfl
@[simp] theorem setTile_ringCredits (s : State) (t : Nat) (f : Tile → Tile) : (s.setTile t f).ringCredits = s.ringCredits := rfl
@[simp] theorem setTile_sluiceCredits (s : State) (t : Nat) (f : Tile → Tile) : (s.setTile t f).sluiceCredits = s.sluiceCredits := rfl
@[simp] theorem setTile_leats (s : State) (t : Nat) (f : Tile → Tile) : (s.setTile t f).leats = s.leats := rfl
@[simp] theorem setTile_meshNext (s : State) (t : Nat) (f : Tile → Tile) : (s.setTile t f).meshNext = s.meshNext := rfl
@[simp] theorem setTile_remoteReads (s : State) (t : Nat) (f : Tile → Tile) : (s.setTile t f).remoteReads = s.remoteReads := rfl
@[simp] theorem setTile_tables (s : State) (t : Nat) (f : Tile → Tile) : (s.setTile t f).tables = s.tables := rfl
@[simp] theorem setTile_stores (s : State) (t : Nat) (f : Tile → Tile) : (s.setTile t f).stores = s.stores := rfl
@[simp] theorem setTile_hotSets (s : State) (t : Nat) (f : Tile → Tile) : (s.setTile t f).hotSets = s.hotSets := rfl
@[simp] theorem setTile_tableRuns (s : State) (t : Nat) (f : Tile → Tile) : (s.setTile t f).tableRuns = s.tableRuns := rfl
@[simp] theorem setTile_storeRuns (s : State) (t : Nat) (f : Tile → Tile) : (s.setTile t f).storeRuns = s.storeRuns := rfl
@[simp] theorem setTile_exchanges (s : State) (t : Nat) (f : Tile → Tile) : (s.setTile t f).exchanges = s.exchanges := rfl
@[simp] theorem setTile_nextXid (s : State) (t : Nat) (f : Tile → Tile) : (s.setTile t f).nextXid = s.nextXid := rfl
@[simp] theorem setTile_corpora (s : State) (t : Nat) (f : Tile → Tile) : (s.setTile t f).corpora = s.corpora := rfl
@[simp] theorem setTile_wheels (s : State) (t : Nat) (f : Tile → Tile) : (s.setTile t f).wheels = s.wheels := rfl
@[simp] theorem setTile_collectives (s : State) (t : Nat) (f : Tile → Tile) : (s.setTile t f).collectives = s.collectives := rfl
@[simp] theorem setTile_hotStale (s : State) (t : Nat) (f : Tile → Tile) : (s.setTile t f).hotStale = s.hotStale := rfl
@[simp] theorem setTile_textImages (s : State) (t : Nat) (f : Tile → Tile) : (s.setTile t f).textImages = s.textImages := rfl
@[simp] theorem setTile_textOld (s : State) (t : Nat) (f : Tile → Tile) : (s.setTile t f).textOld = s.textOld := rfl

-- setPool

@[simp] theorem setPool_pending (s : State) (p : Nat) (f : PoolRun → PoolRun) : (s.setPool p f).pending = s.pending := rfl
@[simp] theorem setPool_out (s : State) (p : Nat) (f : PoolRun → PoolRun) : (s.setPool p f).out = s.out := rfl
@[simp] theorem setPool_free (s : State) (p : Nat) (f : PoolRun → PoolRun) : (s.setPool p f).free = s.free := rfl
@[simp] theorem setPool_portTicks (s : State) (p : Nat) (f : PoolRun → PoolRun) : (s.setPool p f).portTicks = s.portTicks := rfl
@[simp] theorem setPool_meshCount (s : State) (p : Nat) (f : PoolRun → PoolRun) : (s.setPool p f).meshCount = s.meshCount := rfl
@[simp] theorem setPool_mem (s : State) (p : Nat) (f : PoolRun → PoolRun) : (s.setPool p f).mem = s.mem := rfl
@[simp] theorem setPool_used (s : State) (p : Nat) (f : PoolRun → PoolRun) : (s.setPool p f).used = s.used := rfl
@[simp] theorem setPool_zeroing (s : State) (p : Nat) (f : PoolRun → PoolRun) : (s.setPool p f).zeroing = s.zeroing := rfl
@[simp] theorem setPool_kvBase (s : State) (p : Nat) (f : PoolRun → PoolRun) : (s.setPool p f).kvBase = s.kvBase := rfl
@[simp] theorem setPool_kvSize (s : State) (p : Nat) (f : PoolRun → PoolRun) : (s.setPool p f).kvSize = s.kvSize := rfl
@[simp] theorem setPool_kvUsed (s : State) (p : Nat) (f : PoolRun → PoolRun) : (s.setPool p f).kvUsed = s.kvUsed := rfl
@[simp] theorem setPool_fuses (s : State) (p : Nat) (f : PoolRun → PoolRun) : (s.setPool p f).fuses = s.fuses := rfl
@[simp] theorem setPool_flash (s : State) (p : Nat) (f : PoolRun → PoolRun) : (s.setPool p f).flash = s.flash := rfl
@[simp] theorem setPool_pins (s : State) (p : Nat) (f : PoolRun → PoolRun) : (s.setPool p f).pins = s.pins := rfl
@[simp] theorem setPool_boot (s : State) (p : Nat) (f : PoolRun → PoolRun) : (s.setPool p f).boot = s.boot := rfl
@[simp] theorem setPool_cfg (s : State) (p : Nat) (f : PoolRun → PoolRun) : (s.setPool p f).cfg = s.cfg := rfl
@[simp] theorem setPool_fns (s : State) (p : Nat) (f : PoolRun → PoolRun) : (s.setPool p f).fns = s.fns := rfl
@[simp] theorem setPool_power (s : State) (p : Nat) (f : PoolRun → PoolRun) : (s.setPool p f).power = s.power := rfl
@[simp] theorem setPool_subs (s : State) (p : Nat) (f : PoolRun → PoolRun) : (s.setPool p f).subs = s.subs := rfl
@[simp] theorem setPool_trained (s : State) (p : Nat) (f : PoolRun → PoolRun) : (s.setPool p f).trained = s.trained := rfl
@[simp] theorem setPool_peers (s : State) (p : Nat) (f : PoolRun → PoolRun) : (s.setPool p f).peers = s.peers := rfl
@[simp] theorem setPool_twin (s : State) (p : Nat) (f : PoolRun → PoolRun) : (s.setPool p f).twin = s.twin := rfl
@[simp] theorem setPool_sessions (s : State) (p : Nat) (f : PoolRun → PoolRun) : (s.setPool p f).sessions = s.sessions := rfl
@[simp] theorem setPool_handshakes (s : State) (p : Nat) (f : PoolRun → PoolRun) : (s.setPool p f).handshakes = s.handshakes := rfl
@[simp] theorem setPool_nextHandshake (s : State) (p : Nat) (f : PoolRun → PoolRun) : (s.setPool p f).nextHandshake = s.nextHandshake := rfl
@[simp] theorem setPool_delivered (s : State) (p : Nat) (f : PoolRun → PoolRun) : (s.setPool p f).delivered = s.delivered := rfl
@[simp] theorem setPool_intakePlain (s : State) (p : Nat) (f : PoolRun → PoolRun) : (s.setPool p f).intakePlain = s.intakePlain := rfl
@[simp] theorem setPool_plainParts (s : State) (p : Nat) (f : PoolRun → PoolRun) : (s.setPool p f).plainParts = s.plainParts := rfl
@[simp] theorem setPool_errors (s : State) (p : Nat) (f : PoolRun → PoolRun) : (s.setPool p f).errors = s.errors := rfl
@[simp] theorem setPool_tele (s : State) (p : Nat) (f : PoolRun → PoolRun) : (s.setPool p f).tele = s.tele := rfl
@[simp] theorem setPool_counters (s : State) (p : Nat) (f : PoolRun → PoolRun) : (s.setPool p f).counters = s.counters := rfl
@[simp] theorem setPool_objectGen (s : State) (p : Nat) (f : PoolRun → PoolRun) : (s.setPool p f).objectGen = s.objectGen := rfl
@[simp] theorem setPool_reqs (s : State) (p : Nat) (f : PoolRun → PoolRun) : (s.setPool p f).reqs = s.reqs := rfl
@[simp] theorem setPool_admitted (s : State) (p : Nat) (f : PoolRun → PoolRun) : (s.setPool p f).admitted = s.admitted := rfl
@[simp] theorem setPool_runNext (s : State) (p : Nat) (f : PoolRun → PoolRun) : (s.setPool p f).runNext = s.runNext := rfl
@[simp] theorem setPool_keys (s : State) (p : Nat) (f : PoolRun → PoolRun) : (s.setPool p f).keys = s.keys := rfl
@[simp] theorem setPool_plans (s : State) (p : Nat) (f : PoolRun → PoolRun) : (s.setPool p f).plans = s.plans := rfl
@[simp] theorem setPool_models (s : State) (p : Nat) (f : PoolRun → PoolRun) : (s.setPool p f).models = s.models := rfl
@[simp] theorem setPool_adapters (s : State) (p : Nat) (f : PoolRun → PoolRun) : (s.setPool p f).adapters = s.adapters := rfl
@[simp] theorem setPool_grammars (s : State) (p : Nat) (f : PoolRun → PoolRun) : (s.setPool p f).grammars = s.grammars := rfl
@[simp] theorem setPool_prefixes (s : State) (p : Nat) (f : PoolRun → PoolRun) : (s.setPool p f).prefixes = s.prefixes := rfl
@[simp] theorem setPool_loads (s : State) (p : Nat) (f : PoolRun → PoolRun) : (s.setPool p f).loads = s.loads := rfl
@[simp] theorem setPool_removals (s : State) (p : Nat) (f : PoolRun → PoolRun) : (s.setPool p f).removals = s.removals := rfl
@[simp] theorem setPool_tiles (s : State) (p : Nat) (f : PoolRun → PoolRun) : (s.setPool p f).tiles = s.tiles := rfl
@[simp] theorem setPool_steps (s : State) (p : Nat) (f : PoolRun → PoolRun) : (s.setPool p f).steps = s.steps := rfl
@[simp] theorem setPool_completions (s : State) (p : Nat) (f : PoolRun → PoolRun) : (s.setPool p f).completions = s.completions := rfl
@[simp] theorem setPool_handoffs (s : State) (p : Nat) (f : PoolRun → PoolRun) : (s.setPool p f).handoffs = s.handoffs := rfl
@[simp] theorem setPool_sluiceFlights (s : State) (p : Nat) (f : PoolRun → PoolRun) : (s.setPool p f).sluiceFlights = s.sluiceFlights := rfl
@[simp] theorem setPool_ringCredits (s : State) (p : Nat) (f : PoolRun → PoolRun) : (s.setPool p f).ringCredits = s.ringCredits := rfl
@[simp] theorem setPool_sluiceCredits (s : State) (p : Nat) (f : PoolRun → PoolRun) : (s.setPool p f).sluiceCredits = s.sluiceCredits := rfl
@[simp] theorem setPool_leats (s : State) (p : Nat) (f : PoolRun → PoolRun) : (s.setPool p f).leats = s.leats := rfl
@[simp] theorem setPool_meshNext (s : State) (p : Nat) (f : PoolRun → PoolRun) : (s.setPool p f).meshNext = s.meshNext := rfl
@[simp] theorem setPool_remoteReads (s : State) (p : Nat) (f : PoolRun → PoolRun) : (s.setPool p f).remoteReads = s.remoteReads := rfl
@[simp] theorem setPool_tables (s : State) (p : Nat) (f : PoolRun → PoolRun) : (s.setPool p f).tables = s.tables := rfl
@[simp] theorem setPool_stores (s : State) (p : Nat) (f : PoolRun → PoolRun) : (s.setPool p f).stores = s.stores := rfl
@[simp] theorem setPool_hotSets (s : State) (p : Nat) (f : PoolRun → PoolRun) : (s.setPool p f).hotSets = s.hotSets := rfl
@[simp] theorem setPool_tableRuns (s : State) (p : Nat) (f : PoolRun → PoolRun) : (s.setPool p f).tableRuns = s.tableRuns := rfl
@[simp] theorem setPool_storeRuns (s : State) (p : Nat) (f : PoolRun → PoolRun) : (s.setPool p f).storeRuns = s.storeRuns := rfl
@[simp] theorem setPool_exchanges (s : State) (p : Nat) (f : PoolRun → PoolRun) : (s.setPool p f).exchanges = s.exchanges := rfl
@[simp] theorem setPool_nextXid (s : State) (p : Nat) (f : PoolRun → PoolRun) : (s.setPool p f).nextXid = s.nextXid := rfl
@[simp] theorem setPool_corpora (s : State) (p : Nat) (f : PoolRun → PoolRun) : (s.setPool p f).corpora = s.corpora := rfl
@[simp] theorem setPool_wheels (s : State) (p : Nat) (f : PoolRun → PoolRun) : (s.setPool p f).wheels = s.wheels := rfl
@[simp] theorem setPool_collectives (s : State) (p : Nat) (f : PoolRun → PoolRun) : (s.setPool p f).collectives = s.collectives := rfl
@[simp] theorem setPool_hotStale (s : State) (p : Nat) (f : PoolRun → PoolRun) : (s.setPool p f).hotStale = s.hotStale := rfl
@[simp] theorem setPool_textImages (s : State) (p : Nat) (f : PoolRun → PoolRun) : (s.setPool p f).textImages = s.textImages := rfl
@[simp] theorem setPool_textOld (s : State) (p : Nat) (f : PoolRun → PoolRun) : (s.setPool p f).textOld = s.textOld := rfl

-- setReq

@[simp] theorem setReq_pending (s : State) (r : Nat) (f : Request → Request) : (s.setReq r f).pending = s.pending := rfl
@[simp] theorem setReq_out (s : State) (r : Nat) (f : Request → Request) : (s.setReq r f).out = s.out := rfl
@[simp] theorem setReq_free (s : State) (r : Nat) (f : Request → Request) : (s.setReq r f).free = s.free := rfl
@[simp] theorem setReq_portTicks (s : State) (r : Nat) (f : Request → Request) : (s.setReq r f).portTicks = s.portTicks := rfl
@[simp] theorem setReq_meshCount (s : State) (r : Nat) (f : Request → Request) : (s.setReq r f).meshCount = s.meshCount := rfl
@[simp] theorem setReq_mem (s : State) (r : Nat) (f : Request → Request) : (s.setReq r f).mem = s.mem := rfl
@[simp] theorem setReq_used (s : State) (r : Nat) (f : Request → Request) : (s.setReq r f).used = s.used := rfl
@[simp] theorem setReq_zeroing (s : State) (r : Nat) (f : Request → Request) : (s.setReq r f).zeroing = s.zeroing := rfl
@[simp] theorem setReq_kvBase (s : State) (r : Nat) (f : Request → Request) : (s.setReq r f).kvBase = s.kvBase := rfl
@[simp] theorem setReq_kvSize (s : State) (r : Nat) (f : Request → Request) : (s.setReq r f).kvSize = s.kvSize := rfl
@[simp] theorem setReq_kvUsed (s : State) (r : Nat) (f : Request → Request) : (s.setReq r f).kvUsed = s.kvUsed := rfl
@[simp] theorem setReq_fuses (s : State) (r : Nat) (f : Request → Request) : (s.setReq r f).fuses = s.fuses := rfl
@[simp] theorem setReq_flash (s : State) (r : Nat) (f : Request → Request) : (s.setReq r f).flash = s.flash := rfl
@[simp] theorem setReq_pins (s : State) (r : Nat) (f : Request → Request) : (s.setReq r f).pins = s.pins := rfl
@[simp] theorem setReq_boot (s : State) (r : Nat) (f : Request → Request) : (s.setReq r f).boot = s.boot := rfl
@[simp] theorem setReq_cfg (s : State) (r : Nat) (f : Request → Request) : (s.setReq r f).cfg = s.cfg := rfl
@[simp] theorem setReq_fns (s : State) (r : Nat) (f : Request → Request) : (s.setReq r f).fns = s.fns := rfl
@[simp] theorem setReq_power (s : State) (r : Nat) (f : Request → Request) : (s.setReq r f).power = s.power := rfl
@[simp] theorem setReq_subs (s : State) (r : Nat) (f : Request → Request) : (s.setReq r f).subs = s.subs := rfl
@[simp] theorem setReq_trained (s : State) (r : Nat) (f : Request → Request) : (s.setReq r f).trained = s.trained := rfl
@[simp] theorem setReq_peers (s : State) (r : Nat) (f : Request → Request) : (s.setReq r f).peers = s.peers := rfl
@[simp] theorem setReq_twin (s : State) (r : Nat) (f : Request → Request) : (s.setReq r f).twin = s.twin := rfl
@[simp] theorem setReq_sessions (s : State) (r : Nat) (f : Request → Request) : (s.setReq r f).sessions = s.sessions := rfl
@[simp] theorem setReq_handshakes (s : State) (r : Nat) (f : Request → Request) : (s.setReq r f).handshakes = s.handshakes := rfl
@[simp] theorem setReq_nextHandshake (s : State) (r : Nat) (f : Request → Request) : (s.setReq r f).nextHandshake = s.nextHandshake := rfl
@[simp] theorem setReq_delivered (s : State) (r : Nat) (f : Request → Request) : (s.setReq r f).delivered = s.delivered := rfl
@[simp] theorem setReq_intakePlain (s : State) (r : Nat) (f : Request → Request) : (s.setReq r f).intakePlain = s.intakePlain := rfl
@[simp] theorem setReq_plainParts (s : State) (r : Nat) (f : Request → Request) : (s.setReq r f).plainParts = s.plainParts := rfl
@[simp] theorem setReq_errors (s : State) (r : Nat) (f : Request → Request) : (s.setReq r f).errors = s.errors := rfl
@[simp] theorem setReq_tele (s : State) (r : Nat) (f : Request → Request) : (s.setReq r f).tele = s.tele := rfl
@[simp] theorem setReq_counters (s : State) (r : Nat) (f : Request → Request) : (s.setReq r f).counters = s.counters := rfl
@[simp] theorem setReq_objectGen (s : State) (r : Nat) (f : Request → Request) : (s.setReq r f).objectGen = s.objectGen := rfl
@[simp] theorem setReq_admitted (s : State) (r : Nat) (f : Request → Request) : (s.setReq r f).admitted = s.admitted := rfl
@[simp] theorem setReq_runNext (s : State) (r : Nat) (f : Request → Request) : (s.setReq r f).runNext = s.runNext := rfl
@[simp] theorem setReq_keys (s : State) (r : Nat) (f : Request → Request) : (s.setReq r f).keys = s.keys := rfl
@[simp] theorem setReq_plans (s : State) (r : Nat) (f : Request → Request) : (s.setReq r f).plans = s.plans := rfl
@[simp] theorem setReq_models (s : State) (r : Nat) (f : Request → Request) : (s.setReq r f).models = s.models := rfl
@[simp] theorem setReq_adapters (s : State) (r : Nat) (f : Request → Request) : (s.setReq r f).adapters = s.adapters := rfl
@[simp] theorem setReq_grammars (s : State) (r : Nat) (f : Request → Request) : (s.setReq r f).grammars = s.grammars := rfl
@[simp] theorem setReq_prefixes (s : State) (r : Nat) (f : Request → Request) : (s.setReq r f).prefixes = s.prefixes := rfl
@[simp] theorem setReq_loads (s : State) (r : Nat) (f : Request → Request) : (s.setReq r f).loads = s.loads := rfl
@[simp] theorem setReq_removals (s : State) (r : Nat) (f : Request → Request) : (s.setReq r f).removals = s.removals := rfl
@[simp] theorem setReq_tiles (s : State) (r : Nat) (f : Request → Request) : (s.setReq r f).tiles = s.tiles := rfl
@[simp] theorem setReq_pools (s : State) (r : Nat) (f : Request → Request) : (s.setReq r f).pools = s.pools := rfl
@[simp] theorem setReq_steps (s : State) (r : Nat) (f : Request → Request) : (s.setReq r f).steps = s.steps := rfl
@[simp] theorem setReq_completions (s : State) (r : Nat) (f : Request → Request) : (s.setReq r f).completions = s.completions := rfl
@[simp] theorem setReq_handoffs (s : State) (r : Nat) (f : Request → Request) : (s.setReq r f).handoffs = s.handoffs := rfl
@[simp] theorem setReq_sluiceFlights (s : State) (r : Nat) (f : Request → Request) : (s.setReq r f).sluiceFlights = s.sluiceFlights := rfl
@[simp] theorem setReq_ringCredits (s : State) (r : Nat) (f : Request → Request) : (s.setReq r f).ringCredits = s.ringCredits := rfl
@[simp] theorem setReq_sluiceCredits (s : State) (r : Nat) (f : Request → Request) : (s.setReq r f).sluiceCredits = s.sluiceCredits := rfl
@[simp] theorem setReq_leats (s : State) (r : Nat) (f : Request → Request) : (s.setReq r f).leats = s.leats := rfl
@[simp] theorem setReq_meshNext (s : State) (r : Nat) (f : Request → Request) : (s.setReq r f).meshNext = s.meshNext := rfl
@[simp] theorem setReq_remoteReads (s : State) (r : Nat) (f : Request → Request) : (s.setReq r f).remoteReads = s.remoteReads := rfl
@[simp] theorem setReq_tables (s : State) (r : Nat) (f : Request → Request) : (s.setReq r f).tables = s.tables := rfl
@[simp] theorem setReq_stores (s : State) (r : Nat) (f : Request → Request) : (s.setReq r f).stores = s.stores := rfl
@[simp] theorem setReq_hotSets (s : State) (r : Nat) (f : Request → Request) : (s.setReq r f).hotSets = s.hotSets := rfl
@[simp] theorem setReq_tableRuns (s : State) (r : Nat) (f : Request → Request) : (s.setReq r f).tableRuns = s.tableRuns := rfl
@[simp] theorem setReq_storeRuns (s : State) (r : Nat) (f : Request → Request) : (s.setReq r f).storeRuns = s.storeRuns := rfl
@[simp] theorem setReq_exchanges (s : State) (r : Nat) (f : Request → Request) : (s.setReq r f).exchanges = s.exchanges := rfl
@[simp] theorem setReq_nextXid (s : State) (r : Nat) (f : Request → Request) : (s.setReq r f).nextXid = s.nextXid := rfl
@[simp] theorem setReq_corpora (s : State) (r : Nat) (f : Request → Request) : (s.setReq r f).corpora = s.corpora := rfl
@[simp] theorem setReq_wheels (s : State) (r : Nat) (f : Request → Request) : (s.setReq r f).wheels = s.wheels := rfl
@[simp] theorem setReq_collectives (s : State) (r : Nat) (f : Request → Request) : (s.setReq r f).collectives = s.collectives := rfl
@[simp] theorem setReq_hotStale (s : State) (r : Nat) (f : Request → Request) : (s.setReq r f).hotStale = s.hotStale := rfl
@[simp] theorem setReq_textImages (s : State) (r : Nat) (f : Request → Request) : (s.setReq r f).textImages = s.textImages := rfl
@[simp] theorem setReq_textOld (s : State) (r : Nat) (f : Request → Request) : (s.setReq r f).textOld = s.textOld := rfl

-- setWheel

@[simp] theorem setWheel_pending (s : State) (w : Wheel) : (s.setWheel w).pending = s.pending := rfl
@[simp] theorem setWheel_out (s : State) (w : Wheel) : (s.setWheel w).out = s.out := rfl
@[simp] theorem setWheel_free (s : State) (w : Wheel) : (s.setWheel w).free = s.free := rfl
@[simp] theorem setWheel_portTicks (s : State) (w : Wheel) : (s.setWheel w).portTicks = s.portTicks := rfl
@[simp] theorem setWheel_meshCount (s : State) (w : Wheel) : (s.setWheel w).meshCount = s.meshCount := rfl
@[simp] theorem setWheel_mem (s : State) (w : Wheel) : (s.setWheel w).mem = s.mem := rfl
@[simp] theorem setWheel_used (s : State) (w : Wheel) : (s.setWheel w).used = s.used := rfl
@[simp] theorem setWheel_zeroing (s : State) (w : Wheel) : (s.setWheel w).zeroing = s.zeroing := rfl
@[simp] theorem setWheel_kvBase (s : State) (w : Wheel) : (s.setWheel w).kvBase = s.kvBase := rfl
@[simp] theorem setWheel_kvSize (s : State) (w : Wheel) : (s.setWheel w).kvSize = s.kvSize := rfl
@[simp] theorem setWheel_kvUsed (s : State) (w : Wheel) : (s.setWheel w).kvUsed = s.kvUsed := rfl
@[simp] theorem setWheel_fuses (s : State) (w : Wheel) : (s.setWheel w).fuses = s.fuses := rfl
@[simp] theorem setWheel_flash (s : State) (w : Wheel) : (s.setWheel w).flash = s.flash := rfl
@[simp] theorem setWheel_pins (s : State) (w : Wheel) : (s.setWheel w).pins = s.pins := rfl
@[simp] theorem setWheel_boot (s : State) (w : Wheel) : (s.setWheel w).boot = s.boot := rfl
@[simp] theorem setWheel_cfg (s : State) (w : Wheel) : (s.setWheel w).cfg = s.cfg := rfl
@[simp] theorem setWheel_fns (s : State) (w : Wheel) : (s.setWheel w).fns = s.fns := rfl
@[simp] theorem setWheel_power (s : State) (w : Wheel) : (s.setWheel w).power = s.power := rfl
@[simp] theorem setWheel_subs (s : State) (w : Wheel) : (s.setWheel w).subs = s.subs := rfl
@[simp] theorem setWheel_trained (s : State) (w : Wheel) : (s.setWheel w).trained = s.trained := rfl
@[simp] theorem setWheel_peers (s : State) (w : Wheel) : (s.setWheel w).peers = s.peers := rfl
@[simp] theorem setWheel_twin (s : State) (w : Wheel) : (s.setWheel w).twin = s.twin := rfl
@[simp] theorem setWheel_sessions (s : State) (w : Wheel) : (s.setWheel w).sessions = s.sessions := rfl
@[simp] theorem setWheel_handshakes (s : State) (w : Wheel) : (s.setWheel w).handshakes = s.handshakes := rfl
@[simp] theorem setWheel_nextHandshake (s : State) (w : Wheel) : (s.setWheel w).nextHandshake = s.nextHandshake := rfl
@[simp] theorem setWheel_delivered (s : State) (w : Wheel) : (s.setWheel w).delivered = s.delivered := rfl
@[simp] theorem setWheel_intakePlain (s : State) (w : Wheel) : (s.setWheel w).intakePlain = s.intakePlain := rfl
@[simp] theorem setWheel_plainParts (s : State) (w : Wheel) : (s.setWheel w).plainParts = s.plainParts := rfl
@[simp] theorem setWheel_errors (s : State) (w : Wheel) : (s.setWheel w).errors = s.errors := rfl
@[simp] theorem setWheel_tele (s : State) (w : Wheel) : (s.setWheel w).tele = s.tele := rfl
@[simp] theorem setWheel_counters (s : State) (w : Wheel) : (s.setWheel w).counters = s.counters := rfl
@[simp] theorem setWheel_objectGen (s : State) (w : Wheel) : (s.setWheel w).objectGen = s.objectGen := rfl
@[simp] theorem setWheel_reqs (s : State) (w : Wheel) : (s.setWheel w).reqs = s.reqs := rfl
@[simp] theorem setWheel_admitted (s : State) (w : Wheel) : (s.setWheel w).admitted = s.admitted := rfl
@[simp] theorem setWheel_runNext (s : State) (w : Wheel) : (s.setWheel w).runNext = s.runNext := rfl
@[simp] theorem setWheel_keys (s : State) (w : Wheel) : (s.setWheel w).keys = s.keys := rfl
@[simp] theorem setWheel_plans (s : State) (w : Wheel) : (s.setWheel w).plans = s.plans := rfl
@[simp] theorem setWheel_models (s : State) (w : Wheel) : (s.setWheel w).models = s.models := rfl
@[simp] theorem setWheel_adapters (s : State) (w : Wheel) : (s.setWheel w).adapters = s.adapters := rfl
@[simp] theorem setWheel_grammars (s : State) (w : Wheel) : (s.setWheel w).grammars = s.grammars := rfl
@[simp] theorem setWheel_prefixes (s : State) (w : Wheel) : (s.setWheel w).prefixes = s.prefixes := rfl
@[simp] theorem setWheel_loads (s : State) (w : Wheel) : (s.setWheel w).loads = s.loads := rfl
@[simp] theorem setWheel_removals (s : State) (w : Wheel) : (s.setWheel w).removals = s.removals := rfl
@[simp] theorem setWheel_tiles (s : State) (w : Wheel) : (s.setWheel w).tiles = s.tiles := rfl
@[simp] theorem setWheel_pools (s : State) (w : Wheel) : (s.setWheel w).pools = s.pools := rfl
@[simp] theorem setWheel_steps (s : State) (w : Wheel) : (s.setWheel w).steps = s.steps := rfl
@[simp] theorem setWheel_completions (s : State) (w : Wheel) : (s.setWheel w).completions = s.completions := rfl
@[simp] theorem setWheel_handoffs (s : State) (w : Wheel) : (s.setWheel w).handoffs = s.handoffs := rfl
@[simp] theorem setWheel_sluiceFlights (s : State) (w : Wheel) : (s.setWheel w).sluiceFlights = s.sluiceFlights := rfl
@[simp] theorem setWheel_ringCredits (s : State) (w : Wheel) : (s.setWheel w).ringCredits = s.ringCredits := rfl
@[simp] theorem setWheel_sluiceCredits (s : State) (w : Wheel) : (s.setWheel w).sluiceCredits = s.sluiceCredits := rfl
@[simp] theorem setWheel_leats (s : State) (w : Wheel) : (s.setWheel w).leats = s.leats := rfl
@[simp] theorem setWheel_meshNext (s : State) (w : Wheel) : (s.setWheel w).meshNext = s.meshNext := rfl
@[simp] theorem setWheel_remoteReads (s : State) (w : Wheel) : (s.setWheel w).remoteReads = s.remoteReads := rfl
@[simp] theorem setWheel_tables (s : State) (w : Wheel) : (s.setWheel w).tables = s.tables := rfl
@[simp] theorem setWheel_stores (s : State) (w : Wheel) : (s.setWheel w).stores = s.stores := rfl
@[simp] theorem setWheel_hotSets (s : State) (w : Wheel) : (s.setWheel w).hotSets = s.hotSets := rfl
@[simp] theorem setWheel_tableRuns (s : State) (w : Wheel) : (s.setWheel w).tableRuns = s.tableRuns := rfl
@[simp] theorem setWheel_storeRuns (s : State) (w : Wheel) : (s.setWheel w).storeRuns = s.storeRuns := rfl
@[simp] theorem setWheel_exchanges (s : State) (w : Wheel) : (s.setWheel w).exchanges = s.exchanges := rfl
@[simp] theorem setWheel_nextXid (s : State) (w : Wheel) : (s.setWheel w).nextXid = s.nextXid := rfl
@[simp] theorem setWheel_corpora (s : State) (w : Wheel) : (s.setWheel w).corpora = s.corpora := rfl
@[simp] theorem setWheel_collectives (s : State) (w : Wheel) : (s.setWheel w).collectives = s.collectives := rfl
@[simp] theorem setWheel_hotStale (s : State) (w : Wheel) : (s.setWheel w).hotStale = s.hotStale := rfl
@[simp] theorem setWheel_textImages (s : State) (w : Wheel) : (s.setWheel w).textImages = s.textImages := rfl
@[simp] theorem setWheel_textOld (s : State) (w : Wheel) : (s.setWheel w).textOld = s.textOld := rfl

end Sys2Proof.Machine.State
end

