-- ==== Sys2Proof/Laws/Corpora.lean ====
section
/-! SUPPORT. Lemmas about a merge's writes: the corpora of the device that they leave alone, and what a segment makes of its own. -/

namespace Sys2Proof.Machine

/-- An entry of the error log leaves the corpora alone. -/
theorem State.logEvent_corpora (e) (s : State) : (s.logEvent e).corpora = s.corpora := by
  simp only [State.logEvent]
  split
  · rfl
  · split
    · rfl
    · split <;> rfl

/-- So does a write of HBM for no request. -/
theorem State.storeHbm_corpora (m a bs) (s : State) : (s.storeHbm none m a bs).corpora = s.corpora := by
  have p : (s.portWrite a bs).corpora = s.corpora := by simp only [State.portWrite]; split <;> rfl
  simp only [State.storeHbm]
  split
  · exact p
  · simp only [State.containedEvent]
    split
    · simp [State.logEvent_corpora, p]
    · simp [State.logEvent_corpora, p]

/-- So do the rows of a segment. -/
theorem State.placeRows_corpora (c k v seg rows) (s : State) : (s.placeRows c k v seg rows).corpora = s.corpora := by
  simp only [State.placeRows]
  generalize (permutation k.perm c.segRows).zip rows = l
  induction l generalizing s with
  | nil => rfl
  | cons p l ih => simp [ih, State.storeHbm_corpora]

/-- A merge's segment leaves the corpus there, with the next segment to come. -/
theorem State.mergeSegment_corpus? (c k m) (s : State) (x) (h : s.corpus? k.id = some x) :
    (s.mergeSegment c k m).corpus? k.id = some { k with merge := some { m with next := m.next + 1 } } := by
  have g : ∀ (t : State) (y : Corpus), y.id = k.id → t.corpora = s.corpora → (t.setCorpus y).corpus? k.id = some y := by
    intro t y hy e
    simp only [State.corpus?] at h
    simp only [State.setCorpus, State.corpus?, e, hy]
    revert h
    induction s.corpora with
    | nil => simp
    | cons z l ih =>
      simp only [List.find?_cons, List.map_cons]
      by_cases hz : (z.id == k.id) = true
      · simp [hz, hy]
      · simp only [Bool.not_eq_true] at hz
        simp only [hz, Bool.false_eq_true, if_false]
        exact ih
  simp only [State.mergeSegment]
  have q : ∀ (t : State) (n : Nat), (if n = 0 then t else t.count (devCtr 15) n).corpora = t.corpora := by intro t n; split <;> rfl
  exact g _ _ rfl ((q _ _).trans (State.placeRows_corpora ..))
end Sys2Proof.Machine
end

