-- ==== Sys2Proof/Laws/Memory.lean ====
section
/-! SUPPORT. The laws of memory: every operation keeps the canonical form, a write is read back, and every other byte is left alone. -/

namespace Sys2Proof.Machine

/-- No listed address is at or below a bound. -/
def Memory.above (a : Nat) (m : List Host.Cell) : Prop := ∀ c ∈ m, a < c.1

theorem Memory.wf_cons (c : Host.Cell) (m : List Host.Cell) : Memory.wf (c :: m) = true ↔ c.2 ≠ 0 ∧ Memory.above c.1 m ∧ Memory.wf m = true := by
  induction m generalizing c with
  | nil => simp [Memory.wf, Memory.above]
  | cons d r ih =>
    have hd := ih d
    simp only [Memory.wf, Bool.and_eq_true, bne_iff_ne, ne_eq, decide_eq_true_eq]
    constructor
    · rintro ⟨⟨h1, h2⟩, h3⟩
      refine ⟨h1, ?_, h3⟩
      intro x hx
      rcases List.mem_cons.mp hx with rfl | hx
      · exact h2
      · exact Nat.lt_trans h2 ((hd.mp h3).2.1 x hx)
    · rintro ⟨h1, h2, h3⟩
      exact ⟨⟨h1, h2 d (List.mem_cons_self ..)⟩, h3⟩

theorem Memory.above_write (x a : Nat) (b : Byte) (m : List Host.Cell) (h : Memory.above x m) (hx : x < a) : Memory.above x (Memory.write m a b) := by
  induction m with
  | nil => unfold Memory.write; split <;> simp [Memory.above, hx]
  | cons c r ih =>
    have hr : Memory.above x r := fun d hd => h d (List.mem_cons_of_mem _ hd)
    have hc := h c (List.mem_cons_self ..)
    unfold Memory.write
    split
    · split
      · exact h
      · intro d hd; rcases List.mem_cons.mp hd with rfl | hd
        · exact hx
        · exact h d hd
    · split
      · split
        · exact hr
        · intro d hd; rcases List.mem_cons.mp hd with rfl | hd
          · exact hx
          · exact hr d hd
      · intro d hd; rcases List.mem_cons.mp hd with rfl | hd
        · exact hc
        · exact ih hr d hd

/-- Writing one byte keeps the canonical form. -/
theorem Memory.wf_write (m : List Host.Cell) (a : Nat) (b : Byte) (h : Memory.wf m = true) : Memory.wf (Memory.write m a b) = true := by
  induction m with
  | nil => unfold Memory.write; split <;> simp_all [Memory.wf]
  | cons c r ih =>
    obtain ⟨h1, h2, h3⟩ := (Memory.wf_cons c r).mp h
    unfold Memory.write
    split
    · split
      · exact h
      · rename_i hlt hb
        refine (Memory.wf_cons _ _).mpr ⟨by simpa using hb, ?_, h⟩
        intro d hd; rcases List.mem_cons.mp hd with rfl | hd
        · exact hlt
        · exact Nat.lt_trans hlt (h2 d hd)
    · split
      · rename_i heq
        split
        · exact h3
        · rename_i hb
          exact (Memory.wf_cons _ _).mpr ⟨by simpa using hb, fun d hd => heq ▸ h2 d hd, h3⟩
      · exact (Memory.wf_cons _ _).mpr ⟨h1, Memory.above_write _ _ _ _ h2 (by omega), ih h3⟩

theorem Memory.lookup_above (a : Nat) (m : List Host.Cell) (h : ∀ c ∈ m, c.1 ≠ a) : Memory.read m a = 0 := by
  induction m with
  | nil => rfl
  | cons c r ih =>
    have hc : (c.1 == a) = false := by simpa using h c (List.mem_cons_self ..)
    have := ih fun d hd => h d (List.mem_cons_of_mem _ hd)
    unfold Memory.read lookupD at *
    simp only [List.find?_cons, hc]
    exact this

theorem Memory.read_cons (c : Host.Cell) (m : List Host.Cell) (x : Nat) : Memory.read (c :: m) x = if c.1 = x then c.2 else Memory.read m x := by
  unfold Memory.read lookupD
  by_cases h : c.1 = x <;> simp [h]

/-- A byte written reads back, and every other byte reads as before. -/
theorem Memory.read_write (m : List Host.Cell) (a x : Nat) (b : Byte) (h : Memory.wf m = true) :
    Memory.read (Memory.write m a b) x = if x = a then b else Memory.read m x := by
  induction m with
  | nil =>
    unfold Memory.write
    cases hb : (b == 0)
    · rw [if_neg (by simp), Memory.read_cons]
      by_cases hx : x = a
      · simp [hx]
      · rw [if_neg (Ne.symm hx), if_neg hx]
    · rw [if_pos rfl]
      have hb' : b = 0 := by simpa using hb
      by_cases hx : x = a <;> simp [hx, hb', Memory.read, lookupD]
  | cons c r ih =>
    obtain ⟨h1, h2, h3⟩ := (Memory.wf_cons c r).mp h
    unfold Memory.write
    by_cases h4 : a < c.1
    · have hz : Memory.read (c :: r) a = 0 := Memory.lookup_above a _ fun d hd => by
        rcases List.mem_cons.mp hd with rfl | hd
        · omega
        · have := h2 d hd; omega
      rw [if_pos h4]
      cases hb : (b == 0)
      · rw [if_neg (by simp), Memory.read_cons]
        by_cases hx : x = a
        · simp [hx]
        · rw [if_neg (Ne.symm hx), if_neg hx]
      · rw [if_pos rfl]
        have hb' : b = 0 := by simpa using hb
        by_cases hx : x = a
        · rw [if_pos hx, hx, hz, hb']
        · rw [if_neg hx]
    · rw [if_neg h4]
      by_cases h5 : a = c.1
      · have hz : Memory.read r a = 0 := Memory.lookup_above a _ fun d hd => by have := h2 d hd; omega
        rw [if_pos h5]
        cases hb : (b == 0)
        · rw [if_neg (by simp), Memory.read_cons, Memory.read_cons]
          by_cases hx : x = a
          · simp [hx]
          · rw [if_neg (Ne.symm hx), if_neg hx, if_neg (by omega)]
        · rw [if_pos rfl, Memory.read_cons]
          have hb' : b = 0 := by simpa using hb
          by_cases hx : x = a
          · rw [if_pos hx, hx, hz, hb']
          · rw [if_neg hx, if_neg (by omega)]
      · rw [if_neg h5, Memory.read_cons, Memory.read_cons, ih h3]
        by_cases hx : c.1 = x
        · rw [if_pos hx, if_pos hx, if_neg (by omega)]
        · rw [if_neg hx, if_neg hx]

/-- Writing bytes keeps the canonical form. -/
theorem Memory.wf_writeN (bs : Bytes) (m : List Host.Cell) (a : Nat) (h : Memory.wf m = true) : Memory.wf (Memory.writeN m a bs) = true := by
  induction bs generalizing m a with
  | nil => exact h
  | cons b r ih => exact ih _ _ (Memory.wf_write m a b h)

/-- Bytes written read back at their places, and every other byte reads as before. -/
theorem Memory.read_writeN (bs : Bytes) (m : List Host.Cell) (a x : Nat) (h : Memory.wf m = true) :
    Memory.read (Memory.writeN m a bs) x = if a ≤ x ∧ x < a + bs.length then bs.getD (x - a) 0 else Memory.read m x := by
  induction bs generalizing m a with
  | nil => simp only [Memory.writeN, List.length_nil]; rw [if_neg (by omega)]
  | cons b r ih =>
    simp only [Memory.writeN, List.length_cons]
    rw [ih _ _ (Memory.wf_write m a b h), Memory.read_write _ _ _ _ h]
    by_cases h1 : x = a
    · subst h1; simp
    · by_cases h2 : a + 1 ≤ x ∧ x < a + 1 + r.length
      · have h3 : a ≤ x ∧ x < a + (r.length + 1) := by omega
        have h4 : x - a = (x - (a + 1)) + 1 := by omega
        simp [h2, h3, h4]
      · have h3 : ¬(a ≤ x ∧ x < a + (r.length + 1)) := by omega
        rw [if_neg h2, if_neg h3, if_neg h1]

/-- Clearing a range keeps the canonical form. -/
theorem Memory.wf_clear (m : List Host.Cell) (a n : Nat) (h : Memory.wf m = true) : Memory.wf (Memory.clear m a n) = true := by
  induction m with
  | nil => rfl
  | cons c r ih =>
    obtain ⟨h1, h2, h3⟩ := (Memory.wf_cons c r).mp h
    unfold Memory.clear at *
    simp only [List.filter_cons]
    split
    · exact (Memory.wf_cons _ _).mpr ⟨h1, fun d hd => h2 d (List.mem_filter.mp hd).1, ih h3⟩
    · exact ih h3

/-- A cleared range reads 0, and every other byte as before. -/
theorem Memory.read_clear (m : List Host.Cell) (a n x : Nat) :
    Memory.read (Memory.clear m a n) x = if a ≤ x ∧ x < a + n then 0 else Memory.read m x := by
  induction m with
  | nil => simp [Memory.clear, Memory.read, lookupD]
  | cons c r ih =>
    unfold Memory.clear at *
    simp only [List.filter_cons]
    split
    · rename_i hc
      have hc' : c.1 < a ∨ a + n ≤ c.1 := by simpa using hc
      rw [Memory.read_cons, Memory.read_cons, ih]
      by_cases hx : c.1 = x
      · rw [if_pos hx, if_pos hx, if_neg (by omega)]
      · rw [if_neg hx, if_neg hx]
    · rename_i hc
      have hc' : ¬(c.1 < a ∨ a + n ≤ c.1) := by simpa using hc
      rw [ih, Memory.read_cons]
      by_cases hx : c.1 = x
      · rw [if_pos hx, if_pos (by omega), if_pos (by omega)]
      · rw [if_neg hx]

namespace State

theorem writeMem_memOk (s : State) (a : Nat) (bs : Bytes) (h : s.memOk) : (s.writeMem a bs).memOk := Memory.wf_writeN bs s.mem a h
theorem clearMem_memOk (s : State) (a n : Nat) (h : s.memOk) : (s.clearMem a n).memOk := Memory.wf_clear s.mem a n h
theorem reset_memOk : State.reset.memOk := rfl

end State
end Sys2Proof.Machine
end

