-- ==== Sys2Proof/Laws/Messages.lean ====
section
/-! SUPPORT. What every command leaves alone, and the shared paths of messages: the gate, durable writes, COLL messages, replies, and the
control message that is taken up at once. -/

namespace Sys2Proof.Machine

-- Every command

@[simp] theorem State.after_pending (s t : State) : (s.after t).pending = s.pending := by unfold State.after; rfl
@[simp] theorem State.after_fuses (s t : State) : (s.after t).fuses = s.fuses := by unfold State.after; rfl
@[simp] theorem State.afterStart_pending (r : StartReport) (s t : State) : (s.afterStart r t).pending = s.pending := by unfold State.afterStart; rfl
@[simp] theorem State.afterStart_fuses (r : StartReport) (s t : State) : (s.afterStart r t).fuses = s.startFuses r := by unfold State.afterStart; rfl

/-- A command ends in the next state that its effect leads to; start-up alone settles the fuses too. -/
theorem exec_after (c : Instr) (s : State) : (∃ t, exec c s = .next (s.after t)) ∨ ∃ r t, c = .resetNRelease r ∧ exec c s = .next (s.afterStart r t) := by
  cases c
  case resetNRelease r => exact .inr ⟨r, _, rfl, rfl⟩
  all_goals exact .inl ⟨_, rfl⟩

/-- Every command ends in a next state with the queue as it was. -/
theorem exec_next (c : Instr) (s : State) : ∃ t, exec c s = .next t ∧ t.pending = s.pending := by
  rcases exec_after c s with ⟨t, h⟩ | ⟨r, t, -, h⟩
  · exact ⟨_, h, State.after_pending s t⟩
  · exact ⟨_, h, State.afterStart_pending r s t⟩

/-- Only start-up changes the fuses. -/
theorem exec_fuses (c : Instr) (s t : State) (h : exec c s = .next t) : t.fuses = s.fuses ∨ ∃ r, c = .resetNRelease r ∧ t.fuses = s.startFuses r := by
  rcases exec_after c s with ⟨u, h'⟩ | ⟨r, u, hc, h'⟩
  · rw [h] at h'; cases h'; exact .inl (State.after_fuses s u)
  · rw [h] at h'; cases h'; exact .inr ⟨r, hc, State.afterStart_fuses r s u⟩

-- Messages

/-- A message that the gate refuses gets its outcome as reply. -/
theorem State.onMessage_refused {type : Nat} {m : Msg} {w : Bool} {test f} {s : State} {d q o} (ho : s.Offers type m d q)
    (ht : test d.frags.flatten = true) (hg : s.gate q type w = some o) (hs : silentType type = false ∨ o = refNotPermitted) :
    s.onMessage type m w test f = (s.untake d).reply q.id m.msgId o (if durableType type then uAt d.frags.flatten 0 8 else 0) := by
  obtain ⟨h1, h2, h3, h4⟩ := ho
  have e : (s.untake d).gate q type w = some o := hg
  rcases hs with hs | hs
  · simp [State.onMessage, h1, h2, h3, h4, ht, e, hs]
  · subst hs; simp [State.onMessage, h1, h2, h3, h4, ht, e]

/-- A message that the gate passes reaches its handler. -/
theorem State.onMessage_passes {type : Nat} {m : Msg} {w : Bool} {test f} {s : State} {d q} (ho : s.Admits type m w d q)
    (ht : test d.frags.flatten = true) : s.onMessage type m w test f = f q d d.frags.flatten (s.untake d) := by
  obtain ⟨⟨h1, h2, h3, h4⟩, hg⟩ := ho
  have e : (s.untake d).gate q type w = none := hg
  simp [State.onMessage, h1, h2, h3, h4, ht, e]

/-- A COLL message of an operation reaches its handler with its header and body. -/
theorem State.onColl_passes {op m f} {s : State} {d q} (h : s.Joins op m d q) :
    s.onColl op m f = f q (CollHead.decode d.frags.flatten) (d.frags.flatten.drop 64) (s.untake d) := by
  have hl : decide (64 ≤ d.frags.flatten.length) = true := by
    have := h.head; unfold collOk at this; simp only [Bool.and_eq_true] at this; exact this.1.1
  unfold State.onColl
  rw [State.onMessage_passes h.toAdmits (by simp only [hl, Bool.true_and, beq_iff_eq, h.op])]
  simp only [h.head, if_true]

/-- A durable write that the gate refuses, once it is next. -/
theorem State.durableWrite_refused {type : Nat} {m : Msg} {test} {s : State} {d q o} (ho : s.Offers type m d q) (ht : test d.frags.flatten = true)
    (hw : s.earlierWrite q d = false) (hg : s.gate q type false = some o) (hs : silentType type = false ∨ o = refNotPermitted) :
    s.durableWrite type m test = (s.untake d).reply q.id m.msgId o (if durableType type then uAt d.frags.flatten 0 8 else 0) := by
  have h := State.onMessage_refused (f := fun (q : Session) (d : Delivered) p s =>
      let o := writeObject type p
      State.takeWrite { session := q.id, msgId := d.msgId, type, writeId := uAt p 0 8, kind := o.1, obj := o.2, payload := p } s) ho ht hg hs
  obtain ⟨h1, h2, h3, h4⟩ := ho
  simp only [State.durableWrite, h1, h2, hw]
  simpa using h

/-- A durable write that the gate passes, once it is next, is taken. -/
theorem State.durableWrite_passes {type : Nat} {m : Msg} {test} {s : State} {d q} (ho : s.Admits type m false d q) (ht : test d.frags.flatten = true)
    (hw : s.earlierWrite q d = false) : s.durableWrite type m test = (s.untake d).takeWrite (writeOf type d q) := by
  have h := State.onMessage_passes (f := fun (q : Session) (d : Delivered) p s =>
      let o := writeObject type p
      State.takeWrite { session := q.id, msgId := d.msgId, type, writeId := uAt p 0 8, kind := o.1, obj := o.2, payload := p } s) ho ht
  obtain ⟨⟨h1, h2, h3, h4⟩, _⟩ := ho
  simp only [State.durableWrite, h1, h2, hw]
  exact h

-- Sending

/-- What sending leaves alone: functions, power, configuration, memory, the request table, boot state, pins and telemetry. -/
structure Sends (s t : State) : Prop where
  fns : t.fns = s.fns
  power : t.power = s.power
  cfg : t.cfg = s.cfg
  mem : t.mem = s.mem
  reqs : t.reqs = s.reqs
  boot : t.boot = s.boot
  pins : t.pins = s.pins
  tele : t.tele = s.tele

theorem Sends.rfl' (s : State) : Sends s s := ⟨rfl, rfl, rfl, rfl, rfl, rfl, rfl, rfl⟩
theorem Sends.trans {a b c : State} (h : Sends a b) (g : Sends b c) : Sends a c :=
  ⟨g.1.trans h.1, g.2.trans h.2, g.3.trans h.3, g.4.trans h.4, g.5.trans h.5, g.6.trans h.6, g.7.trans h.7, g.8.trans h.8⟩

theorem State.transmit_sends (a o) (s : State) : Sends s (s.transmit a o) := by
  unfold State.transmit; split <;> exact ⟨rfl, rfl, rfl, rfl, rfl, rfl, rfl, rfl⟩
theorem State.emitOn_sends (a o) (s : State) : Sends s (s.emitOn a o) := by
  unfold State.emitOn
  dsimp only
  split
  · exact State.transmit_sends _ _ s
  · split
    · exact State.transmit_sends _ _ s
    · have h := fun x u => State.transmit_sends a x u
      exact ⟨(h _ _).1, (h _ _).2, (h _ _).3, (h _ _).4, (h _ _).5, (h _ _).6, (h _ _).7, (h _ _).8⟩
theorem State.withSession_sends (a f) (s : State) : Sends s (s.withSession a f) := ⟨rfl, rfl, rfl, rfl, rfl, rfl, rfl, rfl⟩
theorem State.noteSent_sends (q) (s : State) : Sends s (s.noteSent q) := ⟨rfl, rfl, rfl, rfl, rfl, rfl, rfl, rfl⟩
theorem State.launch_sends (a d) (s : State) : Sends s (s.launch a d) := by
  unfold State.launch
  split
  · exact Sends.rfl' _
  · exact ((State.withSession_sends _ _ _).trans (State.emitOn_sends _ _ _)).trans (State.noteSent_sends _ _)
theorem State.pump_sends (a) (l : List TxDatagram) (s : State) : Sends s (s.pump a l) := by
  induction l generalizing s with
  | nil => exact ⟨rfl, rfl, rfl, rfl, rfl, rfl, rfl, rfl⟩
  | cons d r ih =>
    unfold State.pump
    split
    · exact Sends.rfl' _
    · split
      · exact (State.launch_sends _ _ _).trans (ih _)
      · exact ⟨rfl, rfl, rfl, rfl, rfl, rfl, rfl, rfl⟩
theorem State.launchAll_sends (a) (l : List TxDatagram) (s : State) : Sends s (l.foldl (fun s d => s.launch a d) s) := by
  induction l generalizing s with
  | nil => exact Sends.rfl' _
  | cons d r ih => exact (State.launch_sends _ _ _).trans (ih _)
theorem State.sendMessage_sends (a b c n p) (s : State) : Sends s (s.sendMessage a b c n p) := by
  unfold State.sendMessage
  split
  · exact Sends.rfl' _
  · split
    · dsimp only
      split
      · exact Sends.trans (b := State.withSession _ _ _) ⟨rfl, rfl, rfl, rfl, rfl, rfl, rfl, rfl⟩ (State.launchAll_sends _ _ _)
      · exact Sends.trans (b := State.withSession _ _ _) ⟨rfl, rfl, rfl, rfl, rfl, rfl, rfl, rfl⟩ (State.pump_sends _ _ _)
    · exact Sends.rfl' _
/-- A reply leaves everything alone but its session's sending and what leaves the port. -/
theorem State.reply_sends (a b o w) (s : State) : Sends s (s.reply a b o w) := by
  unfold State.reply; dsimp only
  split
  · exact (State.sendMessage_sends _ _ _ _ _ _).trans ⟨rfl, rfl, rfl, rfl, rfl, rfl, rfl, rfl⟩
  · exact State.sendMessage_sends _ _ _ _ _ _

-- Control messages

/-- With nothing in progress and nothing waiting, a control message is taken up at once. -/
theorem State.settle_one {u : State} {x : CtlOp} (h1 : u.fns.current = none) (h2 : u.fns.waiting = []) :
    State.settle { u with fns := { u.fns with waiting := u.fns.waiting ++ [x] } } = (u.startCtl x).settleCurrent := by
  have e : ({ u.fns with waiting := [] } : Functions) = u.fns := by
    rcases hf : u.fns with ⟨a, b, c, d, e⟩; rw [hf] at h2; simp at h2; rw [h2]
  simp only [State.settle, h2, List.nil_append, List.isEmpty_cons, Bool.and_false, Bool.false_eq_true, if_false, List.length_cons, List.length_nil]
  show State.settleWith (0 + 1) _ = _
  unfold State.settleWith
  simp only [State.settleCurrent, h1]
  have e2 : ({ u with fns := { u.fns with waiting := [] } } : State) = u := by rw [e]
  show State.settleWith 0 (State.startCtl x ({ u with fns := { u.fns with waiting := [] } } : State)) = _
  rw [e2]; rfl

theorem State.control_passes {type : Nat} {m : Msg} {test} {s : State} {d q} (ho : s.Admits type m false d q) (ht : test d.frags.flatten = true)
    (h1 : s.fns.current = none) (h2 : s.fns.waiting = []) : s.control type test m =
      ((s.untake d).startCtl { session := q.id, msgId := m.msgId, type, payload := d.frags.flatten, arrived := s.portTicks }).settleCurrent := by
  simp only [State.control]
  rw [State.onMessage_passes ho ht]
  exact State.settle_one h1 h2

end Sys2Proof.Machine
end

