-- ==== Sys2Proof/Laws/Functions.lean ====
section
/-! SUPPORT. Lemmas about ending requests, stopping functions and logging: the state of the whole device that they leave alone. -/

namespace Sys2Proof.Machine

/-- A bit stays when it was set and is not taken away. -/
theorem bitAt_maskWithout (a b n : Nat) : bitAt (maskWithout a b) n = (bitAt a n && !bitAt b n) := by
  unfold maskWithout
  induction n generalizing a b with
  | zero =>
    have h1 : (a &&& b) % 2 = (a % 2) &&& (b % 2) := by simpa using Nat.and_mod_two_pow (a := a) (b := b) (n := 1)
    have h2 : a &&& b ≤ a := Nat.and_le_left
    simp only [bitAt, pow_zero, Nat.div_one]
    have h3 : (a - (a &&& b)) % 2 = a % 2 - (a % 2 &&& b % 2) := by
      have h4 : a % 2 &&& b % 2 ≤ a % 2 := Nat.and_le_left
      rw [← h1] at h4 ⊢
      generalize a &&& b = c at *; omega
    rw [h3]
    rcases Nat.mod_two_eq_zero_or_one a with ha | ha <;> rcases Nat.mod_two_eq_zero_or_one b with hb | hb <;> rw [ha, hb] <;> rfl
  | succ n ih =>
    have h1 : (a &&& b) % 2 = (a % 2) &&& (b % 2) := by simpa using Nat.and_mod_two_pow (a := a) (b := b) (n := 1)
    have h2 : (a &&& b) / 2 = a / 2 &&& b / 2 := by simpa using Nat.and_div_two (a := a) (b := b)
    have h3 : a / 2 &&& b / 2 ≤ a / 2 := Nat.and_le_left
    have h4 : a % 2 &&& b % 2 ≤ a % 2 := Nat.and_le_left
    have h6 : a &&& b ≤ a := Nat.and_le_left
    have h5 : (a - (a &&& b)) / 2 = a / 2 - (a / 2 &&& b / 2) := by
      rw [← h2]; rw [← h1] at h4
      generalize a &&& b = c at *; omega
    have e : ∀ x : Nat, bitAt x (n + 1) = bitAt (x / 2) n := fun x => by simp only [bitAt, pow_succ', Nat.div_div_eq_div_mul]
    rw [e, e a, e b, h5, ih]
/-- A bit of a conjunction. -/
theorem bitAt_and (a b n : Nat) : bitAt (a &&& b) n = (bitAt a n && bitAt b n) := by
  have e : ∀ x, bitAt x n = Nat.testBit x n := fun x => by
    simp only [bitAt, Nat.testBit, Nat.shiftRight_eq_div_pow, Nat.one_and_eq_mod_two]
    rcases Nat.mod_two_eq_zero_or_one (x / 2 ^ n) with h | h <;> simp [h]
  rw [e, e, e, Nat.testBit_and]
/-- What a stop takes away no longer runs. -/
theorem bitAt_stopped (a b n : Nat) (h : bitAt b n = true) : bitAt (maskWithout a (b &&& a)) n = false := by
  rw [bitAt_maskWithout, bitAt_and, h]; cases bitAt a n <;> rfl

/-- The state of the whole device that ending requests leaves alone. -/
structure Keeps (s t : State) : Prop where
  fns : t.fns = s.fns
  power : t.power = s.power
  cfg : t.cfg = s.cfg
  boot : t.boot = s.boot
  pins : t.pins = s.pins
  tele : t.tele = s.tele

theorem Keeps.rfl' (s : State) : Keeps s s := ⟨rfl, rfl, rfl, rfl, rfl, rfl⟩
theorem Keeps.trans {a b c : State} (h : Keeps a b) (g : Keeps b c) : Keeps a c :=
  ⟨g.1.trans h.1, g.2.trans h.2, g.3.trans h.3, g.4.trans h.4, g.5.trans h.5, g.6.trans h.6⟩
theorem Keeps.after {a b c : State} (g : Keeps b c) (h : Keeps a b) : Keeps a c := h.trans g
theorem Keeps.ite {c : Prop} [Decidable c] {s a b : State} (h : Keeps s a) (g : Keeps s b) : Keeps s (if c then a else b) := by split <;> assumption
theorem Keeps.foldl {α : Type} (f : State → α → State) (hf : ∀ s x, Keeps s (f s x)) (l : List α) (s : State) : Keeps s (l.foldl f s) := by
  induction l generalizing s with
  | nil => exact Keeps.rfl' s
  | cons x l ih => exact (hf s x).trans (ih _)
theorem Sends.keeps {s t : State} (h : Sends s t) : Keeps s t := ⟨h.fns, h.power, h.cfg, h.boot, h.pins, h.tele⟩

theorem State.setReq_keeps (r f) (s : State) : Keeps s (s.setReq r f) := ⟨rfl, rfl, rfl, rfl, rfl, rfl⟩
theorem State.releaseBuffer_keeps (h) (s : State) : Keeps s (s.releaseBuffer h) := by
  unfold State.releaseBuffer
  split <;> exact ⟨rfl, rfl, rfl, rfl, rfl, rfl⟩
theorem State.release_keeps (a n) (s : State) : Keeps s (s.release a n) := by
  unfold State.release
  split <;> exact ⟨rfl, rfl, rfl, rfl, rfl, rfl⟩
theorem State.releaseAll_keeps (l) (s : State) : Keeps s (s.releaseAll l) := Keeps.foldl _ (fun s _ => State.release_keeps _ _ s) l s
theorem State.reapStores_keeps (s : State) : Keeps s s.reapStores := by
  unfold State.reapStores; dsimp only
  split
  · exact Keeps.rfl' s
  · exact (State.releaseAll_keeps _ _).after ⟨rfl, rfl, rfl, rfl, rfl, rfl⟩
theorem State.reap_keeps (s : State) : Keeps s s.reap := by
  unfold State.reap; dsimp only
  split
  · exact State.reapStores_keeps s
  · exact (State.reapStores_keeps s).trans ((State.releaseAll_keeps _ _).after ⟨rfl, rfl, rfl, rfl, rfl, rfl⟩)
theorem State.endRings_keeps (k) (s : State) : Keeps s (s.endRings k) := by
  unfold State.endRings
  refine Keeps.foldl _ (fun s t => ?_) _ s
  exact ⟨rfl, rfl, rfl, rfl, rfl, rfl⟩
theorem State.dropStuck_keeps (r o) (s : State) : Keeps s (s.dropStuck r o) := by
  unfold State.dropStuck; dsimp only
  split
  · exact Keeps.rfl' s
  · exact ⟨rfl, rfl, rfl, rfl, rfl, rfl⟩
/-- Freeing an entry whose work is gone. -/
theorem State.freeIfIdle_keeps (r) (s : State) : Keeps s (s.freeIfIdle r) := by
  unfold State.freeIfIdle
  split
  · exact Keeps.rfl' s
  · rename_i q _
    have h0 : Keeps s (if inRange 8 10 q.state then s.dropStuck r q.order else s) := Keeps.ite (State.dropStuck_keeps _ _ s) (Keeps.rfl' s)
    dsimp only
    generalize (if inRange 8 10 q.state then s.dropStuck r q.order else s) = v at h0 ⊢
    split
    · refine Keeps.trans ?_ (State.reap_keeps _)
      refine Keeps.trans (b := State.releaseAll _ _) ?_ ⟨rfl, rfl, rfl, rfl, rfl, rfl⟩
      refine Keeps.trans ?_ (State.releaseAll_keeps _ _)
      refine Keeps.trans (b := List.foldl _ _ _) ?_ ⟨rfl, rfl, rfl, rfl, rfl, rfl⟩
      exact h0.trans (Keeps.foldl _ (fun s _ => State.endRings_keeps _ s) _ _)
    · exact h0
theorem State.sendResult_keeps (r f p) (s : State) : Keeps s (s.sendResult r f p) := by
  unfold State.sendResult
  split
  · exact Keeps.rfl' s
  · dsimp only
    split
    · exact (State.sendMessage_sends _ _ _ _ _ _).keeps.trans (State.setReq_keeps _ _ _)
    · exact (State.sendMessage_sends _ _ _ _ _ _).keeps
theorem State.releaseBuffers_keeps (l) (s : State) : Keeps s (s.releaseBuffers l) := Keeps.foldl _ (fun s h => State.releaseBuffer_keeps h s) l s
theorem State.settleClosing_keeps (t) (s : State) : Keeps s (s.settleClosing t) := by
  unfold State.settleClosing; dsimp only
  split
  · exact Keeps.rfl' s
  · exact ⟨rfl, rfl, rfl, rfl, rfl, rfl⟩
theorem State.dropHandles_keeps (r o) (s : State) : Keeps s (s.dropHandles r o) := by
  unfold State.dropHandles; dsimp only
  refine Keeps.trans ?_ (State.releaseBuffers_keeps _ _)
  refine Keeps.trans ?_ (Keeps.foldl _ (fun s _ => Keeps.ite (Keeps.rfl' s) (State.settleClosing_keeps _ s)) _ _)
  exact ⟨rfl, rfl, rfl, rfl, rfl, rfl⟩
theorem State.enterQueue_keeps (p is) (s : State) : Keeps s (s.enterQueue p is) := by
  unfold State.enterQueue; dsimp only
  split <;> exact ⟨rfl, rfl, rfl, rfl, rfl, rfl⟩
theorem State.drainOverflow_keeps (p) (s : State) : Keeps s (s.drainOverflow p) := by
  unfold State.drainOverflow; dsimp only
  split
  · exact Keeps.rfl' s
  · exact (State.enterQueue_keeps _ _ _).after ⟨rfl, rfl, rfl, rfl, rfl, rfl⟩
theorem State.dropItems_keeps (r o) (s : State) : Keeps s (s.dropItems r o) := by
  unfold State.dropItems; dsimp only
  refine Keeps.trans ?_ (Keeps.foldl (fun (s : State) (p : Nat × PoolRun) => s.drainOverflow p.1) (fun s p => State.drainOverflow_keeps p.1 s) _ _)
  exact ⟨rfl, rfl, rfl, rfl, rfl, rfl⟩
theorem State.dropStaged_keeps (q n) (s : State) : Keeps s (s.dropStaged q n) := ⟨rfl, rfl, rfl, rfl, rfl, rfl⟩

/-- The end of a request touches nothing of the whole device. -/
theorem State.endWith_keeps (r st p) (s : State) : Keeps s (s.endWith r st p) := by
  unfold State.endWith
  split
  · exact Keeps.rfl' s
  · split
    · exact Keeps.rfl' s
    · dsimp only
      refine Keeps.trans ?_ (State.freeIfIdle_keeps _ _)
      have h : ∀ (f) (p) (o) (u : State), Keeps u ((((u.setReq r f).sendResult r true p).dropItems r o).dropHandles r o) := fun f p o u =>
        ((State.dropHandles_keeps _ _ _).after (State.dropItems_keeps _ _ _)).after ((State.sendResult_keeps r true p _).after (State.setReq_keeps r f u))
      refine Keeps.ite ?_ ?_
      · exact (State.setReq_keeps _ _ _).after ((State.dropStaged_keeps _ _ _).after (h _ _ _ s))
      · exact (State.dropStaged_keeps _ _ _).after (h _ _ _ s)
theorem State.endRequests_keeps (f st) (s : State) : Keeps s (s.endRequests f st) := Keeps.foldl _ (fun s _ => State.endWith_keeps _ _ _ s) _ s
theorem State.freeEnded_keeps (s : State) : Keeps s s.freeEnded := Keeps.foldl _ (fun s _ => State.freeIfIdle_keeps _ s) _ s
theorem State.portWrite_keeps (a bs) (s : State) : Keeps s (s.portWrite a bs) := by
  unfold State.portWrite; dsimp only; split <;> exact ⟨rfl, rfl, rfl, rfl, rfl, rfl⟩
theorem State.loseTiles_keeps (f) (s : State) : Keeps s (s.loseTiles f) := by
  unfold State.loseTiles; dsimp only
  refine Keeps.trans (b := List.foldl _ _ _) (Keeps.foldl _ (fun s t => ?_) _ s) ⟨rfl, rfl, rfl, rfl, rfl, rfl⟩
  exact Keeps.trans (b := List.foldl _ _ _)
    (Keeps.foldl (fun (s : State) (l : CacheLine) => s.portWrite l.addr l.data) (fun s l => State.portWrite_keeps l.addr l.data s) _ s)
    ⟨rfl, rfl, rfl, rfl, rfl, rfl⟩
theorem State.clearWork_keeps (m) (s : State) : Keeps s (s.clearWork m) := by
  unfold State.clearWork; dsimp only
  have h1 : Keeps s (if bitAt m 2 then { s.loseTiles (fun _ => true) with
        pools := (s.loseTiles fun _ => true).pools.map fun p => (p.1, { deficits := p.2.deficits, cursor := p.2.cursor, weights := p.2.weights, newWeights := p.2.newWeights, boundary := true })
        steps := [], completions := [], handoffs := [], sluiceFlights := [], ringCredits := [], sluiceCredits := [], leats := [], remoteReads := []
        exchanges := (s.loseTiles fun _ => true).exchanges.filter (·.kind == 2), collectives := [], wheels := [], hotStale := true } else s) := by
    split
    · have g := State.loseTiles_keeps (fun _ => true) s
      exact ⟨g.1, g.2, g.3, g.4, g.5, g.6⟩
    · exact Keeps.rfl' s
  have h2 : ∀ u : State, Keeps u (if bitAt m 3 then
      { u with wheels := [], collectives := u.collectives.filter (·.kind != 0), leats := u.leats.filter (·.use == .plain) } else u) := by
    intro u; split
    · exact ⟨rfl, rfl, rfl, rfl, rfl, rfl⟩
    · exact Keeps.rfl' u
  have h3 : ∀ u : State, Keeps u (if bitAt m 5 then u.dropTries else u) := by
    intro u; split
    · exact ⟨rfl, rfl, rfl, rfl, rfl, rfl⟩
    · exact Keeps.rfl' u
  have h := (h1.trans (h2 _)).trans (h3 _)
  exact Keeps.ite (h.trans (State.freeEnded_keeps _)) h

/-- Stopping functions with abort: of the whole device's state only the running mask changes. -/
theorem State.abortFunctions_keeps (m st) (s : State) : Keeps
    { s with fns := { s.fns with running := maskWithout s.fns.running (stopClosure m &&& (s.fns.running ||| s.drainMask)) } } (s.abortFunctions m st) := by
  unfold State.abortFunctions; dsimp only
  exact (State.endRequests_keeps _ _ _).trans (State.clearWork_keeps _ _)

/-- An entry of the error log changes the log, one counter and the telemetry's error counts. -/
theorem State.logEvent_leaves (e) (s : State) : (s.logEvent e).fns = s.fns ∧ (s.logEvent e).power = s.power ∧ (s.logEvent e).pins = s.pins
    ∧ (s.logEvent e).boot = s.boot ∧ (s.logEvent e).tele.trips = s.tele.trips ∧ (s.logEvent e).errors.badLines = s.errors.badLines
    ∧ (s.logEvent e).errors.tileWords = s.errors.tileWords ∧ (s.logEvent e).mem = s.mem := by
  unfold State.logEvent; dsimp only; split
  · exact ⟨rfl, rfl, rfl, rfl, rfl, rfl, rfl, rfl⟩
  · split <;> first | exact ⟨rfl, rfl, rfl, rfl, rfl, rfl, rfl, rfl⟩ | (split <;> exact ⟨rfl, rfl, rfl, rfl, rfl, rfl, rfl, rfl⟩)

/-- The control message in progress is dropped: the functions of `keep` that it drained run on, and no other starts or stops. -/
theorem State.dropCurrent_leaves (k : Nat) (s : State) : (s.dropCurrent k).fns.running = s.fns.running ||| (s.drainMask &&& k)
    ∧ (s.dropCurrent k).pins = s.pins ∧ (s.dropCurrent k).boot = s.boot ∧ (s.dropCurrent k).power.arraysClocked = s.power.arraysClocked
    ∧ (s.dropCurrent k).power.state = s.power.state ∧ (s.dropCurrent k).tele = s.tele := by
  unfold State.dropCurrent
  split
  · rename_i hc
    refine ⟨?_, rfl, rfl, rfl, rfl, rfl⟩
    simp [State.drainMask, hc]
  · dsimp only
    have h := State.reply_sends
    refine ⟨?_, ?_, ?_, ?_, ?_, ?_⟩
    · rw [(h _ _ _ _ _).fns]
    · rw [(h _ _ _ _ _).pins]
    · rw [(h _ _ _ _ _).boot]
    · rw [(h _ _ _ _ _).power]
    · rw [(h _ _ _ _ _).power]
    · rw [(h _ _ _ _ _).tele]

end Sys2Proof.Machine
end

