-- ==== Sys2Proof/Laws/Items.lean ====
section
/-! SUPPORT. The shared paths of work items: running an opcode, and what the end of a work item leaves. -/

namespace Sys2Proof.Machine

/-- A ready work item's opcode acts on the bytes of its slots. -/
theorem State.runOp_ready {s t code x bs u} (h : State.Runs s t code false x bs u) (f) : s.runOp t code f = f x (readBytes bs) u := by
  have h2 := h.reads
  simp only [slotsRead, Bool.false_eq_true, if_false] at h2
  simp only [State.runOp, h.running, h2]

/-- A ready text work item's opcode acts on the bytes of slot 0. -/
theorem State.runSlots_ready {s t code x bs u} (h : State.Runs s t code true x bs u) (f) : s.runSlots t code [0] f = f x (readBytes bs) u := by
  have h2 := h.reads
  simp only [slotsRead, if_true] at h2
  simp only [State.runSlots, h.running, h2]

theorem lookupD_insertKey {α : Type} (k : Nat) (v d : α) (l : List (Nat × α)) : lookupD k (insertKey k v l) d = v := by
  induction l with
  | nil => simp [insertKey, lookupD]
  | cons p r ih =>
    unfold insertKey
    by_cases h : p.1 = k
    · simp [h, lookupD]
    · have e : (p.1 == k) = false := by simpa using h
      simp only [e, Bool.false_eq_true, if_false]
      unfold lookupD at *
      simp only [List.find?_cons, e]
      exact ih

theorem lookupD_insertKey_ne {α : Type} (k j : Nat) (v d : α) (l : List (Nat × α)) (h : j ≠ k) : lookupD j (insertKey k v l) d = lookupD j l d := by
  induction l with
  | nil =>
    have e : (k == j) = false := by simpa using Ne.symm h
    simp [insertKey, lookupD, e]
  | cons p r ih =>
    unfold insertKey
    by_cases hp : p.1 = k
    · have e : (k == j) = false := by simpa using Ne.symm h
      simp [hp, lookupD, e]
    · have e : (p.1 == k) = false := by simpa using hp
      simp only [e, Bool.false_eq_true, if_false]
      unfold lookupD at *
      simp only [List.find?_cons]
      cases p.1 == j
      · exact ih
      · rfl

@[simp] theorem State.tile_setTile (s : State) (t : Nat) (f : Tile → Tile) : (s.setTile t f).tile t = f (s.tile t) :=
  lookupD_insertKey t _ _ s.tiles
theorem State.tile_setTile_ne (s : State) (t u : Nat) (f : Tile → Tile) (h : u ≠ t) : (s.setTile t f).tile u = s.tile u :=
  lookupD_insertKey_ne t u _ _ s.tiles h
@[simp] theorem State.pool_setPool (s : State) (p : Nat) (f : PoolRun → PoolRun) : (s.setPool p f).pool p = f (s.pool p) :=
  lookupD_insertKey p _ _ s.pools
theorem State.pool_setPool_ne (s : State) (p q : Nat) (f : PoolRun → PoolRun) (h : q ≠ p) : (s.setPool p f).pool q = s.pool q :=
  lookupD_insertKey_ne p q _ _ s.pools h

theorem State.req_setReq (s : State) (r : Nat) (f : Request → Request) : (s.setReq r f).req? r = (s.req? r).map f := by
  unfold State.req? State.setReq
  show (List.find? _ (List.map _ s.reqs)).map _ = _
  induction s.reqs with
  | nil => rfl
  | cons p l ih =>
    by_cases h : p.1 = r
    · simp [h]
    · have e : (p.1 == r) = false := by simpa using h
      simp only [List.map_cons, e, Bool.false_eq_true, if_false, List.find?_cons]
      exact ih

-- The end of a work item

/-- What logging, handing handles on and writing the tile's cache back leave alone. -/
structure Ends (s t : State) : Prop where
  completions : t.completions = s.completions
  cfg : t.cfg = s.cfg
  reqs : t.reqs = s.reqs

theorem Ends.rfl' (s : State) : Ends s s := ⟨rfl, rfl, rfl⟩
theorem Ends.trans {a b c : State} (h : Ends a b) (g : Ends b c) : Ends a c := ⟨g.1.trans h.1, g.2.trans h.2, g.3.trans h.3⟩

theorem Ends.foldl {α : Type} (f : State → α → State) (hf : ∀ s x, Ends s (f s x)) (l : List α) (s : State) : Ends s (l.foldl f s) := by
  induction l generalizing s with
  | nil => exact Ends.rfl' s
  | cons x r ih => exact (hf s x).trans (ih _)

theorem State.logEvent_ends (e) (s : State) : Ends s (s.logEvent e) := by
  unfold State.logEvent
  dsimp only
  split
  · exact ⟨rfl, rfl, rfl⟩
  · split
    · exact ⟨rfl, rfl, rfl⟩
    · split <;> exact ⟨rfl, rfl, rfl⟩

theorem State.containedEvent_ends (e m) (s : State) : Ends s (s.containedEvent e m) := by
  unfold State.containedEvent
  dsimp only
  split
  · exact (State.logEvent_ends _ s).trans ⟨rfl, rfl, rfl⟩
  · exact State.logEvent_ends _ s

theorem State.portWrite_ends (a bs) (s : State) : Ends s (s.portWrite a bs) := by
  unfold State.portWrite; dsimp only; split <;> exact ⟨rfl, rfl, rfl⟩

theorem State.flushCache_ends (t) (s : State) : Ends s (s.flushCache t) := by
  unfold State.flushCache
  dsimp only
  split
  · exact Ends.foldl (fun (s : State) (l : CacheLine) => s.portWrite l.addr l.data) (fun s l => State.portWrite_ends l.addr l.data s) _ s
  · exact (Ends.foldl (fun (s : State) (l : CacheLine) => s.portWrite l.addr l.data) (fun s l => State.portWrite_ends l.addr l.data s) _ s).trans ⟨rfl, rfl, rfl⟩

theorem State.releaseBuffer_ends (h) (s : State) : Ends s (s.releaseBuffer h) := by
  unfold State.releaseBuffer
  split <;> exact ⟨rfl, rfl, rfl⟩

theorem State.sendHandle_ends (a b q e r) (s : State) : Ends s (s.sendHandle a b q e r) := by
  unfold State.sendHandle
  dsimp only
  split <;> exact ⟨rfl, rfl, rfl⟩

theorem State.releaseBuffers_ends (hs) (s : State) : Ends s (s.releaseBuffers hs) := Ends.foldl _ (fun s h => State.releaseBuffer_ends h s) _ s

theorem State.postHandles_ends (t x n hs) (s : State) : Ends s (s.postHandles t x n hs) := by
  unfold State.postHandles
  dsimp only
  split
  · exact Ends.rfl' s
  · split
    · exact State.releaseBuffers_ends _ s
    · split
      · exact ⟨rfl, rfl, rfl⟩
      · exact Ends.foldl _ (fun s h => State.sendHandle_ends _ _ _ _ _ s) _ s

theorem State.sendHandles_ends (t x hs p) (s : State) : Ends s (s.sendHandles t x hs p) := State.postHandles_ends _ _ _ _ s

theorem State.chargeWaits_ends (t x) (s : State) : Ends s (s.chargeWaits t x) :=
  Ends.foldl State.chargeFree (fun _ _ => ⟨rfl, rfl, rfl⟩) (State.waitCounters t x) s

theorem State.noteFault_ends (t r f) (s : State) : Ends s (s.noteFault t r f) := by
  unfold State.noteFault
  dsimp only
  have h1 : Ends s (if f = 0 then s else s.count (State.tileCtr t (0x38 + 8 * f)) 1) := by split <;> exact ⟨rfl, rfl, rfl⟩
  split
  · exact h1.trans (State.containedEvent_ends _ _ _)
  · exact h1

/-- The end of a work item: its record joins the completions, or is kept beside the tile with it until its handles have credits. -/
theorem State.closeItem_record (t : Nat) (c : Closing) (s : State) :
    (s.closeItem t c).cfg = s.cfg ∧ (s.closeItem t c).reqs = s.reqs
    ∧ ((s.closeItem t c).completions = s.completions ++ [State.completionFor t c.x c.fault c.flags c.aux c.rejected]
      ∨ ((s.closeItem t c).completions = s.completions
        ∧ { c with done := some (State.completionFor t c.x c.fault c.flags c.aux c.rejected) } ∈ ((s.closeItem t c).tile t).closing)) := by
  have h3 : ∀ u : State, Ends u (if wFlush c.x.item.wi then u.flushCache t else u) := by
    intro u; split
    · exact State.flushCache_ends t u
    · exact Ends.rfl' u
  have h := fun hs p => (((State.chargeWaits_ends t c.x s).trans (State.noteFault_ends t c.x.item.req c.fault _)).trans (h3 _)).trans
    (State.sendHandles_ends t c.x hs p _)
  have k : ∀ v : State, Ends s v → ∀ (done : Completion) (f g : Tile → Tile), (∀ y, { c with done := some done } ∈ (f y).closing) →
      ∀ u, (u = if v.waitsForCredit t c.x.run then (v.chargeFree (State.tileCtr t 0x20)).setTile t f
        else { v.setTile t g with completions := v.completions ++ [done] }) →
      u.cfg = s.cfg ∧ u.reqs = s.reqs ∧ (u.completions = s.completions ++ [done]
        ∨ (u.completions = s.completions ∧ { c with done := some done } ∈ (u.tile t).closing)) := by
    intro v hv done f g hf u hu
    split at hu
    · subst hu
      refine ⟨hv.cfg, hv.reqs, .inr ⟨hv.completions, ?_⟩⟩
      rw [State.tile_setTile]
      exact hf _
    · subst hu
      exact ⟨hv.cfg, hv.reqs, .inl (congrArg (· ++ [done]) hv.completions)⟩
  exact k _ (h _ _) _ _ _ (fun y => List.mem_append_right _ (List.mem_singleton.2 rfl)) _ rfl

/-- A work item with no ring left to fill ends at once. -/
theorem State.endItem_closes (t : Nat) (x : Running) (fault flags aux : Nat) (rejected : Bool) (spans : List (Nat × Nat)) (s : State) :
    s.endItem t x fault flags aux rejected spans [] = s.closeItem t { x, fault, flags, aux, rejected, spans } := rfl

end Sys2Proof.Machine
end

