-- ==== Sys2Proof/WellFormed.lean ====
section
/-! DEFINITION. Which commands are well formed: their operands lie in the ranges that the manual gives what they name. -/

namespace Sys2Proof

/-- A sub-port number (R322: at most four). -/
def subOk (sub : Nat) : Bool := decide (sub < 4)
/-- A logical tile of the larger part (R7). -/
def tileOk (t : Nat) : Bool := decide (t < 2048)
/-- A pool (R16). -/
def poolOk (p : Nat) : Bool := decide (p < 8)
/-- A request table entry (R265). -/
def reqOk (r : Nat) : Bool := decide (r < 4096)
/-- A peer table entry (R334). -/
def entryOk (i : Nat) : Bool := decide (i < 256)
/-- An endpoint: an IPv6 or IPv4 address and a UDP port (R387). -/
def Endpoint.ok (e : Endpoint) : Bool := (e.addr.length == 16 || e.addr.length == 4) && decide (e.port < 65536)
/-- A message of a session: 32-bit ids and at least one datagram (R348, R355). -/
def Msg.ok (m : Msg) : Bool := decide (m.msgId < 2 ^ 32) && !m.frags.isEmpty
/-- A 48-bit Ethernet address (R324). -/
def macOk (m : Nat) : Bool := decide (m < 2 ^ 48)

/-- The operands of a command lie in their ranges. -/
def Instr.wellFormed : Instr → Bool
  | .resetNAssert => true
  | .resetNRelease r => decide (r.mgmtAddr < 128) && (r.failedTile.all fun t => tileOk t)
  | .supplyRemoval => true
  | .linkUp sub => subOk sub
  | .portLinkDown sub => subOk sub
  | .ethFrameRx f => subOk f.sub
  | .pfcFrameRx sub enable quanta => subOk sub && decide (enable < 65536) && decide (quanta < 65536)
  | .lldpFrameRx sub _ _ => subOk sub
  | .neighborResolutionRx n => subOk n.sub && macOk n.senderMac
  | .echoRequestRx sub src _ _ => subOk sub && src.ok
  | .lldpTimer sub => subOk sub
  | .helloTimer sub => subOk sub
  | .mwpDatagramRx d => subOk d.sub && d.src.ok && macOk d.mac
  | .retransmitTimeout _ seq => decide (seq < 2 ^ 32)
  | .windowUpdate _ => true
  | .ack m => m.ok
  | .sessionInit sub src _ => subOk sub && src.ok
  | .sessionAccept sub src _ => subOk sub && src.ok
  | .sessionConfirm sub src _ => subOk sub && src.ok
  | .sessionClose src _ _ => src.ok
  | .handshakeResend _ => true
  | .handshakeTimeout _ => true
  | .closeAckTimeout _ => true
  | .submit m => m.ok
  | .cancel m => m.ok
  | .tableWrite m => m.ok
  | .tableSwitch m => m.ok
  | .tableRelease m => m.ok
  | .hotSet m => m.ok
  | .hotSetInstall table => decide (table < 512)
  | .corpusAppend m => m.ok
  | .corpusSwitchMerge m => m.ok
  | .corpusSwitchChunk m => m.ok
  | .corpusSwitchInstall m => m.ok
  | .loadModel m => m.ok
  | .loadPlan m => m.ok
  | .loadAdapter m => m.ok
  | .loadGrammar m => m.ok
  | .loadRemove _ m => m.ok
  | .loadAbandonTimeout _ id => decide (id < 1024)
  | .handleRetain m => m.ok
  | .handleRelease m => m.ok
  | .inspectRead m => m.ok
  | .inspectWrite m => m.ok
  | .scrubHoursWrite m => m.ok
  | .counterClear m => m.ok
  | .power m => m.ok
  | .powerTransitionDone failed => failed.all fun t => tileOk t
  | .plevelVoltageReached => true
  | .poolGateDrainTimeout p => poolOk p
  | .poolUngateReady p failed => poolOk p && (failed.all fun t => tileOk t)
  | .stopDrain m => m.ok
  | .stopAbort m => m.ok
  | .stopDrainTimeout => true
  | .configSection m => m.ok
  | .configLive m => m.ok
  | .restart m => m.ok
  | .imageWrite m => m.ok
  | .peerHello sub src mac _ => subOk sub && src.ok && macOk mac
  | .peerBye m => m.ok
  | .heartbeat m => m.ok
  | .heartbeatSendTimer entry sub => entryOk entry && subOk sub
  | .peerLivenessExpiry p => match p with
    | .entry i => entryOk i
    | .session _ => true
  | .joiningTimeout entry => entryOk entry
  | .hostEntryExpiry entry => entryOk entry
  | .announceDeviceFailed m => m.ok
  | .announceTwinLost m => m.ok
  | .announceTwinState m => m.ok
  | .rowRequest m => m.ok
  | .rowReply m => m.ok
  | .passageRequest m => m.ok
  | .passageReply m => m.ok
  | .mergeStart m => m.ok
  | .mergeList m => m.ok
  | .selBins m => m.ok
  | .selDecision m => m.ok
  | .selGather m => m.ok
  | .tokenRequest m => m.ok
  | .tokenGrant m => m.ok
  | .mirror m => m.ok
  | .applied m => m.ok
  | .syncChunk m => m.ok
  | .syncDone m => m.ok
  | .twinPartnerLost => true
  | .bgTwinSync => true
  | .deadlineExpiry r => reqOk r
  | .workCompletionRecord _ => true
  | .kvWritebackDone r => reqOk r
  | .hopperHandoff _ => true
  | .tileRefillRequest t => tileOk t
  | .stealTake a b => tileOk a && tileOk b
  | .idleTileTimeout t => tileOk t
  | .hopperWake t => tileOk t
  | .workItemStart t => tileOk t
  | .nop t => tileOk t
  | .barrier t => tileOk t
  | .barrierCombine p slot => poolOk p && decide (slot < 64)
  | .barrierReleaseArrival t => tileOk t
  | .signal t => tileOk t
  | .yieldItem t => tileOk t
  | .gemm t => tileOk t
  | .conv t => tileOk t
  | .dist t => tileOk t
  | .ewUnary t => tileOk t
  | .ewBinary t => tileOk t
  | .ewFma t => tileOk t
  | .reduce t => tileOk t
  | .norm t => tileOk t
  | .softmax t => tileOk t
  | .pool2d t => tileOk t
  | .dwconv t => tileOk t
  | .convert t => tileOk t
  | .topk t => tileOk t
  | .selectRoundCombine p slot => poolOk p && decide (slot < 16)
  | .selectDecisionArrival t => tileOk t
  | .kth t => tileOk t
  | .argmax t => tileOk t
  | .sort t => tileOk t
  | .hist t => tileOk t
  | .merge t => tileOk t
  | .sample t => tileOk t
  | .copy t => tileOk t
  | .gather t => tileOk t
  | .scatter t => tileOk t
  | .transpose t => tileOk t
  | .decompress t => tileOk t
  | .leatSend t => tileOk t
  | .coalesce t => tileOk t
  | .poolSum t => tileOk t
  | .poolMean t => tileOk t
  | .poolWsum t => tileOk t
  | .normalise t => tileOk t
  | .trieWalk t => tileOk t
  | .latticeStep t => tileOk t
  | .detok t => tileOk t
  | .stopMatch t => tileOk t
  | .maskApply t => tileOk t
  | .pack t => tileOk t
  | .sluiceHandleArrival _ => true
  | .ringFillLanded t ring => tileOk t && decide (ring < 16)
  | .ringSlotRelease t ring => tileOk t && decide (ring < 16)
  | .ringCreditArrival _ => true
  | .leatPayloadLand _ t => tileOk t
  | .remoteRead _ => true
  | .meshFlitCrcFail t dir _ => tileOk t && decide (dir < 4)
  | .hbmEccRetry line _ _ => decide (line < 0x14000000000 / 64)
  | .riderPrepare p slot => poolOk p && decide (slot < 512)
  | .wheelSliceDone t => tileOk t
  | .wheelBoundaryCombine p => poolOk p
  | .wheelWake p => poolOk p
  | .wheelReleaseArrival t => tileOk t
  | .evictionArrival t => tileOk t
  | .riderFinalMerge p slot => poolOk p && decide (slot < 512)
  | .riderDrop p slot => poolOk p && decide (slot < 512)
  | .wheelWatchdog p => poolOk p
  | .bgCorpusMerge c => decide (c < 16)
  | .bgSlabCopy table _ _ => decide (table < 512)
  | .bgHbmScrub line _ => decide (line < 0x14000000000 / 64)
  | .bgTmScrub t word _ => tileOk t && decide (word < 393216 / 8)
  | .bgZeroise => true
  | .bgTelemetry x => x.temps.length == 64 && x.vout.length == 8 && x.iout.length == 8
  | .bgSensorCal sensor => decide (sensor < 64)
  | .bgDeferralExpiry task _ => decide (task < 9)
  | .thermalCheck temps => temps.length == 64
  | .powerCheck x _ => x.temps.length == 64 && x.vout.length == 8 && x.iout.length == 8
  | .pmbusPoll vout iout => vout.length == 8 && iout.length == 8
  | .pmbusNoAnswer k => decide (k < 8)
  | .pmbAlert => true
  | .thermalComparator sensor => decide (sensor < 64)
  | .pllLockLoss p => match p with
    | .hbm stack => decide (stack < 32)
    | _ => true
  | .fwWatchdog => true
  | .entropyFail => true
  | .functionRecoveryDone f => decide (f < 8)
  | .dbgAuth _ => true
  | .tapReset => true
  | .tapIdcode => true
  | .tapBypass => true
  | .tapSamplePreload _ _ => true
  | .tapExtest => true
  | .smbusBlockRead addr cmd => decide (addr < 128) && decide (cmd < 256)
  | .i3cPrivateRead addr => decide (addr < 128)
  | .mgmtWriteNack addr => decide (addr < 128)
  | .hbmStackTrainingLoss stack => decide (stack < 32)
  | .pfcPauseExpiry sub => subOk sub
  | .sluiceCreditArrival _ => true
  | .prefixPageCopyDone r => reqOk r

end Sys2Proof
end

