-- ==== Sys2Proof/Tests/Slice0.lean ====
section
/-! SUPPORT. Tests: ill-formed commands are refused; every statement with hypotheses has a state and operands that meet them; a few
values from the manual's own tables and rules. -/

namespace Sys2Proof.Tests
open Sys2Proof Sys2Proof.Machine

set_option Elab.async false

/-! ### Ill-formed operands, one for each check -/

def host : Endpoint := { addr := List.replicate 16 1, port := 7742 }
def device : Endpoint := { addr := List.replicate 16 2, port := 7742 }
def badHost : Endpoint := { addr := List.replicate 5 1, port := 7742 }
def emptyMsg : Msg := { session := 1, msgId := 1, frags := [] }
def msg (sid : Nat) (p : Bytes) : Msg := { session := sid, msgId := 1, frags := [p] }
def report : StartReport :=
  { mgmtAddr := 0, strapTest := false, flashA := none, flashB := none, fusesOk := true, romOk := true, entropyOk := true
    hbmTrained := true, failedTile := none }
def sample : Sample := { temps := List.replicate 64 0, vout := List.replicate 8 0, iout := List.replicate 8 0 }
def frame (sub : Nat) (bs : Bytes) : Frame := { sub, bytes := bs, fcsOk := true, fecCorrected := 0, fecUncorrectable := 0 }

/-- R322: at most four sub-ports; R387: addresses; R324: 48-bit MACs. -/
theorem test_port_operands_checked :
    ∀ i ∈ [Instr.linkUp 4, .portLinkDown 4, .ethFrameRx (frame 4 []), .pfcFrameRx 0 65536 0, .pfcFrameRx 0 0 65536, .pfcFrameRx 4 0 0,
      .lldpFrameRx 4 [] [], .neighborResolutionRx ⟨4, true, true, [], [], 0⟩, .neighborResolutionRx ⟨0, true, true, [], [], 2 ^ 48⟩,
      .echoRequestRx 4 host true [], .echoRequestRx 0 badHost true [], .lldpTimer 4, .helloTimer 4,
      .echoRequestRx 0 { host with port := 65536 } true [], .pfcPauseExpiry 4,
      .mwpDatagramRx ⟨4, host, 0, false, []⟩, .mwpDatagramRx ⟨0, badHost, 0, false, []⟩, .mwpDatagramRx ⟨0, host, 2 ^ 48, false, []⟩,
      .retransmitTimeout 1 (2 ^ 32), .sessionInit 4 host [], .sessionInit 0 badHost [], .sessionAccept 4 host [], .sessionAccept 0 badHost [],
      .sessionConfirm 4 host [], .sessionConfirm 0 badHost [], .sessionClose badHost 1 [], .peerHello 4 host 0 [],
      .peerHello 0 badHost 0 [], .peerHello 0 host (2 ^ 48) []], i.wellFormed = false := by decide

/-- R348, R355: a message has at least one datagram and a 32-bit id. -/
theorem test_messages_checked :
    let big : Msg := { session := 1, msgId := 2 ^ 32, frags := [[]] }
    ∀ m ∈ [emptyMsg, big], ∀ i ∈ [Instr.ack m, .submit m, .cancel m, .tableWrite m, .tableSwitch m, .tableRelease m, .hotSet m, .corpusAppend m,
      .corpusSwitchMerge m, .corpusSwitchChunk m, .corpusSwitchInstall m, .loadModel m, .loadPlan m, .loadAdapter m, .loadGrammar m,
      .loadRemove .model m, .handleRetain m, .handleRelease m, .inspectRead m, .inspectWrite m, .scrubHoursWrite m, .counterClear m, .power m,
      .stopDrain m, .stopAbort m, .configSection m, .configLive m, .restart m, .imageWrite m, .peerBye m, .heartbeat m, .announceDeviceFailed m,
      .announceTwinLost m, .announceTwinState m, .rowRequest m, .rowReply m, .passageRequest m, .passageReply m, .mergeStart m, .mergeList m,
      .selBins m, .selDecision m, .selGather m, .tokenRequest m, .tokenGrant m, .mirror m, .applied m, .syncChunk m, .syncDone m],
      i.wellFormed = false := by decide

/-- R7, R16, R126, R265, R334: tiles, pools, slots, requests and peer table entries. -/
theorem test_units_checked :
    ∀ i ∈ [Instr.tileRefillRequest 2048, .stealTake 2048 0, .stealTake 0 2048, .idleTileTimeout 2048, .hopperWake 2048, .workItemStart 2048,
      .nop 2048, .barrier 2048, .barrierCombine 8 0, .barrierCombine 0 64, .barrierReleaseArrival 2048, .signal 2048, .yieldItem 2048, .gemm 2048,
      .conv 2048, .dist 2048, .ewUnary 2048, .ewBinary 2048, .ewFma 2048, .reduce 2048, .norm 2048, .softmax 2048, .pool2d 2048, .dwconv 2048,
      .convert 2048, .topk 2048, .selectRoundCombine 8 0, .selectRoundCombine 0 16, .selectDecisionArrival 2048, .kth 2048, .argmax 2048,
      .sort 2048, .hist 2048, .merge 2048, .sample 2048, .copy 2048, .gather 2048, .scatter 2048, .transpose 2048, .decompress 2048,
      .leatSend 2048, .coalesce 2048, .poolSum 2048, .poolMean 2048, .poolWsum 2048, .normalise 2048, .trieWalk 2048, .latticeStep 2048,
      .detok 2048, .stopMatch 2048, .maskApply 2048, .pack 2048, .ringFillLanded 2048 0, .ringFillLanded 0 16, .ringSlotRelease 2048 0,
      .ringSlotRelease 0 16, .leatPayloadLand 0 2048, .meshFlitCrcFail 2048 0 false, .meshFlitCrcFail 0 4 false,
      .hbmEccRetry (0x14000000000 / 64) .background .clean, .riderPrepare 8 0, .riderPrepare 0 512, .wheelSliceDone 2048, .wheelBoundaryCombine 8,
      .wheelWake 8, .wheelReleaseArrival 2048, .evictionArrival 2048, .riderFinalMerge 8 0, .riderFinalMerge 0 512, .riderDrop 8 0, .riderDrop 0 512,
      .wheelWatchdog 8, .deadlineExpiry 4096, .kvWritebackDone 4096, .prefixPageCopyDone 4096, .heartbeatSendTimer 256 0, .heartbeatSendTimer 0 4,
      .peerLivenessExpiry (.entry 256), .joiningTimeout 256, .hostEntryExpiry 256], i.wellFormed = false := by decide

/-- R194, R131, R363, R299, R477, R465, R434, R464: ids, sensors, regulators, stacks, bus addresses and start-up's report. -/
theorem test_device_operands_checked :
    ∀ i ∈ [Instr.hotSetInstall 512, .loadAbandonTimeout .model 1024, .powerTransitionDone (some 2048), .poolGateDrainTimeout 8,
      .poolUngateReady 8 none, .poolUngateReady 0 (some 2048), .bgCorpusMerge 16, .bgSlabCopy 512 0 0, .bgHbmScrub (0x14000000000 / 64) .clean,
      .bgTmScrub 2048 0 .clean, .bgTmScrub 0 (393216 / 8) .clean, .bgTelemetry { sample with temps := [] }, .bgTelemetry { sample with vout := [] },
      .bgTelemetry { sample with iout := [] }, .bgSensorCal 64, .bgDeferralExpiry 9 0, .thermalCheck [], .powerCheck { sample with temps := [] } 0,
      .powerCheck { sample with vout := [] } 0, .powerCheck { sample with iout := [] } 0, .pmbusPoll [] (List.replicate 8 0),
      .pmbusPoll (List.replicate 8 0) [], .pmbusNoAnswer 8, .thermalComparator 64, .pllLockLoss (.hbm 32), .functionRecoveryDone 8,
      .smbusBlockRead 128 0, .smbusBlockRead 0 256, .i3cPrivateRead 128, .mgmtWriteNack 128, .hbmStackTrainingLoss 32,
      .resetNRelease { report with mgmtAddr := 128 }, .resetNRelease { report with failedTile := some 2048 }], i.wellFormed = false := by decide

theorem test_boundary_operands_accepted :
    ∀ i ∈ [Instr.linkUp 3, .pfcFrameRx 3 65535 65535, .ack (msg 1 []), .gemm 2047, .barrierCombine 7 63, .selectRoundCombine 7 15,
      .riderDrop 7 511, .deadlineExpiry 4095, .heartbeatSendTimer 255 3, .bgTelemetry sample, .resetNRelease report, .hbmStackTrainingLoss 31],
      i.wellFormed = true := by decide

/-! ### Witnesses: states and operands that meet the hypotheses of the statements -/

/-- An open session of a host that may do everything, and one of a device; each has its first message complete. -/
def hostQ : Session :=
  { id := 1, wire := 1, peer := host, sub := 0, weInitiated := false, host := true, perms := 0x1F, dev := 0, role := 0, rxLow := 2 }
def devQ : Session :=
  { id := 2, wire := 2, peer := device, sub := 0, weInitiated := true, host := false, perms := 0, dev := 1, role := 2, rxLow := 2 }

/-- A device in service with every function running and one sub-port up. -/
def live : State := { State.reset with
  pins := { State.reset.pins with resetLow := false }
  boot := { State.reset.boot with service := 1, millpond := false }
  fns := { State.reset.fns with running := 255 }
  power := { State.reset.power with arraysClocked := true }
  subs := [(0, { up := true })]
  sessions := [hostQ, devQ] }

/-- A message of one datagram as it stands delivered. -/
def dl (sid type : Nat) (p : Bytes) : Delivered :=
  { session := sid, src := if sid == 2 then device else host, sub := 0, mac := 0, msgId := 1, type, ctx := 0, frags := [p], leat := false }
def deliver (sid type : Nat) (p : Bytes) (s : State) : State := { s with delivered := [dl sid type p] }

theorem test_witness_step_idle : live.pending = [] ∧ State.reset.pending = [] := by decide

theorem test_witness_quiet : State.reset.Quiet ∧ live.Quiet := by
  constructor <;> constructor <;> rfl

theorem test_witness_reset_fuses : ∃ f : Fuses, f.part = State.reset.fuses.part ∧ f.owners = [] ∧ f.minFwSvn = 0 ∧ f.minImageSvn = 0 :=
  ⟨{}, by decide⟩

theorem test_witness_start_up :
    State.reset.pins.resetLow = true
    ∧ ((({ report with strapTest := true } : StartReport).strapTest = true) ∧ ({ report with fusesOk := false } : StartReport).fusesOk = false
      ∧ ({ report with romOk := false } : StartReport).romOk = false)
    ∧ report.strapTest = false ∧ report.fusesOk = true ∧ report.romOk = true := by decide

theorem test_witness_link_and_timers :
    live.sub? 0 = some { up := true } ∧ live.portLive = true ∧ live.boot.service = 1 ∧ live.works fnPort = true
    ∧ ¬(({ live with boot := { live.boot with service := 2 } } : State).boot.service = 1) ∧ ({ up := true } : SubPort).up = true := by decide

/-- A frame with one MWP datagram of 100 bytes over IPv4, to the discovery group. -/
def mwpFrame : Bytes :=
  List.replicate 12 0 ++ [0x08, 0x00, 0x45, 0, 0, 128, 0, 0, 0, 0, 1, 17, 0, 0, 10, 0, 0, 1] ++ live.cfg.port.groupV4
  ++ [0x1E, 0x3E, 0x1E, 0x3E, 0, 108, 0, 0] ++ List.replicate 100 0 ++ List.replicate 4 0

/-- The device with bytes in the receive buffer of sub-port 0, and PFC off or on. -/
def withRx (n pfc : Nat) : State :=
  { live with subs := [(0, { up := true, rxBytes := n })], cfg := { live.cfg with port := { live.cfg.port with pfc } } }

theorem test_witness_frames :
    live.sub? 0 = some { up := true } ∧ live.portLive = true
    ∧ State.frameVerdict live.cfg.port (frame 0 mwpFrame) = .mwp 100
    ∧ State.frameVerdict live.cfg.port (frame 0 (List.replicate 9217 0)) = .drop 0x10
    ∧ State.frameVerdict live.cfg.port { frame 0 mwpFrame with fcsOk := false } = .ignore
    ∧ State.frameVerdict live.cfg.port (frame 0 (List.replicate 12 0 ++ [0x88, 0xCC, 0, 0])) = .pass
    ∧ ((withRx 4194205 0).sub? 0).map (fun p => decide (4194304 < p.rxBytes + 100)) = some true
    ∧ (((withRx 4194204 0).sub? 0).map (fun p => decide (p.rxBytes + 100 ≤ 4194304)) = some true ∧ (withRx 4194204 0).cfg.port.pfc ≠ 1)
    ∧ (((withRx 3145629 1).sub? 0).map (fun p => decide (p.xoffSent = false ∧ p.rxBytes + 100 ≤ 4194304 ∧ 3145728 < p.rxBytes + 100)) = some true
      ∧ (withRx 3145629 1).cfg.port.pfc = 1 ∧ bitAt 1 (withRx 3145629 1).cfg.port.pcp = true)
    ∧ (List.replicate 1024 0 : Bytes).length ≤ 1024 ∧ 1024 < (List.replicate 1025 0 : Bytes).length := by
  decide +kernel

theorem test_witness_pause :
    (∃ p, ({ live with subs := [(0, { up := true, pauseQuanta := 1 })] } : State).sub? 0 = some p ∧ 0 < p.pauseQuanta)
    ∧ (let s := withRx 0 1
       s.portLive = true ∧ s.cfg.port.pfc = 1 ∧ bitAt 1 s.cfg.port.pcp = true) := ⟨⟨_, rfl, by decide⟩, by decide⟩

/-- A packet to a group, to a neighbour that is resolved, and to one that is not. -/
theorem test_witness_next_hop :
    (let s : State := { live with subs := [(0, { up := true, neighbors := [(host.addr, 7)] })] }
     let o : Out := .echo 0 host false []
     isGroup (s.destOf o) = false ∧ s.cfg.port.nextHop 0 (s.destOf o) = host.addr
     ∧ (∃ p, s.sub? 0 = some p ∧ p.neighbors.find? (·.1 == host.addr) = some (host.addr, 7))
     ∧ ∃ p, live.sub? 0 = some p ∧ p.neighbors.find? (·.1 == host.addr) = none)
    ∧ isGroup (live.destOf (.hello 0 true [])) = true := by
  refine ⟨⟨?_, ?_, ⟨_, rfl, ?_⟩, ⟨_, rfl, ?_⟩⟩, ?_⟩ <;> decide +kernel

theorem test_witness_neighbors (n : Neighbor) (h : n = ⟨0, true, true, linkLocal 0, [1], 0⟩) :
    n.sub = 0 ∧ n.request = true ∧ live.ownsAddr 0 n.v6 n.target = true ∧ allZero n.sender = false ∧ allZero ([0] : Bytes) = true
    ∧ live.ownsAddr 0 false [9, 9, 9, 9] = false
    ∧ (⟨0, true, false, [1], [], 0⟩ : Neighbor).request = false ∧ allZero (⟨0, true, false, [1], [], 0⟩ : Neighbor).target = false := by
  subst h; refine ⟨rfl, rfl, by simp [State.ownsAddr, PortCfg.owns], ?_⟩; decide


/-- A sealed datagram: header fields above the magic, the version and a single fragment; its payload and a tag of zeros. -/
def dgram (flags type sid : Nat) (p : Bytes) : Bytes :=
  leBytes 32 (0x4D57 + 2 ^ 16 + flags + type * 2 ^ 24 + p.length * 2 ^ 32 + sid * 2 ^ 48 + 2 ^ 144 + 2 ^ 192) ++ p ++ List.replicate 16 0

/-- The device with no room for unfinished messages. -/
def noRoom : State := { live with cfg := { live.cfg with limits := { live.cfg.limits with rxBytes := 0 } } }

theorem test_witness_datagram_checks :
    datagramOk [] = false ∧ live.portLive = true
    ∧ (datagramOk (dgram 0 0x10 0 []) = true ∧ fld (hdr (dgram 0 0x10 0 [])) 79 48 = 0 ∧ plainType (fld (hdr (dgram 0 0x10 0 [])) 31 24) = false)
    ∧ (let b := dgram (2 ^ 23) 0x60 0 (List.replicate 88 0)
       let h := hdr b
       datagramOk b = true ∧ fld h 79 48 = 0 ∧ plainType (fld h 31 24) = true ∧ bitAt h 23 = true ∧ fld h 111 80 = 0 ∧ fld h 143 112 = 0
       ∧ fld h 207 192 = 1 ∧ allZero (b.drop (32 + fld h 45 32)) = true ∧ live.plainParts = []
       ∧ live.rxHeld + fld h 45 32 ≤ live.cfg.limits.rxBytes ∧ (noRoom).cfg.limits.rxBytes < (noRoom).rxHeld + fld h 45 32)
    ∧ (let h := hdr (dgram 0 0x10 3 [])
       datagramOk (dgram 0 0x10 3 []) = true ∧ fld h 79 48 ≠ 0
       ∧ live.sessions.find? (fun q => q.wire == fld h 79 48 && q.peer == host) = none)
    ∧ (let h := hdr (dgram 0 0x10 1 [])
       datagramOk (dgram 0 0x10 1 []) = true ∧ fld h 79 48 ≠ 0
       ∧ live.sessions.find? (fun q => q.wire == fld h 79 48 && q.peer == host) = some hostQ ∧ bitAt h 21 = hostQ.weInitiated)
    ∧ (let h := hdr (dgram (2 ^ 21) 0x10 1 [])
       live.sessions.find? (fun q => q.wire == fld h 79 48 && q.peer == host) = some hostQ ∧ bitAt h 21 ≠ hostQ.weInitiated) := by
  decide +kernel

def txd : TxDatagram :=
  { seq := 7, ack := 0, msgId := 1, idx := 0, count := 1, type := 0x06, ctx := 0, noAck := false, ecnEcho := false, phase := 0, payload := []
    sentAt := 0 }
/-- The device with one session only. -/
def withQ (q : Session) : State := { live with sessions := [q] }

theorem test_witness_timeout_resends :
    let q := { hostQ with unacked := [txd] }
    (withQ q).session? 1 = some q ∧ q.unacked.find? (·.seq == 7) = some txd := by decide

/-- ACK messages of no range and of 64 ranges. -/
theorem test_witness_ack :
    (deliver 1 0x05 (leBytes 8 0) live).Offers 0x05 (msg 1 (leBytes 8 0)) (dl 1 0x05 (leBytes 8 0)) hostQ
    ∧ (leBytes 8 0).length = 8 + 8 * uAt (leBytes 8 0) 0 1
    ∧ let p := leBytes 8 64 ++ List.replicate 512 1
      (deliver 1 0x05 p live).Offers 0x05 (msg 1 p) (dl 1 0x05 p) hostQ ∧ uAt p 0 1 = 64 ∧ p.length = 8 + 8 * uAt p 0 1 :=
  ⟨⟨by decide +kernel, rfl, rfl, rfl⟩, by decide +kernel, ⟨by decide +kernel, rfl, rfl, rfl⟩, by decide +kernel⟩

theorem test_witness_window :
    (withQ { hostQ with ceAcked := 1 }).session? 1 = some { hostQ with ceAcked := 1 } ∧ (withQ hostQ).session? 1 = some hostQ
    ∧ hostQ.ceAcked = 0 ∧ ({ hostQ with lostAny := true } : Session).lostAny = true ∧ hostQ.lostAny = false
    ∧ 4194304 ≤ ({ hostQ with window := 4194304 } : Session).window ∧ ({ hostQ with window := 67108864 } : Session).window ≤ 67108864
    ∧ 0 ≤ hostQ.alpha ∧ ({ hostQ with alpha := 1 } : Session).alpha ≤ 1 := by
  refine ⟨rfl, rfl, rfl, rfl, rfl, ?_, ?_, ?_, ?_⟩ <;> decide

/-- A handshake of this device as initiator or responder. -/
def hs (initiator : Bool) : Handshake :=
  { id := 0, initiator, sub := 0, peer := device, dev := 1, session := 9, randomI := List.replicate 32 0, initPayload := [], started := 0
    lastSent := 0, interval := 1 }
def plain (type : Nat) (p : Bytes) (s : State) : State := { s with delivered := [{ dl 0 type p with src := device, msgId := 0 }] }
def pd (type : Nat) (p : Bytes) : Delivered := { dl 0 type p with src := device, msgId := 0 }
def initOf (flags : Nat) : Bytes := leBytes 4 flags ++ List.replicate 1697 0
/-- The device at a listed partner's address, listed below or above this device. -/
def withPeer (self : Nat) : State :=
  { live with peers := [(0, { state := 3, role := 1, devIndex := 1, host := some device, session := 2 })]
              cfg := { live.cfg with peers := { live.cfg.peers with selfIndex := self } } }

theorem test_witness_init :
    ((plain 1 [] live).plainTaken? 1 0 device [] = some (pd 1 []) ∧ ([] : Bytes).length ≠ 1701)
    ∧ (let p := initOf 4
       (plain 1 p live).plainTaken? 1 0 device p = some (pd 1 p) ∧ 4 ≤ uAt p 0 4)
    ∧ (let p := initOf 3
       (plain 1 p (withPeer 1)).plainTaken? 1 0 device p = some (pd 1 p) ∧ bitAt (uAt p 0 4) 1 = true
       ∧ (withPeer 1).deviceAt device = some 1 ∧ (withPeer 1).cfg.peers.selfIndex ≤ 1)
    ∧ (let p := initOf 2
       let s : State := { live with boot := { live.boot with service := 2 } }
       (plain 1 p s).plainTaken? 1 0 device p = some (pd 1 p) ∧ bitAt (uAt p 0 4) 1 = true ∧ s.takesDevices = false)
    ∧ (let p := initOf 2
       let s := withPeer 2
       (plain 1 p s).plainTaken? 1 0 device p = some (pd 1 p) ∧ p.length = 1701 ∧ uAt p 0 4 < 4 ∧ bitAt (uAt p 0 4) 1 = true
       ∧ s.deviceAt device = some 1 ∧ ¬(s.cfg.peers.selfIndex ≤ 1) ∧ s.takesDevices = true ∧ s.portLive = true
       ∧ (s.handshakes.find? fun h => !h.initiator && h.peer == device && h.randomI == slice p 4 32) = none
       ∧ ¬(1024 ≤ s.sessions.length) ∧ ¬(64 ≤ (s.handshakes.filter fun h => !h.initiator).length) ∧ s.boot.service ≠ 2)
    ∧ (let s : State := { live with handshakes := [hs false] }
       (s.handshakes.find? fun h => !h.initiator && h.peer == device && h.randomI == slice (initOf 0) 4 32) = some (hs false))
    ∧ (let s : State := { live with handshakes := List.replicate 64 { hs false with peer := host } }
       (s.handshakes.find? fun h => !h.initiator && h.peer == device && h.randomI == slice (initOf 0) 4 32) = none
       ∧ 64 ≤ (s.handshakes.filter fun h => !h.initiator).length)
    ∧ (let s : State := { live with boot := { live.boot with service := 2 } }
       s.boot.service = 2 ∧ s.fuses.owners = [] ∧ bitAt (uAt (initOf 1) 0 4) 1 = false) := by
  decide +kernel

theorem test_witness_accept_and_confirm :
    (let s := plain 2 [] { live with handshakes := [hs true] }
     s.plainTaken? 2 0 device [] = some (pd 2 []) ∧ s.portLive = true
     ∧ s.handshakes.find? (fun h => h.initiator && h.peer == device && h.acceptPayload == []) = some (hs true))
    ∧ (let s := plain 3 (leBytes 4 9) { live with handshakes := [hs false] }
       s.plainTaken? 3 0 device (leBytes 4 9) = some (pd 3 (leBytes 4 9)) ∧ s.portLive = true
       ∧ s.handshakes.find? (fun h => !h.initiator && h.peer == device && h.session == uAt (leBytes 4 9) 0 4) = some (hs false)) := by
  decide +kernel

theorem test_witness_sessions_end :
    (let s := deliver 1 4 (leBytes 8 1) live
     s.delivered.find? (fun d => d.session == 1 && d.type == 4 && d.src == host && d.frags.flatten == leBytes 8 1) = some (dl 1 4 (leBytes 8 1))
     ∧ s.portLive = true ∧ (leBytes 8 1).length = 8 ∧ s.session? 1 = some hostQ ∧ uAt (leBytes 8 1) 0 4 = hostQ.wire)
    ∧ (let s := plain 4 (leBytes 8 9) { live with handshakes := [hs false] }
       s.delivered.find? (fun d => d.session == 0 && d.type == 4 && d.src == device && d.frags.flatten == leBytes 8 9) = some (pd 4 (leBytes 8 9))
       ∧ s.handshakes.find? (fun h => h.peer == device && (h.session == uAt (leBytes 8 9) 0 4 || h.initiator)) = some (hs false))
    ∧ (({ live with handshakes := [hs true] } : State).handshakes.find? (fun h => h.id == 0 && h.initiator) = some (hs true)
       ∧ (hs true).confirmPayload = [] ∧ ({ hs true with confirmPayload := [0] } : Handshake).confirmPayload ≠ [])
    ∧ (let q := { hostQ with closing := some (0, 1) }
       (withQ q).session? 1 = some q ∧ q.closing = some (0, 1)) := by decide +kernel

theorem admits_of {s : State} {type : Nat} {m : Msg} {w : Bool} {d : Delivered} {q : Session}
    (h : s.taken? type m = some d ∧ s.session? m.session = some q ∧ s.portLive = true ∧ q.opened = true ∧ s.gate q type w = none) :
    s.Admits type m w d q := ⟨⟨h.1, h.2.1, h.2.2.1, h.2.2.2.1⟩, h.2.2.2.2⟩

/-- The host's message of a type and payload, delivered to a state. -/
abbrev AdmitsOn (s : State) (type : Nat) (p : Bytes) (w : Bool) : Prop := (deliver 1 type p s).Admits type (msg 1 p) w (dl 1 type p) hostQ
/-- The same from the device of session 2. -/
abbrev JoinsOn (s : State) (type : Nat) (p : Bytes) : Prop := (deliver 2 type p s).Admits type (msg 2 p) false (dl 2 type p) devQ

/-- A service state with its service state, its functions or the host's permissions changed. -/
def inState (n : Nat) : State := { live with boot := { live.boot with service := n } }
def running (n : Nat) : State := { live with fns := { live.fns with running := n } }

/-- Each clause of the gate, on a SUBMIT and on a durable write that is next. -/
theorem test_witness_gate :
    (let q := { hostQ with perms := 0x1E }
     let s := deliver 1 0x10 [] (withQ q)
     hostRow (.submit (msg 1 [])) = some (0x10, msg 1 [], false) ∧ s.Offers 0x10 (msg 1 []) (dl 1 0x10 []) q
     ∧ rowTakes (.submit (msg 1 [])) [] = true ∧ bitAt q.perms (permBit 0x10 false) = false)
    ∧ (let s := deliver 1 0x30 [] (inState 2)
       s.Offers 0x30 (msg 1 []) (dl 1 0x30 []) hostQ ∧ rowTakes (.loadModel (msg 1 [])) [] = true
       ∧ s.earlierWrite hostQ (dl 1 0x30 []) = false ∧ bitAt hostQ.perms (permBit 0x30 false) = true)
    ∧ (deliver 1 0x12 [] (inState 3)).Offers 0x12 (msg 1 []) (dl 1 0x12 []) hostQ
    ∧ ((deliver 1 0x10 [] (running 0xFE)).Offers 0x10 (msg 1 []) (dl 1 0x10 []) hostQ ∧ (running 0xFE).runs fnPort = false) := by
  refine ⟨⟨rfl, ⟨?_, ?_, ?_, ?_⟩, rfl, ?_⟩, ⟨⟨?_, ?_, ?_, ?_⟩, ?_, ?_, ?_⟩, ⟨?_, ?_, ?_, ?_⟩, ⟨?_, ?_, ?_, ?_⟩, ?_⟩ <;> decide +kernel

-- A pool, a plan of one stage, and a SUBMIT for it

def pool0 : PoolCfg := { firstCol := 0, cols := 4, kinds := 0x3E, weight := 1, cacheKib := 0, hotKib := 0, kvKib := 0, classes := 1, corpus := 0 }
def stage (kind : Nat) : Stage :=
  { kind, repeats := false, preds := [], wiFirst := 0, wiCount := 1, cycles := 0, footprint := 0, minCols := 0, object := 0x4000 }
def plan0 (kind : Nat) : Plan :=
  { obj := { kind := 2, id := 0, key := 1, state := 2 }, stages := [stage kind], items := [0], descs := [], regions := [], offConst := 0, scratchBytes := 0, scratchDev := 0 }
def served (kind : Nat) : State := { live with
  plans := [plan0 kind]
  cfg := { live.cfg with pools := [pool0], mode := { live.cfg.mode with classes := [(0, (1, 1))] } } }
def submit0 : Bytes := leBytes 32 0x54425553
/-- The same with a HANDLE option that retains. -/
def retain0 : Bytes := leBytes 32 (0x54425553 + 24 * 2 ^ 192) ++ leBytes 8 (3 + 24 * 2 ^ 16) ++ leBytes 8 1 ++ leBytes 8 (2 * 2 ^ 32)

theorem test_witness_submit :
    AdmitsOn live 0x10 [] false ∧ readSubmit [] = none ∧ live.runs (fnHopper + fnPools) = true ∧ live.cfg.twin.role = 0
    ∧ (AdmitsOn (running 1) 0x10 [] false ∧ (running 1).runs (fnHopper + fnPools) = false)
    ∧ (let s : State := { live with twin := { live.twin with state := 1 }, cfg := { live.cfg with twin := { live.cfg.twin with role := 1 } } }
       AdmitsOn s 0x10 [] false ∧ s.cfg.twin.role ≠ 0 ∧ s.twin.state = 1)
    ∧ (AdmitsOn live 0x10 submit0 false ∧ ∃ x, readSubmit submit0 = some x ∧ live.plan? x.plan = none) := by
  refine ⟨admits_of ?_, ?_, ?_, ?_, ⟨admits_of ?_, ?_⟩, ⟨admits_of ?_, ?_, ?_⟩, admits_of ?_, _, rfl, ?_⟩ <;> decide +kernel

def read0 : SubmitMsg :=
  { plan := 0, entry := 0, final := 0, shareClass := 0, priority := 0, model := none, tokeniser := none, grammar := none, adapter := none
    budgetUs := 0, maxNew := 0, bound := 0, bodyAt := 32 }
def taken0 : State := (deliver 1 0x10 submit0 (served 3)).untake (dl 1 0x10 submit0)

/-- The last checks of a SUBMIT for a plan that is held: passed, and failed one by one. -/
theorem test_witness_submit_admitted :
    AdmitsOn (served 3) 0x10 submit0 false
    ∧ readSubmit submit0 = some read0 ∧ (served 3).plan? 0 = some (plan0 3)
    ∧ (pathOf (plan0 3) 0 0).filterMap ((plan0 3).stages[·]?) = [stage 3]
    ∧ (served 3).runs (stagesNeed [stage 3]) = true
    ∧ State.bindStage (served 3).cfg.pools (stage 3) = some 0 ∧ bitAt (served 3).power.gate 0 = false
    ∧ taken0.checkObjects read0 (plan0 3) [stage 3] = none ∧ taken0.shareRefused read0 [stage 3] = false
    ∧ taken0.entryRefused [stage 3] = false ∧ taken0.handlesFull read0 = false := by
  refine ⟨admits_of ?_, ?_⟩ <;> decide +kernel

theorem test_witness_submit_refused :
    (let s : State := { served 3 with power := { (served 3).power with gate := 1 } }
     AdmitsOn s 0x10 submit0 false ∧ (State.bindStage s.cfg.pools (stage 3)).map (bitAt s.power.gate) = some true)
    ∧ (taken0.checkObjects read0 { plan0 3 with obj := { (plan0 3).obj with damaged := true } } [stage 3] = some refCheck)
    ∧ (let s : State := { taken0 with cfg := { taken0.cfg with mode := { taken0.cfg.mode with classes := [] } } }
       s.checkObjects read0 (plan0 3) [stage 3] = none ∧ s.shareRefused read0 [stage 3] = true)
    ∧ (let s : State := { taken0 with cfg := { taken0.cfg with mode := { taken0.cfg.mode with admitLimit := 0 } } }
       s.checkObjects read0 (plan0 3) [stage 3] = none ∧ s.shareRefused read0 [stage 3] = false ∧ s.entryRefused [stage 3] = true) := by
  refine ⟨⟨admits_of ?_, ?_⟩, ?_⟩ <;> decide +kernel

theorem test_witness_handle_retain :
    AdmitsOn (served 4) 0x38 retain0 false
    ∧ readSubmit retain0 = some { read0 with bodyAt := 56, handle := some (1, 0, 2) } ∧ (served 4).plan? 0 = some (plan0 4)
    ∧ ((plan0 4).stages[0]?).any (·.kind == 4) = true ∧ bitAt 2 1 = true ∧ ((plan0 3).stages[0]?).any (·.kind == 4) = false
    ∧ (served 4).checkObjects { read0 with bodyAt := 56, handle := some (1, 0, 2) } (plan0 4) [stage 4] = some refCheck := by
  refine ⟨admits_of ?_, ?_⟩ <;> decide +kernel

/-- A request in flight. -/
def req0 : Request := { state := 1, order := 1, session := 1, plan := 0, planImage := 1, entry := 0, final := 0 }
def withReq (q : Request) (s : State) : State := { s with reqs := [(4095, q)] }

theorem test_witness_cancel :
    let p := leBytes 16 4095
    AdmitsOn live 0x12 p false ∧ p.length = 16 ∧ uAt p 0 2 = 4095 ∧ allZero (p.drop 2) = true
    ∧ ((withReq req0 live).req? 4095 = some req0 ∧ req0.session = hostQ.id ∧ req0.status = none)
    ∧ ((withReq { req0 with status := some 1 } live).req? 4095).map (·.status) = some (some 1)
    ∧ live.req? 4095 = none := by
  refine ⟨admits_of ?_, ?_⟩ <;> decide +kernel

def prefix0 : Prefix := { handle := 1, model := 0, adapter := none, tokens := 0, pages := [], partialPages := [], evictable := false, lastBound := 0 }
theorem test_witness_handle_release :
    let p := leBytes 8 1
    AdmitsOn live 0x39 p false ∧ p.length = 8 ∧ live.runs fnServe = true ∧ uAt p 0 8 = 1
    ∧ ({ live with prefixes := [prefix0] } : State).prefixes.find? (·.handle == 1) = some prefix0
    ∧ live.prefixes.find? (·.handle == 1) = none
    ∧ (let q := { req0 with retain := true, prefixHandle := 1 }
       (withReq q live).reqs.find? (fun r => r.2.retain && !r.2.retained && !r.2.retainCancelled && r.2.status.isNone && r.2.prefixHandle == 1)
        = some (4095, q)) := by
  refine ⟨admits_of ?_, ?_⟩ <;> decide +kernel

/-- INSPECT payloads: an operation at an offset, its value and its mask. -/
def inspect (off op n v mask : Nat) : Bytes := leBytes 16 (off + n * 2 ^ 64 + op * 2 ^ 80) ++ leBytes 8 v ++ leBytes 8 mask

theorem test_witness_inspect :
    (let p := leBytes 16 (0x100 + 8 * 2 ^ 64)
     let w := uAt p 0 16
     AdmitsOn live 0x40 p false ∧ p.length = 16 ∧ fld w 63 48 = 0 ∧ fld w 127 80 = 0 ∧ fld w 47 0 % 8 = 0 ∧ fld w 79 64 % 8 = 0)
    ∧ (let p := inspect 0x108 1 0 0 1
       let w := uAt p 0 16
       AdmitsOn live 0x40 p true ∧ State.isWrite p = true ∧ State.writeRow p = 0 ∧ p.length = 32 ∧ fld w 63 48 = 0 ∧ fld w 127 82 = 0
       ∧ fld w 79 64 = 0 ∧ fld w 47 0 % 8 = 0 ∧ fld w 47 0 ≠ 0x100)
    ∧ (let p := inspect 0x100 1 0 (168 * 2 ^ 40 + 0x3F) (0xFF * 2 ^ 40 + 0xFF)
       let w := uAt p 0 16
       AdmitsOn live 0x40 p true ∧ State.isWrite p = true ∧ p.length = 32 ∧ fld w 127 82 = 0 ∧ fld w 79 48 = 0 ∧ fld w 47 0 = 0x100
       ∧ maskWithout (uAt p 24 8) (0xFF * 2 ^ 40 ||| 0xFF) = 0 ∧ uAt p 24 8 &&& 0xFF * 2 ^ 40 ≠ 0
       ∧ (uAt p 16 8 &&& uAt p 24 8 &&& 0xFF) < 64
       ∧ (fld (uAt p 16 8) 47 40 &&& fld (uAt p 24 8) 47 40) ||| maskWithout live.tele.scrubHours (fld (uAt p 24 8) 47 40) = 168)
    ∧ (let p := inspect 0x100 1 0 (169 * 2 ^ 40) (0xFF * 2 ^ 40)
       (fld (uAt p 16 8) 47 40 &&& fld (uAt p 24 8) 47 40) ||| maskWithout live.tele.scrubHours (fld (uAt p 24 8) 47 40) = 169)
    ∧ (let p := inspect 0x100 1 0 1 1
       AdmitsOn live 0x40 p true ∧ uAt p 24 8 &&& 0xFF * 2 ^ 40 = 0 ∧ uAt p 24 8 &&& 0xFF ≠ 0)
    ∧ bitAt 4 2 = true ∧ State.inGroup 2 0x71400 = true ∧ State.inGroup 0 0x71400 = false := by
  refine ⟨⟨admits_of ?_, ?_⟩, ⟨admits_of ?_, ?_⟩, ⟨admits_of ?_, ?_⟩, ?_, ⟨admits_of ?_, ?_⟩, ?_⟩ <;> decide +kernel

theorem test_witness_control_turns :
    let p := leBytes 16 1
    hostRow (.restart (msg 1 p)) = some (0x52, msg 1 p, false) ∧ 0x52 ∈ [0x48, 0x50, 0x51, 0x52] ∧ AdmitsOn live 0x52 p false
    ∧ rowTakes (.restart (msg 1 p)) p = true ∧ live.fns.current = none ∧ live.fns.waiting = [] := by
  refine ⟨rfl, ?_, admits_of ?_, ?_⟩ <;> decide +kernel

theorem test_witness_stop :
    (let w := uAt (leBytes 16 0x0FF) 0 16
     AdmitsOn live 0x50 (leBytes 16 0x0FF) false ∧ fld w 127 9 = 0 ∧ bitAt w 8 = false)
    ∧ (let w := uAt (leBytes 16 0x1FF) 0 16
       AdmitsOn live 0x50 (leBytes 16 0x1FF) false ∧ fld w 127 9 = 0 ∧ bitAt w 8 = true)
    ∧ (fnNeeds 7 &&& stopClosure 1 ≠ 0 ∧ 255 &&& 7 ≠ 0 ∧ 0xF8 &&& 7 = 0) := by
  refine ⟨⟨admits_of ?_, ?_⟩, ⟨admits_of ?_, ?_⟩, ?_⟩ <;> decide +kernel

/-- A LIMITS section with a drain time. -/
def limits (ms : Nat) : Bytes := leBytes 8 (1 + 32 * 2 ^ 32) ++ leBytes 8 0 ++ leBytes 8 1073741824 ++ leBytes 8 ms

theorem test_witness_config :
    (let p := leBytes 16 9 ++ limits 600000
     let w := uAt p 0 16
     AdmitsOn live 0x51 p false ∧ 16 ≤ p.length ∧ fld w 127 5 = 0 ∧ fld w 3 0 < 10 ∧ fld w 3 0 ≠ 4 ∧ bitAt w 4 = false
     ∧ live.fns.running &&& State.dependents 9 ≠ 0
     ∧ (AdmitsOn (running 0) 0x51 p false ∧ (running 0).fns.running &&& State.dependents 9 = 0)
     ∧ (∃ n, live.parseSection 9 (limits 600000) = .ok n) ∧ (∃ e, live.parseSection 9 (limits 600001) = .error e))
    ∧ (let p := leBytes 16 25 ++ limits 1000
       AdmitsOn live 0x51 p false ∧ bitAt (uAt p 0 16) 4 = true
       ∧ (∃ n, live.parseSection 9 (limits 1000) = .ok n ∧ State.withLive live.cfg n = n)
       ∧ ∃ n, live.parseSection 9 (limits 1001) = .ok n ∧ State.withLive live.cfg n ≠ n) := by
  refine ⟨⟨admits_of ?_, ?_, ?_, ?_, ?_, ?_, ?_, ⟨admits_of ?_, ?_⟩, ⟨_, rfl⟩, ⟨_, rfl⟩⟩,
    ⟨admits_of ?_, ?_, ⟨_, rfl, ?_⟩, ⟨_, rfl, ?_⟩⟩⟩ <;> decide +kernel

theorem test_witness_restart :
    let p := leBytes 16 4
    AdmitsOn (running 0x83) 0x52 p false ∧ fld (uAt p 0 16) 127 8 = 0 ∧ p.length = 16
    ∧ (4 &&& (running 0x83).fns.recovering = 0 ∧ State.restartOk (running 0x83).fns.running 4 = true
      ∧ bitAt (maskWithout 4 (running 0x83).fns.running) 2 = true ∧ (running 0x83).power.state = 0 ∧ (running 0x83).power.arraysClocked = true)
    ∧ State.restartOk (running 0).fns.running 4 = false := by
  refine ⟨admits_of ?_, ?_⟩ <;> decide +kernel

theorem test_witness_power :
    (AdmitsOn live 0x48 (leBytes 16 4) false ∧ (live.powerRefusal (uAt (leBytes 16 4) 0 16)).isSome = true)
    ∧ (let s := running 3
       let w := uAt (leBytes 16 2) 0 16
       AdmitsOn s 0x48 (leBytes 16 2) false ∧ fld w 7 6 = 0 ∧ fld w 127 32 = 0 ∧ s.powerRefusal w = none ∧ fld w 2 0 ∈ [1, 2]
       ∧ fld w 2 0 ≠ s.power.state ∧ fld w 15 8 = s.power.gate ∧ fld w 31 16 = 0) := by
  refine ⟨⟨admits_of ?_, ?_⟩, ⟨admits_of ?_, ?_⟩⟩ <;> decide +kernel

def ctl : CtlOp := { session := 1, msgId := 1, type := 0x50, payload := leBytes 16 1, arrived := 0 }
theorem test_witness_power_transitions :
    (∀ st ∈ [0, 1, 2], ({ live with power := { live.power with target := some st } } : State).power.target = some st ∧ st ≠ 3)
    ∧ (let s : State := { live with power := { live.power with target := some 3 }, fns := { live.fns with current := some ctl } }
       s.power.target = some 3 ∧ s.fns.current = some ctl)
    ∧ (let s : State := { live with power := { live.power with state := 2, target := some 0, newLevel := some 4, ungating := [7], draining := [(7, 0)] } }
       s.power.target = some 0 ∧ s.power.state = 2 ∧ s.power.newLevel = some 4 ∧ 7 ∈ s.power.ungating
       ∧ s.power.draining.find? (·.1 == 7) = some (7, 0))
    ∧ ctl.type = 0x50 ∧ bitAt (uAt ctl.payload 0 16) 8 = false := by decide +kernel

/-- An image chunk for slot B: a whole header of sequence 1 that ends too early. -/
def chunk0 (final : Nat) : Bytes := leBytes 16 (1 + final + 128 * 2 ^ 64) ++ leBytes 8 0 ++ leBytes 8 1 ++ List.replicate 48 0
theorem test_witness_image_write :
    AdmitsOn live 0x53 (chunk0 0) false ∧ live.boot.service ≠ 2 ∧ live.boot.slot = 0
    ∧ (fld (uAt (chunk0 0) 0 16) 0 0 = 1 ∧ fld (uAt (chunk0 0) 0 16) 63 32 = 0 ∧ (live.imageChunk (chunk0 0)).1 ≠ live.flash
      ∧ bitAt (uAt (chunk0 0) 0 16) 1 = false)
    ∧ ((live.imageChunk (chunk0 2)).1 ≠ live.flash ∧ (live.imageChunk (chunk0 2)).2 = refIncomplete) := by
  refine ⟨admits_of ?_, ?_⟩ <;> decide +kernel

/-- A first chunk of a newer image, and chunks that follow it: one in the middle and the last. -/
theorem test_witness_image_chunks :
    (let p := chunk0 0
     let w := uAt p 0 16
     16 ≤ p.length ∧ fld w 31 2 = 0 ∧ fld w 127 96 = 0 ∧ fld w 95 64 ≤ 268435456 ∧ fld w 63 32 + (p.drop 16).length ≤ fld w 95 64
     ∧ live.boot.slot ≠ fld w 0 0 ∧ fld w 63 32 = 0 ∧ 64 ≤ (p.drop 16).length ∧ live.boot.imageSeq < imageSeq ((p.drop 16).take 64)
     ∧ bitAt w 1 = false)
    ∧ ∀ final ∈ [0, 2], ∀ n ∈ [63 + final / 2],
      let p := leBytes 16 (1 + final + 64 * 2 ^ 32 + 128 * 2 ^ 64) ++ List.replicate n 0
      let w := uAt p 0 16
      let s : State := { live with flash := { live.flash with writeB := some (64, 128, []) } }
      AdmitsOn s 0x53 p false ∧ 16 ≤ p.length ∧ fld w 31 2 = 0 ∧ fld w 127 96 = 0 ∧ fld w 95 64 ≤ 268435456
      ∧ fld w 63 32 + (p.drop 16).length ≤ fld w 95 64 ∧ s.boot.slot ≠ fld w 0 0 ∧ 0 < fld w 63 32
      ∧ (State.slotOf s.flash (fld w 0 0)).2 = some (fld w 63 32, fld w 95 64, [])
      ∧ bitAt w 1 = decide (final = 2) ∧ (final = 2 → fld w 63 32 + (p.drop 16).length = fld w 95 64) := by
  refine ⟨by decide +kernel, fun final h n hn => ?_⟩
  fin_cases h <;> fin_cases hn <;> exact ⟨admits_of (by decide +kernel), by decide +kernel⟩

/-- A load of plan 255 of 16 bytes; TABLE_SWITCH or TABLE_RELEASE of version 1 of table or store 511 or 15. -/
def loading : Load := { type := 0x31, id := 255, session := 1, total := 16, version := 0, forModel := 0, wrapped := false, base := 0, lastChunk := 0 }
def switchW (word : Nat) : Write := { session := 1, msgId := 1, type := 0x21, writeId := 0, kind := 5, obj := 0, payload := leBytes 8 0 ++ leBytes 4 1 ++ leBytes 4 word }
/-- A LOAD_PLAN of nothing, and the twin's role and state. -/
def load0 : Bytes := List.replicate 32 0
def twinned (role state : Nat) (s : State) : State :=
  { s with twin := { s.twin with state }, cfg := { s.cfg with twin := { s.cfg.twin with role } } }

theorem test_witness_durable_write :
    hostRow (.loadPlan (msg 1 load0)) = some (0x31, msg 1 load0, false) ∧ durableType 0x31 = true ∧ AdmitsOn live 0x31 load0 false
    ∧ rowTakes (.loadPlan (msg 1 load0)) load0 = true
    ∧ (deliver 1 0x31 load0 live).Applies 0x31 (dl 1 0x31 load0) hostQ
    ∧ (deliver 1 0x31 load0 (twinned 1 2 live)).Applies 0x31 (dl 1 0x31 load0) hostQ
    ∧ (deliver 1 0x31 load0 (twinned 2 4 live)).Applies 0x31 (dl 1 0x31 load0) hostQ
    ∧ (let s : State := { twinned 1 2 live with twin := { (twinned 1 2 live).twin with outcomes := [(0, {})] } }
       s.writePending (uAt load0 0 8) = false ∧ s.remembered (uAt load0 0 8) = some {}
       ∧ ¬(s.cfg.twin.role ≠ 0 ∧ (s.twin.state = 0 ∨ s.runs fnTwin = false)))
    ∧ (let s : State := { live with loads := [{ loading with final := some (switchW 0, []) }] }
       AdmitsOn s 0x31 load0 false ∧ (deliver 1 0x31 load0 s).earlierWrite hostQ (dl 1 0x31 load0) = false
       ∧ s.runs (writeFn 0x31 load0) = true ∧ s.writePending (uAt load0 0 8) = true) := by
  refine ⟨rfl, rfl, admits_of ?_, rfl, ⟨?_, ?_, ?_, ?_, ?_, ?_⟩, ⟨?_, ?_, ?_, ?_, ?_, ?_⟩, ⟨?_, ?_, ?_, ?_, ?_, ?_⟩, ?_, admits_of ?_, ?_⟩ <;> decide +kernel

theorem test_witness_durable_write_waits :
    (AdmitsOn (running 1) 0x31 load0 false ∧ (deliver 1 0x31 load0 (running 1)).earlierWrite hostQ (dl 1 0x31 load0) = false
      ∧ 8 ≤ load0.length ∧ (running 1).runs (writeFn 0x31 load0) = false)
    ∧ (let s := twinned 1 0 live
       AdmitsOn s 0x31 load0 false ∧ s.runs (writeFn 0x31 load0) = true ∧ s.cfg.twin.role ≠ 0 ∧ s.twin.state = 0)
    ∧ (let s := twinned 1 1 live
       AdmitsOn s 0x31 load0 false ∧ s.twin.state = 1 ∧ bitAt s.fns.running 7 = true ∧ s.remembered 0 = none ∧ s.writePending 0 = false)
    ∧ (let s := twinned 2 2 live
       AdmitsOn s 0x31 load0 false ∧ s.twin.state = 2 ∧ s.holdsToken (writeObject 0x31 load0).1 (writeObject 0x31 load0).2 = false
       ∧ s.twin.waiting = []) := by
  refine ⟨⟨admits_of ?_, ?_⟩, ⟨admits_of ?_, ?_⟩, ⟨admits_of ?_, ?_⟩, ⟨admits_of ?_, ?_⟩⟩ <;> decide +kernel

/-- Versions of table 511 and of store 15. -/
def tver (state : Nat) (released : Bool) : TableVer := { table := 511, version := 1, state, released, map := { version := 0, ranges := [] }, base := 0 }
def sver (state : Nat) (released : Bool) : StoreVer := { store := 15, version := 1, state, released }

theorem test_witness_switch :
    (switchW 511).payload.length = 16 ∧ fld (uAt (switchW 511).payload 12 4) 31 10 = 0 ∧ fld (uAt (switchW 511).payload 12 4) 8 0 = 511
    ∧ uAt (switchW 511).payload 8 4 = 1 ∧ bitAt (uAt (switchW 511).payload 12 4) 9 = false
    ∧ (∀ x ∈ [tver 1 false, tver 3 false, tver 1 true, tver 0 false, tver 2 false], ({ live with tables := [x] } : State).table? 511 1 = some x ∧ x.waiting = [])
    ∧ bitAt (uAt (switchW (15 + 512)).payload 12 4) 9 = true ∧ fld (uAt (switchW (15 + 512)).payload 12 4) 31 10 = 0
    ∧ ∀ x ∈ [sver 1 false, sver 3 false, sver 2 false], ({ live with stores := [x] } : State).store? 15 1 = some x := by decide +kernel

def tcfg : TableCfg := { id := 511, format := 1, width := 32, rows := 2, hotCap := 1, hotTileRows := 1, hotRefreshMs := 1 }
def tmsg : TableMsg :=
  { version := 1, copyFrom := 0, first := 0, count := 1, id := 511, isStore := false, isFinal := false, hasMap := false, wrapped := false }
def scfg : StoreCfg :=
  { id := 15, tokeniser := 0, maxPassages := 1, maxTokens := 1, pairLen := 8, queryMax := 1, pairCls := 0, pairSep := 0, pairEnd := 0, pairPad := 0 }

theorem test_witness_table_write :
    (let s : State := { live with tables := [tver 1 false] }
     s.table? tcfg.id 1 = some (tver 1 false) ∧ (tver 1 false).state ≠ 0)
    ∧ ({ live with tables := [tver 0 true] } : State).table? tcfg.id 1 = some (tver 0 true) ∧ (tver 0 true).released = true
    ∧ ({ live with stores := [sver 2 false] } : State).store? scfg.id 1 = some (sver 2 false)
    ∧ (live.writeTable tcfg tmsg []).2 = some refMalformed ∧ (live.writeStore scfg { tmsg with id := 15, isStore := true } []).2 = some refMalformed := by
  decide +kernel

/-- HOT_SET 1 for version 1 of table 511 with its row 1. -/
def hotW : Write := { session := 1, msgId := 1, type := 0x23, writeId := 0, kind := 8, obj := 0
                      payload := leBytes 8 0 ++ leBytes 4 1 ++ leBytes 4 1 ++ leBytes 4 1 ++ leBytes 4 511 ++ leBytes 8 1 }
def hotS (run : TableRun) : State :=
  { live with cfg := { live.cfg with tables := [tcfg] }, tables := [tver 2 false], tableRuns := [run] }
def bound511 : State := { hotS { id := 511 } with
  hotSets := [{ table := 511, version := 7, forVersion := 1, rows := [], half := 0, replica := 0, replicaBytes := 0, replicaSlots := [] }]
  reqs := [(0, { req0 with tables := [(8, 511, 7)] })] }

theorem test_witness_hot_set :
    (let w := hotW
     let n := uAt w.payload 16 4
     let rows := (chunks 8 (w.payload.drop 24)).map leNat
     w.payload.length = 24 + 8 * n ∧ 0 < n ∧ uAt w.payload 20 4 < 512 ∧ (∀ r ∈ rows, r < tcfg.rows ∧ r < 2 ^ 40) ∧ distinct rows = true ∧ n ≤ tcfg.hotCap
     ∧ rows = [1])
    ∧ (let s := hotS { id := 511 }
       s.tableCfg? 511 = some tcfg ∧ s.table? 511 1 ≠ none ∧ (s.tableRun 511).installing = none ∧ (s.tableRun 511).lastHot < 1
       ∧ (s.tableRun 511).waiting = none ∧ s.hotHalfFree 511 (s.tableRun 511).half = true ∧ (s.tableRun 511).started = none)
    ∧ (let s := bound511
       s.hotHalfFree 511 (s.tableRun 511).half = false ∧ (s.tableRun 511).waiting = none)
    ∧ (let s := hotS { id := 511, started := some 0 }
       (s.tableRun 511).started = some 0 ∧ s.portTicks < 0 + State.ticksOfMs tcfg.hotRefreshMs)
    ∧ (let s := hotS { id := 511, waiting := some hotW }
       s.tableCfg? 511 = some tcfg ∧ (s.tableRun 511).waiting = some hotW ∧ (s.tableRun 511).installing = none
       ∧ s.hotHalfFree 511 (s.tableRun 511).half = true
       ∧ ({ s with tables := [] } : State).table? 511 (uAt hotW.payload 12 4) = none ∧ (s.tableRun 511).started = none)
    ∧ (let s : State := { bound511 with tableRuns := [{ id := 511, waiting := some hotW }] }
       (s.tableRun 511).waiting = some hotW ∧ s.hotHalfFree 511 (s.tableRun 511).half = false)
    ∧ (let s := hotS { id := 511, waiting := some hotW }
       s.tableCfg? 511 = some tcfg ∧ (s.tableRun 511).waiting = some hotW ∧ (s.tableRun 511).installing = none
       ∧ (s.tableRun 511).waiting ≠ none ∧ s.hotHalfFree 511 (s.tableRun 511).half = true) := by decide +kernel

/-- CORPUS_SWITCH that asks corpus 15 to merge. -/
def mergeW : Write := { session := 1, msgId := 1, type := 0x29, writeId := 0, kind := 7, obj := 15
                        payload := leBytes 8 0 ++ leBytes 4 15 ++ List.replicate 28 0 }
def ccfg : CorpusCfg :=
  { id := 15, distance := 0, code := 0, dims := 32, slackPct := 0, sideCap := 1, mergeAt := 1, rescore := 0, layoutCols := 4 }
def cver : CorpusVer := { version := 1, base := 0, bytes := 0, segs := 1, ids := 0, fine := 0, mark := 0 }
def corpusS (k : Corpus) (pools : List PoolCfg) : State :=
  { live with cfg := { live.cfg with corpora := [ccfg], pools }, corpora := [k] }
def corpus15 : Corpus := { id := 15, perm := 0 }

theorem test_witness_corpus_merge :
    State.switchMsgOk mergeW.payload = true ∧ (State.switchMsg mergeW.payload).corpus = 15
    ∧ (∀ k ∈ [{ corpus15 with merge := some { build := cver, last := 1 } }, { corpus15 with due := true }, { corpus15 with next := some (cver, false) }],
        (corpusS k []).corpusCfg? 15 = some ccfg ∧ (corpusS k []).corpus? 15 = some k
        ∧ (k.merge.isSome = true ∨ k.due = true ∨ k.next.map (·.2) = some false))
    ∧ (let k := { corpus15 with next := some (cver, true) }
       (corpusS k []).corpus? 15 = some k ∧ k.merge = none ∧ k.due = false ∧ k.next.map (·.2) ≠ some false ∧ k.next.isSome = true)
    ∧ (let k := { corpus15 with current := some cver }
       (corpusS k [pool0]).corpus? 15 = some k ∧ k.next = none ∧ k.current.isSome = true ∧ (corpusS k [pool0]).cfg.pools.any (·.has 0) = false
       ∧ (corpusS k [{ pool0 with kinds := 1 }]).cfg.pools.any (·.has 0) = true) := by decide +kernel

/-- A chunk of 8 bytes of a load of plan 255 of 16 bytes. -/
def loadW (word : Nat) (chunk : Bytes) : Write :=
  { session := 1, msgId := 1, type := 0x31, writeId := 0, kind := 2, obj := 255, payload := leBytes 32 (255 * 2 ^ 118 + word) ++ chunk }

theorem test_witness_load :
    (let w := loadW (16 * 2 ^ 176 + 8 * 2 ^ 216) (List.replicate 8 0)
     let h := uAt w.payload 0 32
     loadHeaderOk w.type w.payload = true ∧ lhRemove h = false ∧ lhFinal h = false ∧ lhOverrides h = 0
     ∧ ({ live with loads := [loading] } : State).loads.find? (fun l => l.type == w.type && l.id == lhId h) = some loading
     ∧ loading.session = w.session ∧ loading.total = lhTotal h ∧ loading.version = lhVersion h ∧ loading.forModel = lhForModel h
     ∧ loading.wrapped = lhWrapped h ∧ loading.final = none ∧ lhTotal h ≠ 0 ∧ lhOffset h + (w.payload.length - 32) ≤ lhTotal h)
    ∧ ({ live with loads := [loading] } : State).loads.find? (fun l => l.type == loadType .plan && l.id == 255) = some loading
    ∧ (let l : Load := { loading with final := some (switchW 0, []) }
       ({ live with loads := [l] } : State).loads.find? (fun l => l.type == loadType .plan && l.id == 255) = some l ∧ l.final = some (switchW 0, []))
    ∧ (let w := loadW (2 ^ 66) []
       let h := uAt w.payload 0 32
       loadHeaderOk w.type w.payload = true ∧ lhRemove h = true
       ∧ live.loads.find? (fun l => l.type == w.type && l.id == lhId h) = none ∧ (live.removeObject w.type (lhId h)).1 = []
       ∧ (({ live with plans := [{ plan0 3 with obj := { (plan0 3).obj with id := 255 } }] } : State).removeObject w.type (lhId h)).1 ≠ []) := by
  decide +kernel

/-- A host's hello, and the states its entry may be in. -/
def helloP : Bytes := List.replicate 88 0
def helloS (s : State) (p : Bytes) : State := { s with delivered := [dl 0 0x60 p] }
def entryS (e : PeerEntry) : State := { live with peers := [(0, e)] }

theorem test_witness_hello :
    (helloS live helloP).delivered.find? (fun d => d.session == 0 && d.type == 0x60 && d.sub == 0 && d.src == host && d.mac == 0 && d.frags.flatten == helloP)
      = some (dl 0 0x60 helloP)
    ∧ live.boot.service = 1 ∧ live.portLive = true ∧ live.works fnPort = true
    ∧ State.helloWhole helloP = true ∧ State.helloWhole (0 :: 0 :: 0 :: 0 :: 0 :: 1 :: helloP) = false
    ∧ (uAt helloP 1 1 = 0 ∧ helloP.length = 88 ∧ uAt helloP 0 1 = 0 ∧ allZero (helloP.drop 40) = true)
    ∧ (live.peers.find? (fun x => x.2.role == 0 && x.2.host == some host)) = none ∧ live.freeHostEntry = some 0
    ∧ (({ live with peers := (List.range 256).map fun i => (i, ({ state := 3, host := some device } : PeerEntry)) } : State).freeHostEntry = none)
    ∧ ((entryS { state := 5, host := some host }).peers.find? (fun x => x.2.role == 0 && x.2.host == some host)).map (·.2.state) = some 5
    ∧ ((entryS { state := 3, host := some host }).peers.find? (fun x => x.2.role == 0 && x.2.host == some host)).map (·.2.state) = some 3
    ∧ (uAt (1 :: helloP) 1 1 = 0 ∧ (1 :: helloP).length ≠ 88 ∧ State.helloWhole (1 :: helloP) = true) ∧ uAt [0, 1] 1 1 ≠ 0 ∧ State.helloWhole [0, 1] = true := by decide +kernel

def devEntry : PeerEntry := { state := 3, role := 2, devIndex := 1, session := 2 }
theorem test_witness_farewells :
    (entryS devEntry).entryOfSession devQ.id = some (0, devEntry) ∧ (entryS devEntry).entry? 0 = some devEntry
    ∧ JoinsOn (entryS devEntry) 0x61 (leBytes 4 0) ∧ (leBytes 4 0).length = 4
    ∧ ∀ kind ∈ [1, 2, 3], JoinsOn (entryS devEntry) 0x63 (leBytes 4 kind ++ leBytes 2 0) ∧ (leBytes 4 kind ++ leBytes 2 0).length = 6
      ∧ uAt (leBytes 4 kind ++ leBytes 2 0) 0 4 = kind := by
  refine ⟨by decide +kernel, by decide +kernel, admits_of (by decide +kernel), by decide +kernel, fun kind h => ?_⟩
  fin_cases h <;> exact ⟨admits_of (by decide +kernel), by decide +kernel⟩

theorem test_witness_heartbeats :
    (AdmitsOn live 0x62 (List.replicate 16 0) false ∧ (List.replicate 16 0 : Bytes).length = 16 ∧ live.entryOfSession hostQ.id = none)
    ∧ (let p := leBytes 8 0 ++ leBytes 8 1
       let s : State := { entryS devEntry with portTicks := 1 }
       JoinsOn s 0x62 p ∧ s.entryOfSession devQ.id = some (0, devEntry) ∧ 0 < uAt p 8 8 ∧ uAt p 8 8 ≤ s.portTicks)
    ∧ (let s := entryS devEntry
       s.entry? 0 = some devEntry ∧ s.session? devEntry.session = some devQ ∧ devEntry.state = 3 ∧ devEntry.session ≠ 0
       ∧ s.boot.service = 1 ∧ s.works fnPort = true
       ∧ s.subs.any (fun p => p.1 == 0 && p.2.up) = true)
    ∧ (live.session? 1 = some hostQ ∧ live.entryOfSession 1 = none ∧ hostQ.opened = true)
    ∧ ((entryS { devEntry with state := 2 }).entry? 0 = some { devEntry with state := 2 } ∧ (entryS devEntry).handshakes = [])
    ∧ (let e : PeerEntry := { state := 4, host := some host }
       (entryS e).entry? 0 = some e ∧ e.role = 0 ∧ e.state = 4) := by
  refine ⟨⟨admits_of ?_, ?_⟩, ⟨admits_of ?_, ?_⟩, ?_⟩ <;> decide +kernel

-- The pair

/-- The device of session 2 as the twin's partner. -/
def pair (role state : Nat) : State :=
  { twinned role state (entryS devEntry) with cfg := { (entryS devEntry).cfg with twin := { (entryS devEntry).cfg.twin with role, partner := 1 } } }
/-- A TWIN message of an operation with a sequence number. -/
def twinMsg (op seq : Nat) (p : Bytes) : Bytes := leBytes 32 (op + 5 * 2 ^ 8 + seq * 2 ^ 32) ++ p

theorem test_witness_twin_tokens :
    (let s := pair 1 2
     JoinsOn s 0x78 (twinMsg 1 0 []) ∧ twinIs 1 (twinMsg 1 0 []) = true ∧ s.twin.state = 2 ∧ s.holdsToken 5 0 = true ∧ s.twin.granting = []
     ∧ twinKind (twinMsg 1 0 []) = 5 ∧ twinObj (twinMsg 1 0 []) = 0)
    ∧ (let s := pair 2 2
       JoinsOn s 0x78 (twinMsg 2 0 []) ∧ twinIs 2 (twinMsg 2 0 []) = true ∧ s.holdsToken 5 0 = false)
    ∧ (let s : State := { pair 1 2 with twin := { (pair 1 2).twin with mirrored := [(7, switchW 0, {})] } }
       let p := twinMsg 4 7 (leBytes 4 0)
       JoinsOn s 0x78 p ∧ twinIs 4 p = true ∧ p.length = 36 ∧ twinSeq p ≠ 0 ∧ s.twin.doneSeq = none
       ∧ s.twin.mirrored.find? (·.1 == twinSeq p) = some (7, switchW 0, {}) ∧ uAt p 32 2 = 0 ∧ uAt p 34 2 = 0 ∧ (switchW 0).session ≠ 0
       ∧ uAt (twinMsg 4 7 (leBytes 4 1)) 32 2 ≠ 0)
    ∧ ((pair 1 2).cfg.twin.role ≠ 0 ∧ (pair 1 2).entryOfDevice (pair 1 2).cfg.twin.partner = some (0, devEntry) ∧ devEntry.state = 3) := by
  refine ⟨⟨admits_of ?_, ?_⟩, ⟨admits_of ?_, ?_⟩, ⟨admits_of ?_, ?_⟩, ?_⟩ <;> decide +kernel

theorem test_witness_twin_mirror_and_copy :
    (let p := twinMsg 3 1 (List.replicate 16 0)
     let s := deliver 2 0x78 p (pair 1 2)
     JoinsOn (pair 1 2) 0x78 p ∧ s.inTurn (msg 2 p) = true ∧ twinIs 3 p = true ∧ twinSeq p = s.twin.mirrorIn + 1 ∧ s.twin.state = 2
     ∧ s.twin.copy = none ∧ s.tables = [])
    ∧ (let p := twinMsg 5 0 (leBytes 8 0 ++ leBytes 8 9 ++ List.replicate 8 0)
       let s := deliver 2 0x78 p (pair 1 1)
       JoinsOn (pair 1 1) 0x78 p ∧ s.inTurn (msg 2 p) = true ∧ twinIs 5 p = true ∧ 48 ≤ p.length ∧ s.twin.state = 1 ∧ s.twin.copy = none ∧ uAt p 32 8 = 0
       ∧ p.length - 48 < uAt p 40 8)
    ∧ (let p := twinMsg 5 0 (leBytes 8 0 ++ leBytes 8 8 ++ List.replicate 8 0)
       (deliver 2 0x78 p (pair 1 1)).inTurn (msg 2 p) = true ∧ twinIs 5 p = true ∧ uAt p 40 8 ≤ p.length - 48)
    ∧ (let p := twinMsg 6 1 (leBytes 8 0)
       let s := deliver 2 0x78 p (pair 1 1)
       JoinsOn (pair 1 1) 0x78 p ∧ s.inTurn (msg 2 p) = true ∧ twinIs 6 p = true ∧ s.twin.state = 1 ∧ twinSeq p = s.twin.mirrorIn + 1 ∧ s.twin.forwarded = [])
    ∧ (let s : State := { pair 1 1 with twin := { (pair 1 1).twin with syncing := true } }
       s.twin.syncing = true ∧ s.liveDevice s.cfg.twin.partner = true ∧ s.twin.doneSeq = none ∧ s.twin.copy = none ∧ s.twin.syncTodo = []
       ∧ ∃ c, ({ s with twin := { s.twin with copy := some c } } : State).twin.copy = some c) := by
  refine ⟨⟨admits_of ?_, ?_⟩, ⟨admits_of ?_, ?_⟩, ?_, ⟨admits_of ?_, ?_⟩, ?_, ?_, ?_, ?_, ?_, ⟨{ kind := 0, obj := 0, total := 0, bytes := [] }, rfl⟩⟩
    <;> decide +kernel

-- Work items

/-- A work-item record of an opcode with its used slots and its immediates. -/
def wi (op : Nat) (used imms : List Nat) : Nat :=
  op + ((List.range 12).map fun n => (if used.contains n then n else 0xFFFF) * 2 ^ (64 + 16 * n)).sum
  + (imms.zipIdx.map fun (v, n) => v * 2 ^ (512 + 32 * n)).sum
/-- A running work item whose input slots all delivered the same bytes. -/
def runX (op : Nat) (used imms : List Nat) (bs : Bytes) : Running :=
  { item := { req := 4095, reqOrder := 1, stage := 0, template := 65535, plan := 1, pool := 0, wi := wi op used imms, descs := [] }
    run := 0, fetched := (List.range 8).map fun n => (n, bs) }
/-- The device with the request and a work item that runs on tile 0. -/
def onTile (x : Running) : State := { withReq req0 (served 3) with tiles := [(0, { running := some x })] }

def runsB (s : State) (t code : Nat) (text : Bool) : Bool :=
  match s.running? t code with
  | none => false
  | some x => match State.readSlots (s.ioFor t x.item) x (slotsRead text x.item.wi) s with
    | (.ok _, _) => true
    | _ => false
theorem runs_of {s : State} {t code : Nat} {text : Bool} (h : runsB s t code text = true) : ∃ x bs u, s.Runs t code text x bs u := by
  unfold runsB at h
  cases hr : s.running? t code with
  | none => simp [hr] at h
  | some x =>
    rcases hq : State.readSlots (s.ioFor t x.item) x (slotsRead text x.item.wi) s with ⟨_ | bs, u⟩
    · simp [hr, hq] at h
    · exact ⟨x, bs, u, ⟨hr, hq⟩⟩

/-- The opcodes of the work items that act on the bytes of their slots, and whether they read slot 0 alone. -/
def itemCodes : List (Nat × Bool) :=
  [(0x00, false), (0x01, false), (0x02, false), (0x03, false), (0x10, false), (0x11, false), (0x12, false), (0x20, false), (0x21, false),
   (0x22, false), (0x23, false), (0x24, false), (0x25, false), (0x26, false), (0x27, false), (0x28, false), (0x30, false), (0x31, false),
   (0x32, false), (0x33, false), (0x34, false), (0x35, false), (0x36, false), (0x40, false), (0x41, false), (0x42, false), (0x43, false),
   (0x44, false), (0x45, false), (0x50, false), (0x61, true), (0x62, true), (0x63, true), (0x64, true), (0x65, true), (0x66, false)]
theorem items_run : (itemCodes.all fun r => runsB (onTile (runX r.1 [0, 8] [] [])) 0 r.1 r.2) = true := by decide +kernel
/-- Every such work item runs somewhere. -/
theorem test_witness_items_run :
    ∀ r ∈ itemCodes, ∃ x bs u, (onTile (runX r.1 [0, 8] [] [])).Runs 0 r.1 r.2 x bs u :=
  fun r h => runs_of (List.all_eq_true.mp items_run r h)

/-- A stream of one byte outside all memory. -/
def noDesc : Nat := 0x7FFFFFFFFFFF + 1 * 2 ^ 48 + 1 * 2 ^ 408
def faulty : Running := { runX 0x40 [0, 8] [] [] with fetched := [], slots := [(0, noDesc)] }
theorem test_witness_stream_fault :
    itemRow (.copy 0) = some (0, 0x40, false) ∧ (onTile faulty).wheelAt 0 = none ∧ (served 3).running? 0 0x40 = none
    ∧ (onTile faulty).running? 0 0x40 = some faulty
    ∧ (match State.readSlots ((onTile faulty).ioFor 0 faulty.item) faulty (slotsRead false faulty.item.wi) (onTile faulty) with
      | (.error f, _) => decide (0 < f ∧ f < 8)
      | _ => false) = true
    ∧ faulty.item.template < 65536 ∧ faulty.item.stage < 512 ∧ faulty.item.req < 4096 := by decide +kernel

theorem test_witness_signals :
    (withReq req0 live).req? 4095 = some req0 ∧ 15 < req0.signals.length := by decide +kernel

def barrier0 (values tiles : List Nat) (released : Bool) : BarrierSlot :=
  { req := 4095, stage := 0, number := 3, need := 1, op := 1, values, tiles, released }
theorem test_witness_barrier :
    (let s : State := { live with pools := [(7, { barriers := List.replicate 63 (barrier0 [] [] false) ++ [barrier0 [9] [0] false] })] }
     (s.pool 7).barriers[63]? = some (barrier0 [9] [0] false) ∧ (barrier0 [9] [0] false).values.length = 1 ∧ (s.pool 7).barriers[0]? = some (barrier0 [] [] false))
    ∧ (let x := { runX 0x01 [] [3] [] with waits := 1 }
       let b := barrier0 [9] [0] true
       let s : State := { onTile x with pools := [(0, { barriers := [b] })] }
       (s.tile 0).running = some x ∧ wOpcode x.item.wi = 0x01 ∧ x.waits = 1
       ∧ (s.pool x.item.pool).barriers.find? (fun b => b.req == x.item.req && b.stage == x.item.stage && b.number == wImm x.item.wi 0 && b.released
           && b.tiles.contains 0) = some b ∧ b.op = 1 ∧ combine b.op b.values = 9) := by decide +kernel

theorem test_witness_leat_send :
    ([] : Bytes).length = 0 ∧ 256 < (List.replicate 257 0 : Bytes).length ∧ 0 < ([0] : Bytes).length ∧ (List.replicate 256 0 : Bytes).length ≤ 256 := by
  decide +kernel

theorem test_witness_softmax_and_dist :
    wUses (wi 0x25 [0, 8] []) 1 = false ∧ (onTile (runX 0x12 [0, 8] [] [])).wheelAt 0 = none := by decide +kernel

theorem test_witness_integer_sums :
    ∀ x ∈ [2 ^ 31 - 1, 1, -(2 ^ 31)], -(2 ^ 31) ≤ (x : Int) ∧ x ≤ 2 ^ 31 - 1 := by decide
theorem test_witness_integer_sums_beyond : 2 ^ 31 - 1 < ([2 ^ 31 - 1, 1] : List Int).sum ∧ ([-(2 ^ 31), -1] : List Int).sum < -(2 ^ 31) := by decide

theorem test_witness_mx :
    let one : W32 := 0x3F800000#32
    (∀ f ∈ [4, 5, 6, 7, 8, 9], isMx f = true) ∧ (List.replicate 32 one).length = 32
    ∧ f32Val 0x7FC00000#32 = .nan ∧ f32Val 0xFF800000#32 = .inf true ∧ f32Val 0#32 = .fin false 0 (-149)
    ∧ f32Val one = .fin false 8388608 (-23) ∧ (Nat.log2 (8388608 : Int).natAbs : Int) + (-23) = 0 := by decide +kernel

/-- Scores of 1.0 and a NaN in two lists of one, with ids. -/
def oneP : Bytes := leBytes 4 0x3F800000
theorem test_witness_bolter :
    (wImm (wi 0x30 [0, 8] [1, 0, 0]) 2 = 0
      ∧ (match topkOp (wi 0x30 [0, 8] [1, 0, 0]) 0 oneP [] [] with | .ok _ => true | _ => false) = true)
    ∧ sidesOk (wi 0x30 [0, 1, 8] [1, 0, 0]) 1 [] [] = false
    ∧ (4 * wImm (wi 0x33 [0, 8] [1]) 0 ≤ oneP.length ∧ wUses (wi 0x33 [0, 8] [1]) 1 = false)
    ∧ (match mergeOp (wi 0x35 [0, 8] [1, 0]) [List.replicate 32 0] with | .ok _ => true | _ => false) = true := by decide +kernel

/-- A selection slot of one group, its member on tile 0. -/
def select0 (d : Decision) (arrived flying : List Nat) : SelectSlot :=
  { req := 4095, reqOrder := 1, stage := 0, group := 65535, size := 1, k := 1, collective := 0, arrived, flying, decision := d }
def selecting (g : SelectSlot) (x : Running) : State := { onTile x with pools := [(0, { selects := [g] })] }
def member (waits : Nat) : Running := { runX 0x30 [0, 1, 8] [1, 0, 65535 * 2 ^ 16 + 1, 0] oneP with waits }
theorem test_witness_selection :
    (let s := selecting (select0 { kind := 0, round := 1 } [] []) (member 0)
     runsB s 0 0x30 false = true ∧ wImm (member 0).item.wi 2 ≠ 0 ∧ s.selectAt (member 0).item (fld (wImm (member 0).item.wi 2) 31 16) = some 0
     ∧ oneP.length < 8 * 1 ∧ 8 * 1 ≤ (oneP ++ oneP).length)
    ∧ (let g := select0 { kind := 0, round := 1 } [0] []
       let s := selecting g (member 2)
       (s.pool 0).selects[0]? = some g ∧ g.group < 65536 ∧ 0 < g.size ∧ g.arrived.length = g.size ∧ s.groupColl g = none
       ∧ (select0 { kind := 0, round := 1 } [] []).arrived.length ≠ g.size)
    ∧ (∀ g ∈ [select0 { kind := 0, round := 2 } [] [0], select0 { kind := 1, round := 1 } [] [0]],
       let s := selecting g (member 2)
       (s.tile 0).running = some (member 2) ∧ wOpcode (member 2).item.wi = 0x30 ∧ (member 2).waits = 2
       ∧ s.selectAt (member 2).item (fld (wImm (member 2).item.wi 2) 31 16) = some 0 ∧ (s.pool 0).selects[0]? = some g ∧ 0 ∈ g.flying ∧ s.collectives = [])
    ∧ ([((0 : Nat), ([] : List Cand))].length = 1 ∧ [((0 : Nat), ([] : List Cand))].length ≠ ({ select0 { kind := 1, round := 1 } [] [0] with size := 2 }).size) := by
  decide +kernel

/-- A coalescing batch of one bag and no index (R202), and one that is not well formed. -/
def batch0 : Bytes := leBytes 64 (0x4B4F4F4C + 64 * 2 ^ 32 + 72 * 2 ^ 64 + 1 * 2 ^ 128) ++ leBytes 8 (511 * 2 ^ 48)
def coalesceX (bs : Bytes) (members : Nat) : Running := runX 0x50 [0, 8] [511, 0, 65535 * 2 ^ 16 + members, 0] bs
def coalesceS (x : Running) : State :=
  { onTile x with pools := [(0, { selects := [{ select0 { kind := 0, round := 1 } [] [] with group := 65536 + 65535 }] })]
                  cfg := { (served 3).cfg with tables := [tcfg] } }
theorem test_witness_coalesce :
    (let s := coalesceS (coalesceX [] 2)
     runsB s 0 0x50 false = true ∧ (match readBatch (fun i => (s.tableCfg? i).map (·.rows)) [] with | .error _ => true | _ => false) = true)
    ∧ (let x := coalesceX batch0 2
       let s := coalesceS x
       runsB s 0 0x50 false = true ∧ (match readBatch (fun i => (s.tableCfg? i).map (·.rows)) batch0 with | .ok _ => true | _ => false) = true
       ∧ wImm x.item.wi 0 ≠ 0xFFFF ∧ s.selectAt x.item (65536 + fld (wImm x.item.wi 2) 31 16) = some 0
       ∧ ((s.setRunning 0 fun y => { y with waits := 3 }).coalesceMembers 0 0).length < fld (wImm x.item.wi 2) 15 0)
    ∧ (let x := coalesceX batch0 1
       let s := coalesceS x
       fld (wImm x.item.wi 2) 15 0 ≤ ((s.setRunning 0 fun y => { y with waits := 3 }).coalesceMembers 0 0).length) := by decide +kernel

/-- A pooling work item over a bag map of one empty bag at address 0; it writes from address 128 on. -/
def poolX (mode : Nat) : Running :=
  { runX (0x51 + mode + 12 * 2 ^ 10 + 12 * 2 ^ 18) [0, 8] [32] [] with handles := [hbmHandle 0 16 0], slots := [(0, 0), (8, 128)] }
def poolS (mode : Nat) : State := { onTile (poolX mode) with mem := Memory.writeN [] 0 (leBytes 16 (2 ^ 63)) }
theorem test_witness_pooling :
    ∀ mode ∈ [0, 1, 2], (poolS mode).running? 0 (0x51 + mode) = some (poolX mode)
      ∧ (poolX mode).handles.head? = some (hbmHandle 0 16 0) ∧ (poolS mode).shapeOk (poolX mode).item (hbmHandle 0 16 0) = true
      ∧ (match (poolS mode).ioRead ((poolS mode).ioFor 0 (poolX mode).item) 0 .hbm 0 16 with
        | (.ok bs, u) => (match State.poolBags ((poolS mode).ioFor 0 (poolX mode).item) 0 (poolX mode) mode 128
            (State.readChunk ((chunks 16 bs).map leNat)) u with
          | (.ok (p :: ps), _) => inHbm ((ps.map Prod.fst).foldl min p.1)
          | _ => false)
        | _ => false) = true
      ∧ targetOf (handleAddr (hbmHandle 0 16 0)) = .hbm ∧ handleAddr (hbmHandle 0 16 0) = 0 ∧ handleBytes (hbmHandle 0 16 0) = 16
      ∧ State.poolStride (wAFmt (poolX mode).item.wi) (wImm (poolX mode).item.wi 0) = 128 := by decide +kernel

-- Text

def tok0 : TokCfg :=
  { id := 15, vocab := 1, maxPiece := 1, invalid := 0, lMax := 8, truncate := 0, unkId := 0, unkScore := 0, byteBase := none32, byteScore := 0
    bos := none32, eos := none32, walkTiles := 1, charMap := [], trie := [], pieces := [] }
def textReq : Request :=
  { req0 with tokeniser := some 15, texts := [(0, 0, [])], emitted := some 0, grammar := some (0, 9) }
def textS (x : Running) : State :=
  { onTile x with reqs := [(4095, textReq)], cfg := { (served 3).cfg with toks := [tok0] }
                  grammars := [{ obj := { kind := 4, id := 0, key := 9 }, tokeniser := 15, states := 1, vocab := 1, start := 0, offStates := 0
                                 offMasks := 0, offTrans := 0 }] }
/-- NORMALISE of one handle of a field in HBM, in a mode: 1 replaces ill-formed subparts, 2 rejects the field. -/
def normX (mode h : Nat) : Running := { runX 0x60 [0, 1, 8] [mode] [] with handles := [h] }
def normS (x : Running) (first : Byte) : State := { textS x with mem := Memory.writeN [] 0 [first] }
def normRead (s : State) (x : Running) (h : Nat) : Option Bytes :=
  match s.ioRead (s.ioFor 0 x.item) (dHint (State.slotDesc x 0)) (targetOf (handleAddr h)) (handleAddr h) (handleBytes h) with
  | (.ok bs, _) => some bs
  | _ => none
def charsOf (bs : Bytes) : List (Nat × Bool) := (utf8Scan true bs.length bs).1
/-- Its table delivers what the mapping of a text reads. -/
def mapped (s : State) (x : Running) (bs : Bytes) : Bool :=
  (State.touchTable (s.ioFor 0 x.item) (dHint (State.slotDesc x 1)) (dBase (State.slotDesc x 1))
    ((charsOf bs).flatMap fun c => charMapReads (s.tableRd x 1) c.1).eraseDups s).1.isNone
theorem test_witness_normalise :
    (∀ h ∈ [hbmHandle 0 16 0, setLast (hbmHandle 0 16 0)], handlePoison h = false ∧ live.handleFault h = none ∧ handleBytes h ≤ 1048576 ∧ handleTag h ≠ 1)
    ∧ handleLast (hbmHandle 0 16 0) = false ∧ handleLast (setLast (hbmHandle 0 16 0)) = true
    ∧ (let h := setLast (hbmHandle 0 16 0)
       let x := normX 2 h
       let s := normS x 0xFF
       s.running? 0 0x60 = some x ∧ x.handles[x.round]? = some h ∧ wImm x.item.wi 0 = 2
       ∧ normRead s x h = some (0xFF :: List.replicate 15 0) ∧ replacedIn (charsOf (0xFF :: List.replicate 15 0)) ≠ 0)
    ∧ (∀ mode ∈ [1, 2], let h := setLast (hbmHandle 0 16 0)
       let x := normX mode h
       let s := normS x 0x41
       s.running? 0 0x60 = some x ∧ normRead s x h = some (0x41 :: List.replicate 15 0)
       ∧ replacedIn (charsOf (0x41 :: List.replicate 15 0)) = 0 ∧ mapped s x (0x41 :: List.replicate 15 0) = true)
    ∧ (let h := hbmHandle 0 16 0
       let x := normX 1 h
       let y := { x with bytes := 0x41 :: List.replicate 15 0, round := 1 }
       let s := normS x 0x41
       let w := s.setRunning 0 fun y => { y with bytes := 0x41 :: List.replicate 15 0, round := y.round + 1 }
       s.running? 0 0x60 = some x ∧ normRead s x h = some (0x41 :: List.replicate 15 0) ∧ w.running? 0 0x60 = some y ∧ y.handles[y.round]? = none
       ∧ (w.live? y.item.req y.item.reqOrder).isSome = true ∧ w.dequeue 0 y.item = some []) := by decide +kernel

/-- A table delivers some of its bytes. -/
def touches (s : State) (x : Running) (reads : List (Nat × Nat)) : Bool :=
  (State.touchTable (s.ioFor 0 x.item) (dHint (State.slotDesc x 1)) (dBase (State.slotDesc x 1)) reads.eraseDups s).1.isNone
theorem test_witness_text :
    (let x := runX 0x61 [0, 1, 8] [] []
     let s := textS x
     runsB s 0 0x61 true = true ∧ s.itemTok x.item = some tok0 ∧ s.fieldOf x.item = some (0, []) ∧ touches s x [(0, 64)] = true)
    ∧ (let x := runX 0x62 [0, 8] [] []
       let s := textS x
       runsB s 0 0x62 true = true ∧ s.itemTok x.item = some tok0 ∧ s.fieldOf x.item = some (0, []) ∧ s.walkMembers x.item = 1
       ∧ segment tok0 [] (sortBy (fun (a b : Nat × List Nat) => decide (a.1 ≤ b.1)) (readGroups (charStarts 0 0 []) (words64 []))) = some [])
    ∧ (let x := runX 0x63 [0, 1, 8] [] (leBytes 4 0)
       let s := textS x
       runsB s 0 0x63 true = true ∧ s.itemTok x.item = some tok0 ∧ s.itemRepeats x.item = false ∧ (∀ n ∈ words32 (leBytes 4 0), n < tok0.vocab)
       ∧ touches s x [(0, 8)] = true)
    ∧ (let x := runX 0x64 [0, 8] [] []
       let s := textS x
       runsB s 0 0x64 true = true ∧ s.req? x.item.req = some textReq ∧ textReq.emitted = some 0)
    ∧ (let x := runX 0x65 [0, 1, 8] [] (leBytes 4 0)
       let s := textS x
       runsB s 0 0x65 true = true ∧ s.req? x.item.req = some textReq ∧ textReq.grammar = some (0, 9) ∧ (s.grammarKey? 9).isSome = true)
    ∧ (let x := runX 0x65 [0, 1, 8] [] (leBytes 4 0)
       let s := onTile x
       runsB s 0 0x65 true = true ∧ s.req? x.item.req = some req0 ∧ req0.grammar = none) := by
  decide +kernel

/-- Templates of one fixed slot: of no token, and of one. -/
def template0 : Bytes := leBytes 32 (0x4C504D54 + 2 ^ 32) ++ List.replicate 16 0
def template1 : Bytes := leBytes 32 (0x4C504D54 + 2 ^ 32 + 2 ^ 64) ++ leBytes 16 (2 ^ 80) ++ leBytes 4 7
theorem test_witness_pack :
    (let x := runX 0x66 [0, 1, 2, 8] [0] template0
     runsB (onTile x) 0 0x66 false = true ∧ readTemplate template0 = some { slots := [0], pool := [] }
     ∧ ({ slots := [0], pool := [] } : PackTemplate).kind? 2 = none
     ∧ words32 (slice template0 32 (4 * uAt template0 8 4)) = [] ∧ (tsRun1 0).2 = 0
     ∧ (match State.readPlaced ((onTile x).ioFor 0 x.item) [] (onTile x) with | (.ok [], _) => true | _ => false) = true)
    ∧ (let x := runX 0x66 [0, 1, 2, 8] [0] template1
       let p : PackTemplate := { slots := [2 ^ 80], pool := [7] }
       runsB (onTile x) 0 0x66 false = true ∧ readTemplate template1 = some p ∧ p.kind? 1 = none ∧ tsKind (2 ^ 80) = 0 ∧ (tsRun1 (2 ^ 80)).2 = 1) := by
  decide +kernel

-- Handles, rings, payloads

def flight (credit : Bool) : SluiceFlight := { src := 0, dst := 1, queue := 31, entry := { handle := 0, req := 0, reqOrder := 0 }, run := 0, credit }
/-- A ring descriptor of ring 15 with four slots of one byte in tile 1's memory, from an offset on, and a stream that fills it. -/
def ringDesc (offset : Nat) : Nat := 0x800000100000 + offset + 1 * 2 ^ 48 + 2 * 2 ^ 120 + 2 * 2 ^ 408 + 3 * 2 ^ 454 + 15 * 2 ^ 458
def ringX : Running := { runX 0x40 [0, 8] [] [] with fetched := [], slots := [(0, ringDesc 0)], toFetch := [0] }
def ringKey : Nat × Nat := State.stageKey ringX.item
def producer (offset credits : Nat) (fills : List Bytes) : Producer :=
  { tile := 1, desc := ringDesc offset, gang := 0, key := ringKey, fills, credits, run := 0 }
def closing0 : Closing := { x := ringX, fault := 0, flags := 0, aux := 0, rejected := false, spans := [] }
def ring15 (head tail : Nat) : Machine.Ring := { id := 15, owner := ringKey, head, tail }
def ringS (x : Producer) (tail : Nat) : State :=
  { served 3 with tiles := [(0, { producers := [x], closing := [closing0] }), (1, { rings := [ring15 0 tail] })] }
def credit0 : SluiceCredit := { src := 0, dst := 1, queue := 31 }
theorem test_witness_handles :
    (let s : State := { live with sluiceFlights := [flight true] }
     s.sluiceFlights[0]? = some (flight true) ∧ (flight true).credit = true ∧ s.overtakes 0 1 0 = false)
    ∧ (let s : State := { live with sluiceFlights := [flight false], sluiceCredits := [credit0], ringCredits := [(0, 1, 15)] }
       s.sluiceCredits[0]? = some credit0 ∧ s.overtakes credit0.dst credit0.src credit0.sent = false
       ∧ s.sluiceFlights.any (fun f => f.src == 0 && f.dst == 1 && f.queue == 31 && !f.credit) = true ∧ s.ringCredits[0]? = some (0, 1, 15)) := by
  decide +kernel

def fillResult (s : State) (x : Producer) : Option Nat × State :=
  s.writeAt { tile := 0, pool := closing0.x.item.pool, req := closing0.x.item.req } x.gang (State.innerOf x.desc)
    (dBase x.desc + (((s.ringOf 1 15 x.key).2 % (dRingSlots x.desc + 1) : Nat) : Int) * dStride x.desc (dNdim x.desc - 1)) [7]
theorem test_witness_ring_fill :
    (∀ fills ∈ [[[7], [8]], [[7]]], let x := producer 0 1 fills
      let s := ringS x 3
      s.producerOf 1 15 = some (0, 0, x) ∧ s.closingOf 0 x.run = some closing0 ∧ x.fills.head? = some [7]
      ∧ (s.ringOf 1 15 x.key).2 < (s.ringOf 1 15 x.key).1 + (dRingSlots x.desc + 1) ∧ x.credits ≠ 0 ∧ (fillResult s x).1 = none)
    ∧ (producer 0 0 [[7]]).credits = 0
    ∧ (let s := ringS (producer 0 1 [[7]]) 4
       (s.ringOf 1 15 ringKey).1 + (dRingSlots (producer 0 1 [[7]]).desc + 1) ≤ (s.ringOf 1 15 ringKey).2)
    ∧ (let x := producer 393216 1 [[7]]
       let s := ringS x 0
       s.producerOf 1 15 = some (0, 0, x) ∧ (fillResult s x).1.isSome = true) := by decide +kernel

/-- A work item on tile 1 that reads ring 15 of four slots through slot 0, one fill being there. -/
def ringReadS : State := { served 3 with tiles := [(1, { running := some ringX, rings := [ring15 0 1] })], reqs := [(4095, req0)] }
theorem test_witness_ring_release :
    let d := ringDesc 0
    (ringReadS.tile 1).running = some ringX
    ∧ ringX.slots.find? (fun p => ringX.toFetch.contains p.1 && decide (2 ≤ dRingSlots p.2) && dRingId p.2 == 15) = some (0, d)
    ∧ (ringReadS.ringOf 1 15 ringKey).1 < (ringReadS.ringOf 1 15 ringKey).2
    ∧ (let s : State := { ringReadS with tiles := [(1, { running := some ringX, rings := [ring15 1 1] })] }
       (s.ringOf 1 15 ringKey).2 ≤ (s.ringOf 1 15 ringKey).1)
    ∧ (match ringReadS.readUnits (ringReadS.ioFor 1 ringX.item) 0 (targetOf (dBase d))
          (dBase d + (((ringReadS.ringOf 1 15 ringKey).1 % (dRingSlots d + 1) : Nat) : Int) * dStride d (dNdim d - 1)) (dUnit d)
          (streamOffsets (State.innerOf d) none) with
      | (.ok bs, _) => decide (bs.length = 1)
      | _ => false) = true := by decide +kernel

def leat (queue : Option Nat) (dsts : List Nat) (sent : Nat) : LeatFlight :=
  { src := 0, dsts, offset := 0, bytes := [1], queue, req := 4095, reqOrder := 1, run := 0, sent, use := .plain }
theorem test_witness_payloads :
    (let s : State := { onTile (runX 0 [] [] []) with leats := [leat none [1] 0, leat (some 31) [1] 1] }
     (s.leatArrives 0 1).map (fun x => decide (x.1 = leat none [1] 0 ∧ x.1.use = .plain)) = some true
     ∧ s.leats[1]? = some (leat (some 31) [1] 1) ∧ (∃ g ∈ s.leats.take 1, g.src = (leat (some 31) [1] 1).src ∧ 1 ∈ g.dsts)
     ∧ 2 ∉ (leat none [1] 0).dsts ∧ s.overtakes 0 1 0 = false ∧ s.overtakes 0 1 1 = true)
    ∧ (let s : State := { onTile (runX 0 [] [] []) with leats := [leat (some 31) [1] 0] }
       (s.leatArrives 0 1).any (fun x => decide (x.1.use = .plain ∧ x.1.queue = some 31)
         && ((x.2.tileWrite (some x.1.req) (tileWindow 1 + x.1.offset) x.1.bytes).2.live? x.1.req x.1.reqOrder).isSome) = true)
    ∧ (let s : State := { served 3 with leats := [leat (some 31) [1] 0] }
       (s.leatArrives 0 1).any (fun x => decide (x.1.use = .plain ∧ x.1.queue = some 31)
         && ((x.2.tileWrite (some x.1.req) (tileWindow 1 + x.1.offset) x.1.bytes).2.live? x.1.req x.1.reqOrder).isNone) = true) := by
  refine ⟨⟨?_, ?_, ⟨leat none [1] 0, ?_, ?_, ?_⟩, ?_⟩, ?_⟩ <;> decide +kernel

theorem test_witness_remote_read :
    let x := { runX 0x40 [0, 8] [] [] with fetched := [], slots := [(0, 0x800000100000 + 1 * 2 ^ 48 + 1 * 2 ^ 408)], toFetch := [0] }
    let s : State := { onTile x with remoteReads := [{ reader := 0, slot := 0 }] }
    s.remoteReads[0]? = some { reader := 0, slot := 0 } ∧ (s.tile 0).running = some x ∧ 0 ∈ x.toFetch
    ∧ (match State.readStream (s.ioFor 0 x.item) (State.slotDesc x 0) none { s with remoteReads := s.remoteReads.eraseIdx 0 } with
      | (.ok _, _) => true | _ => false) = true := by decide +kernel

theorem test_witness_flits_and_lines :
    (live.boot.service = 1 ∧ live.power.state ≤ 1)
    ∧ (∀ k ∈ [14, 15], let s : State := { live with errors := { live.errors with flitFails := [(2047, 3, k)] } }
       (s.errors.flitFails.find? fun f => f.1 == 2047 && f.2.1 == 3).map (·.2.2 + 1) = some (k + 1))
    ∧ (0x14000000000 / 64 - 1 ∉ live.errors.badLines ∧ (withReq req0 live).req? 4095 = some req0)
    ∧ (let s := onTile (runX 0 [] [] [])
       (s.tile 0).running.isSome = true ∧ s.workTile 0 = true ∧ s.poolOf 0 = some 0 ∧ s.wheelTile 0 = false) := by decide +kernel

-- The Hopper

def record0 : Completion := { record := 4095 * 2 ^ 52, reqOrder := 1, run := 5, tile := 0, pool := 0, opcode := 0 }
def handoff0 (opcode : Nat) : Handoff := { req := 4095, reqOrder := 1, run := 5, opcode, hand := { stage := 0, template := 0, order := 0, handle := 0 } }
theorem test_witness_hopper :
    (let q := { req0 with deadline := some 0 }
     (withReq q live).req? 4095 = some q ∧ q.deadline = some 0 ∧ q.status = none)
    ∧ (let s : State := { withReq req0 live with completions := [record0] }
       s.completions[0]? = some record0 ∧ s.runFlying record0 = false
       ∧ ({ s with handoffs := [handoff0 0x40] } : State).runFlying record0 = true)
    ∧ (let s : State := { withReq req0 (served 3) with handoffs := [handoff0 0x40] }
       s.handoffs[0]? = some (handoff0 0x40)
       ∧ (s.handoffs.take 0).any (fun g => g.run == (handoff0 0x40).run && g.reqOrder == (handoff0 0x40).reqOrder) = false
       ∧ s.req? 4095 = some req0 ∧ ((s.stageOf req0 0).map (·.repeats)) ≠ some true
       ∧ req0.order = (handoff0 0x40).reqOrder ∧ req0.status = none ∧ s.handsFull req0 req0.hands 0 = false ∧ (handoff0 0x40).opcode ≠ 0x36
       ∧ ({ req0 with status := some 1 } : Request).status ≠ none)
    ∧ (let q := { req0 with writeback := true }
       (withReq q live).req? 4095 = some q ∧ q.writeback = true ∧ q.status = none)
    ∧ (let q := { req0 with copying := true, reuse := some 1 }
       let s : State := { withReq q live with prefixes := [prefix0] }
       s.req? 4095 = some q ∧ q.copying = true ∧ q.status = none ∧ s.prefixes.find? (fun p => some p.handle == q.reuse) = some prefix0
       ∧ prefix0.partialPages.find? (fun a => s.hasBadLine a 0) = none) := by decide +kernel
/-- A stage's hand-offs fill the table of the stage after it. -/
theorem test_witness_hands_full :
    let q := { req0 with stages := [{ stage := 0, pool := 0 }, { stage := 1, pool := 0 }]
                         hands := List.replicate 256 { stage := 0, template := 0, order := 0, handle := 0 } }
    let s : State := { served 3 with plans := [{ plan0 3 with stages := [stage 3, { stage 3 with preds := [0] }] }] }
    q.order = 1 ∧ q.status = none ∧ s.handsFull q q.hands 0 = true := by decide +kernel

/-- A handle of a shared work item of a REPEAT stage goes to the step. -/
theorem test_witness_shared_handoff :
    let d : DecodeStep := { pool := 0, model := 0, plan := 1, leader := 4095, leaderOrder := 1 }
    let s : State := { withReq req0 (served 5) with
      plans := [{ plan0 5 with stages := [{ stage 5 with repeats := true }] }], handoffs := [handoff0 0x40], steps := [d] }
    (s.stageOf req0 0).map (·.repeats) = some true ∧ ((s.planOf req0).bind fun p => p.items[0]?.map perRequest) = some false
    ∧ s.stepOf 4095 1 = some d ∧ ({ s with steps := [] } : State).stepOf 4095 1 = none := by decide +kernel

/-- A NOP in a local queue, and a tile that starts an item of no queue. -/
def nop0 : Item := (runX 0 [] [] []).item
def queued (i : Item) : State := { withReq req0 (served 3) with tiles := [(0, { queue := [i] })] }
/-- A model with a pinned region over a bad line, of a request in a DECODE stage. -/
def pinned : State :=
  let m : Model := { obj := { kind := 1, id := 0, key := 5 }, tokeniser := 0, layers := 1, kvTokenBytes := 1, ctxMax := 1, chunk := 1, piggyback := 0
                     batchMax := 1, ctxTileBytes := 64, regions := [{ hint := 1, isSliced := false, base := 0, held := 64, decoded := 64, coded := false }] }
  { withReq { req0 with model := some (0, 5) } (served 5) with
    models := [m], tiles := [(0, { queue := [nop0] })], errors := { live.errors with badLines := [0] } }
theorem test_witness_tiles :
    (let s := withReq req0 (served 3)
     s.poolOf 0 = some 0 ∧ s.workTile 0 = true ∧ (s.tile 0).queue.length < 8 ∧ (s.tile 0).queue = []
     ∧ ((s.adoptWeights 0).pool 0).queue.filter ((s.adoptWeights 0).itemReady 0) = [])
    ∧ (∀ woken ∈ [true, false], let s : State := { withReq req0 (served 3) with tiles := [(0, { idle := true, woken }), (1, { queue := List.replicate 8 nop0 })] }
       s.workTile 0 = true ∧ (s.tile 0).idle = true ∧ (s.tile 0).queue = [] ∧ (s.tile 0).woken = woken ∧ (s.stealOrder 0)[(s.tile 0).steal]? ≠ none
       ∧ (s.tile 0).steal < (s.stealOrder 0).length)
    ∧ (let s : State := { withReq req0 (served 3) with tiles := [(0, { idle := true, woken := true, steal := 128 })] }
       s.workTile 0 = true ∧ (s.tile 0).idle = true ∧ (s.tile 0).queue = [] ∧ (s.tile 0).woken = true ∧ (s.stealOrder 0).length ≤ (s.tile 0).steal)
    ∧ (let s := queued nop0
       (s.tile 0).queue = nop0 :: [] ∧ (s.tile 0).running = none ∧ s.workTile 0 = true ∧ s.dequeue 0 nop0 = some []
       ∧ (State.swapContext 0 nop0 s).1 = none ∧ ((State.swapContext 0 nop0 s).2.placeSlots 0 nop0 []).2.2 = 0
       ∧ ([] ++ nop0.inHandles.map Prod.snd).any handlePoison = false)
    ∧ (let i := { nop0 with wi := wi 0x60 [0, 8] [] + 2 ^ 317 }
       (queued i).dequeue 0 i = none)
    ∧ (let i := { nop0 with inHandles := [(0, 2 ^ 61)] }
       (queued i).dequeue 0 i = some [] ∧ ((State.swapContext 0 i (queued i)).2.placeSlots 0 i []).2.2 = 0
       ∧ (i.inHandles.map Prod.snd).any handlePoison = true)
    ∧ (let i := { nop0 with wi := wi 0x40 [0, 8] [] }
       (queued i).dequeue 0 i = some [] ∧ ((State.swapContext 0 i (queued i)).2.placeSlots 0 i []).2.2 ≠ 0)
    ∧ (pinned.dequeue 0 nop0 = some [] ∧ (State.swapContext 0 nop0 pinned).1 ≠ none
       ∧ ((State.swapContext 0 nop0 pinned).2.placeSlots 0 nop0 []).2.2 = 0) := by decide +kernel

/-- A line listed as bad at the top of HBM, covered in part and whole. -/
theorem test_witness_hbm_writes :
    let l := 0x14000000000 / 64 - 1
    let s : State := { live with errors := { live.errors with badLines := [l] } }
    Memory.wf s.mem = true ∧ l ∈ s.errors.badLines
    ∧ (l * 64 ≤ l * 64 ∧ l * 64 + 64 ≤ l * 64 + (List.replicate 64 (0 : Byte)).length) ∧ ¬(l * 64 + 64 ≤ l * 64 + (List.replicate 63 (0 : Byte)).length) := by
  decide +kernel

-- Collectives and owners

/-- A COLL message of an operation from device 1 as origin, with a coverage. -/
def coll (op rank coverage : Nat) (body : Bytes) : Bytes := leBytes 64 (op + rank * 2 ^ 16 + 1 * 2 ^ 24 + 7 * 2 ^ 32 + coverage * 2 ^ 128) ++ body
abbrev CollOn (s : State) (op : Nat) (p : Bytes) : Prop := (deliver 2 0x70 p s).Joins op (msg 2 p) (dl 2 0x70 p) devQ
theorem joins_of {s : State} {op : Nat} {p : Bytes}
    (h : (deliver 2 0x70 p s).taken? 0x70 (msg 2 p) = some (dl 2 0x70 p) ∧ (deliver 2 0x70 p s).session? 2 = some devQ
      ∧ (deliver 2 0x70 p s).portLive = true ∧ (deliver 2 0x70 p s).gate devQ 0x70 false = none
      ∧ collOk (dl 2 0x70 p).frags.flatten = true ∧ uAt (dl 2 0x70 p).frags.flatten 0 1 = op) : CollOn s op p :=
  ⟨⟨⟨h.1, h.2.1, h.2.2.1, rfl⟩, h.2.2.2.1⟩, h.2.2.2.2.1, h.2.2.2.2.2⟩

/-- A row request for row 1 of table 511, whose current version this device owns whole. -/
def rowReq (version : Nat) : Bytes := leBytes 32 (0x51574F52 + 511 * 2 ^ 48 + version * 2 ^ 64 + 1 * 2 ^ 128) ++ leBytes 8 1
def owner : State := { served 3 with
  cfg := { (served 3).cfg with tables := [tcfg] }
  tables := [{ tver 2 false with map := { version := 0, ranges := [(0, 0, 0)] }, slabs := [(0, 0, 4096)] }] }
theorem test_witness_row_request :
    CollOn owner 1 (coll 1 0 0 (rowReq 1)) ∧ owner.hotPool = some 0 ∧ bitAt owner.power.gate 0 = false
    ∧ owner.runs fnLookup = true ∧ (owner.serveRows (rowReq 1)).1 = 0 ∧ (owner.serveRows (rowReq 2)).1 = 1
    ∧ ({ owner with fns := { owner.fns with running := 1 } } : State).runs fnLookup = false := by
  refine ⟨joins_of ?_, ?_⟩ <;> decide +kernel

def exch (kind : Nat) : Exchange :=
  { xid := 7, owner := 1, req := 4095, reqOrder := 1, tile := 0, kind, object := 511, ids := [1], places := [0] }
/-- A row reply about a table, of one row of 64 bytes. -/
def rowRep (status table : Nat) : Bytes :=
  leBytes 32 (0x53574F52 + 7 * 2 ^ 32 + table * 2 ^ 48 + status * 2 ^ 64 + 1 * 2 ^ 128 + 64 * 2 ^ 160) ++ List.replicate 64 0
def asking (kind : Nat) : State := { withReq req0 live with exchanges := [exch kind], cfg := { live.cfg with tables := [tcfg] } }
theorem test_witness_row_reply :
    CollOn live 2 (coll 2 0 0 []) ∧ live.exchangeOf devQ [0, 2] 7 = none
    ∧ (∀ kind ∈ [0, 2], let s := asking kind
       let h := uAt (rowRep 0 511) 0 32
       CollOn s 2 (coll 2 0 0 (rowRep 0 511)) ∧ s.exchangeOf devQ [0, 2] 7 = some (exch kind) ∧ replyWhole h = true ∧ fld h 31 0 = 0x53574F52
       ∧ fld h 56 48 = (exch kind).object ∧ fld h 47 32 = 7 ∧ fld h 71 64 = 0 ∧ fld h 159 128 = (exch kind).ids.length
       ∧ ((rowRep 0 511).drop 32).length = (exch kind).ids.length * fld h 175 160 ∧ (s.tableCfg? (exch kind).object).map (·.stride) = some (fld h 175 160)
       ∧ (s.live? 4095 1).isSome = true)
    ∧ (CollOn (asking 0) 2 (coll 2 0 0 (rowRep 2 511)) ∧ fld (uAt (rowRep 2 511) 0 32) 71 64 ≠ 0)
    ∧ (CollOn (asking 0) 2 (coll 2 0 0 (rowRep 0 510)) ∧ fld (uAt (rowRep 0 510) 0 32) 56 48 ≠ (exch 0).object) := by
  refine ⟨joins_of (by decide +kernel), by decide +kernel, fun kind h => ?_, ⟨joins_of (by decide +kernel), by decide +kernel⟩,
    joins_of (by decide +kernel), by decide +kernel⟩
  fin_cases h <;> exact ⟨joins_of (by decide +kernel), by decide +kernel⟩

def passageRep (status : Nat) (body : Bytes) : Bytes := leBytes 32 (0x53505350 + 7 * 2 ^ 32 + status * 2 ^ 64) ++ body
theorem test_witness_passages :
    CollOn live 3 (coll 3 0 0 []) ∧ (CollOn live 4 (coll 4 0 0 []) ∧ live.exchangeOf devQ [1] 7 = none)
    ∧ (∀ status ∈ [0, 1], ∀ body ∈ [[], leBytes 8 0], let s := asking 1
       let h := uAt (passageRep status body) 0 32
       CollOn s 4 (coll 4 0 0 (passageRep status body)) ∧ s.exchangeOf devQ [1] 7 = some (exch 1) ∧ replyWhole h = true ∧ fld h 31 0 = 0x53505350
       ∧ fld h 56 48 = 0 ∧ fld h 47 32 = 7 ∧ (s.live? 4095 1).isSome = true ∧ fld h 71 64 = status)
    ∧ (CollOn (asking 1) 4 (coll 4 0 0 (leBytes 32 0)) ∧ fld (uAt (leBytes 32 0) 0 32) 31 0 ≠ 0x53505350)
    ∧ State.replyPassages [1] [] = none ∧ State.replyPassages [1] (leBytes 8 0) = some [(1, [])]
    ∧ ([] : Bytes).length ≤ 4 * (((asking 1).storeCfg? 511).map (·.maxTokens)).getD 0 := by
  refine ⟨joins_of ?_, ⟨joins_of ?_, ?_⟩, fun status h body hb => ?_, ⟨joins_of ?_, ?_⟩, ?_⟩
  case refine_4 => fin_cases h <;> fin_cases hb <;> exact ⟨joins_of (by decide +kernel), by decide +kernel⟩
  all_goals decide +kernel

/-- Where the memory that is given out ends: the places of the entries' payloads follow (log entry 141). -/
def hbmTop : Nat := 0x14000000000 - 0x200000
/-- All of HBM but two blocks of 128 bytes. -/
def tight : List (Nat × Nat) := [(128, 3968), (4224, hbmTop - 4224)]
theorem tight_alloc (s : State) (h : s.used = tight) (z : s.zeroing = []) (b : s.errors.badLines = []) :
    ((s.alloc 128 128).any fun a => (a.2.alloc 128 4096).isSome) = true := by
  have one : ∀ (u : State) (k : Nat), Config.freeBelow k 1 = 0 := fun _ _ => Nat.mod_one _
  have two : Config.freeBelow s.free 2 = 0 ∨ Config.freeBelow s.free 2 = 1 := by unfold Config.freeBelow; omega
  have bb : badBlocks s = [] := by simp [badBlocks, b]
  have p : State.alloc 128 128 s = (placeAt 128 128 (Config.freeBelow s.free 2) [(0, 128), (4096, 4224), (hbmTop, hbmTop)]).map
      fun a => (a, { s with free := s.free + 1, used := (a, 128) :: tight }) := by
    simp only [State.alloc, h, z, bb, pickPlace, List.append_nil]
    have g : gapsFrom (State.entryPayload 0) 0 (sortBy (fun a b => decide (a.1 ≤ b.1)) tight) = [(0, 128), (4096, 4224), (hbmTop, hbmTop)] := by
      decide +kernel
    rw [g]
    have k : (([(0, 128), (4096, 4224), (hbmTop, hbmTop)] : List (Nat × Nat)).map (placesIn 128 128)).sum = 2 := by decide +kernel
    rw [k]
    simp only [State.freeBelow]
    rw [if_neg (by decide), Option.map_map]
    congr 1
    funext a
    simp [h, z]
  have q : ∀ (u : State) (a : Nat), u.used = (a, 128) :: tight → u.zeroing = [] → u.errors.badLines = [] → a = 0 ∨ a = 4096 →
      (State.alloc 128 4096 u).isSome = true := by
    intro u a hu hz hb ha
    have bb : badBlocks u = [] := by simp [badBlocks, hb]
    simp only [State.alloc, hu, hz, bb, pickPlace, List.append_nil, Option.isSome_map]
    rcases ha with rfl | rfl
    · have g : gapsFrom (State.entryPayload 0) 0 (sortBy (fun a b => decide (a.1 ≤ b.1)) ((0, 128) :: tight))
          = [(0, 0), (128, 128), (4096, 4224), (hbmTop, hbmTop)] := by decide +kernel
      have k : (([(0, 0), (128, 128), (4096, 4224), (hbmTop, hbmTop)] : List (Nat × Nat)).map (placesIn 128 4096)).sum = 1 := by
        decide +kernel
      rw [g, k]; simp only [State.freeBelow, one u]; rw [if_neg (by decide), Option.isSome_map]; decide +kernel
    · have g : gapsFrom (State.entryPayload 0) 0 (sortBy (fun a b => decide (a.1 ≤ b.1)) ((4096, 128) :: tight))
          = [(0, 128), (4096, 4096), (4224, 4224), (hbmTop, hbmTop)] := by decide +kernel
      have k : (([(0, 128), (4096, 4096), (4224, 4224), (hbmTop, hbmTop)] : List (Nat × Nat)).map (placesIn 128 4096)).sum = 1 := by
        decide +kernel
      rw [g, k]; simp only [State.freeBelow, one u]; rw [if_neg (by decide), Option.isSome_map]; decide +kernel
  rw [p]
  rcases two with e | e <;> rw [e]
  · exact q _ 0 rfl z b (.inl rfl)
  · exact q _ 4096 rfl z b (.inr rfl)

/-- A pool whose corpus is the one of merge 7 from device 1, whichever that is. -/
def merging (n : Nat) : State := { served 3 with used := tight, cfg := { (served 3).cfg with
  pools := [{ pool0 with kinds := 1, corpus := n }], corpora := [{ ccfg with id := n }], mode := { (served 3).cfg.mode with riderCap := 1 } } }
def mergeBody : Bytes := leBytes 4 0 ++ leBytes 4 1 ++ List.replicate 32 0
def mergeStage (n : Nat) : Stage :=
  { kind := 0, repeats := false, preds := [], wiFirst := 0, wiCount := 0, cycles := 0, footprint := 0, minCols := 0, object := n }
theorem merge_bound (n : Nat) : State.bindStage (merging n).cfg.pools (mergeStage n) = some 0 := by
  simp [State.bindStage, merging, PoolCfg.has, bitAt, pool0, mergeStage]
theorem merge_runs (n : Nat) : (merging n).runs (stagesNeed [mergeStage n]) = true := by
  have f : maskWithout (merging n).fns.running (merging n).stopsWaiting = 255 := by show maskWithout (merging 0).fns.running (merging 0).stopsWaiting = 255; decide +kernel
  unfold State.runs
  rw [f]
  rcases Bool.eq_false_or_eq_true (isText (mergeStage n)) with h | h <;>
    simp [stagesNeed, h, isPassage, show (mergeStage n).kind = 0 from rfl, fnPort, fnHopper, fnPools, fnWheel, fnText]
theorem merge_shared (n : Nat) (m : SubmitMsg) (h : m.shareClass = 0) : (merging n).shareRefused m [mergeStage n] = false := by
  simp only [State.shareRefused, List.any_cons, List.any_nil, merge_bound, h]
  exact (by decide +kernel :
    (Option.any (fun p => !bitAt p.classes 0) ((some 0).bind fun x => (merging 0).cfg.pools[x]?) || false ||
      decide ((lookupD 0 (merging 0).cfg.mode.classes (1, 0)).2 ≤ (merging 0).classHeld 0)) = false)
theorem merge_riders (n : Nat) : (merging n).entryRefused [mergeStage n] = false := by
  have f : (merging n).cfg.corpora.find? (·.id == n) = some { ccfg with id := n } := by simp [merging]
  have g : (merging n).poolCfg? 0 = some { pool0 with kinds := 1, corpus := n } := rfl
  have cap : decide ((merging n).riderCap 0 ≤ (merging n).ridersOf 0) = false := by
    simp only [State.riderCap, g, Option.bind_some, f]
    exact (by decide +kernel :
      decide (min 512 (min ((merging 0).cfg.mode.vals (merging 0).fuses.part).riderCap (65536 / max 1 (codeBytes ccfg))) ≤ 0) = false)
  simp only [State.entryRefused, List.any_cons, List.any_nil, merge_bound, Option.map_some, Option.getD_some, cap]
  exact (by decide +kernel : (decide (4096 ≤ (merging 0).reqs.length) || decide ((merging 0).cfg.mode.admitLimit ≤ (merging 0).reqs.length) ||
    ((mergeStage 0).kind == 0 && false || false)) = false)
theorem merge_admitted (n : Nat) (h : CollHead) (hc : Config.mergeCorpus h.origin h.number = n) :
    ((merging n).admitMerge h mergeBody).isSome = true := by
  unfold State.admitMerge
  rw [hc]
  show (match State.bindStage (merging n).cfg.pools (mergeStage n) with | none => _ | some p => _ : Option _).isSome = true
  rw [merge_bound]
  dsimp only
  rw [if_neg]
  · simp only [Option.isSome_bind, Option.isSome_map]
    exact tight_alloc _ rfl rfl rfl
  · show ¬((_ || (merging n).shareRefused _ [mergeStage n] || (merging n).entryRefused [mergeStage n]) = true)
    rw [merge_riders, merge_shared n _ (show uAt mergeBody 0 4 = 0 by decide +kernel)]
    have d : ((((merging n).corpus? n).bind (·.current)).map (·.damaged)).getD false = false := rfl
    have k : inRange 1 65536 (uAt mergeBody 4 4) = true ∧ decide (64 ≤ uAt mergeBody 0 4) = false ∧ decide ((mergeBody.drop 8).length < 32) = false := by
      decide +kernel
    have w : ((merging n).cfg.twin.role != 0 && (merging n).twin.state == 1) = false := rfl
    show ¬((!(merging n).runs (stagesNeed [mergeStage n]) || _ || decide (64 ≤ uAt mergeBody 0 4) || !(inRange 1 65536 (uAt mergeBody 4 4))
      || decide ((mergeBody.drop 8).length < 32) || _ || false || false) = true)
    rw [merge_runs, k.1, k.2.1, k.2.2, w, d]
    decide

/-- The hypotheses of MERGE_START hold where the pool's corpus is the one that the model takes for the merge. -/
theorem test_witness_merge_start :
    ((merging (Config.mergeCorpus 1 7)).admitMerge (CollHead.decode (coll 5 0 3 mergeBody)) mergeBody).isSome = true :=
  merge_admitted _ _ (by rw [show (CollHead.decode (coll 5 0 3 mergeBody)).origin = 1 by decide +kernel,
    show (CollHead.decode (coll 5 0 3 mergeBody)).number = 7 by decide +kernel])
theorem test_witness_merge_ranks :
    let h := CollHead.decode (coll 5 0 3 mergeBody)
    let s := merging (Config.mergeCorpus 1 7)
    CollOn s 5 (coll 5 0 3 mergeBody) ∧ (deliver 2 0x70 (coll 5 0 3 mergeBody) s).untake (dl 2 0x70 (coll 5 0 3 mergeBody)) = s
    ∧ (h.origin :: (maskBits h.coverage).filter (· != h.origin)) = [1, 0]
    ∧ [1, 0].findIdx? s.ownIndex = some 1 ∧ s.coll? 0 h.number h.origin = none ∧ rankKids 2 1 = [] := by
  refine ⟨joins_of ?_, rfl, ?_⟩ <;> decide +kernel
/-- A device without a Wheel pool refuses the merge. -/
theorem test_witness_merge_refused (h : CollHead) : CollOn (served 3) 5 (coll 5 0 3 mergeBody) ∧ (served 3).admitMerge h mergeBody = none := by
  refine ⟨joins_of (by decide +kernel), ?_⟩
  unfold State.admitMerge
  dsimp only
  simp [State.bindStage, served, PoolCfg.has, bitAt, pool0]

def listP : Bytes := leBytes 32 0x5453494C
def coll0 (kind rank covered : Nat) (sent : Bool) : Collective :=
  { number := 7, origin := 1, originReq := 0, kind, members := [1, 0], rank, req := 4095, reqOrder := 1, k := 1, covered, sent }
def withColl (c : Collective) : State := { live with collectives := [c] }
/-- A merge that is there already, and one whose participant has sent its list up; one of no rank here. -/
theorem test_witness_merge_again :
    (CollOn (withColl (coll0 0 1 0 false)) 5 (coll 5 0 3 mergeBody) ∧ (withColl (coll0 0 1 0 false)).coll? 0 7 1 = some (coll0 0 1 0 false))
    ∧ (let c := { coll0 0 1 0 true with upward := some (1, []) }
       CollOn (withColl c) 5 (coll 5 0 3 mergeBody) ∧ (withColl c).coll? 0 7 1 = some c ∧ c.upward ≠ none)
    ∧ (CollOn live 5 (coll 5 0 2 mergeBody) ∧ [1].findIdx? live.ownIndex = none) := by
  refine ⟨⟨joins_of ?_, ?_⟩, ⟨joins_of ?_, ?_⟩, joins_of ?_, ?_⟩ <;> decide +kernel
theorem test_witness_merge_list :
    (CollOn live 6 (coll 6 1 1 listP) ∧ live.coll? 0 7 1 = none)
    ∧ (∀ covered ∈ [1, 2], CollOn (withColl (coll0 0 0 covered false)) 6 (coll 6 1 1 listP)
      ∧ (withColl (coll0 0 0 covered false)).coll? 0 7 1 = some (coll0 0 0 covered false)
      ∧ (CollHead.decode (coll 6 1 1 listP)).coverage = 1 ∧ listWhole listP = true)
    ∧ 1 &&& 1 ≠ 0 ∧ 1 &&& 2 = 0
    ∧ (∀ rank ∈ [0, 1], CollOn (withColl (coll0 0 rank 0 false)) 6 (coll 6 1 0 listP) ∧ (CollHead.decode (coll 6 1 0 listP)).coverage = 0)
    ∧ ∀ sent ∈ [false, true], CollOn (withColl (coll0 0 1 0 sent)) 6 (coll 6 1 1 listP)
      ∧ (withColl (coll0 0 1 0 sent)).coll? 0 7 1 = some (coll0 0 1 0 sent) := by
  refine ⟨⟨joins_of (by decide +kernel), by decide +kernel⟩, fun c h => ?_, by decide, by decide, fun c h => ?_, fun c h => ?_⟩
  all_goals fin_cases h <;> exact ⟨joins_of (by decide +kernel), by decide +kernel⟩

def decisionP (kind round : Nat) : Bytes := leBytes 4 kind ++ leBytes 4 round ++ List.replicate 24 0
theorem test_witness_selection_messages :
    (∀ n ∈ [1043, 1044], CollOn live 7 (coll 7 0 0 (List.replicate n 0)) ∧ (List.replicate n 0 : Bytes).length = n)
    ∧ (CollOn live 9 (coll 9 0 0 listP) ∧ listWhole listP = true) ∧ (CollOn live 9 (coll 9 0 0 []) ∧ listWhole [] = false)
    ∧ (CollOn live 8 (coll 8 0 0 (decisionP 1 1)) ∧ live.collectives = [])
    ∧ (∀ rank ∈ [0, 1], ∀ r ∈ [0, 1, 13, 14], CollOn (withColl (coll0 1 rank 0 false)) 8 (coll 8 0 0 (decisionP 1 r))
      ∧ (withColl (coll0 1 rank 0 false)).collectives.find? (fun x => x.kind == 1 && x.number == 7 && !x.members.isEmpty) = some (coll0 1 rank 0 false)
      ∧ (decisionP 1 r).length = 32 ∧ (Decision.decode (decisionP 1 r)).round = r ∧ (Decision.decode (decisionP 1 r)).kind ≠ 0)
    ∧ (CollOn (withColl (coll0 1 1 0 false)) 8 (coll 8 0 3 (decisionP 0 1)) ∧ (Decision.decode (decisionP 0 1)).kind = 0
      ∧ (CollHead.decode (coll 8 0 3 (decisionP 0 1))).coverage ≠ 0
      ∧ ((maskBits (CollHead.decode (coll 8 0 3 (decisionP 0 1))).coverage).findIdx? (withColl (coll0 1 1 0 false)).ownIndex).isSome = true) := by
  refine ⟨fun n h => ?_, ⟨joins_of (by decide +kernel), by decide +kernel⟩, ⟨joins_of (by decide +kernel), by decide +kernel⟩,
    ⟨joins_of (by decide +kernel), rfl⟩, fun rank hk r h => ?_, joins_of (by decide +kernel), by decide +kernel⟩
  · fin_cases h <;> exact ⟨joins_of (by decide +kernel), by decide +kernel⟩
  · fin_cases hk <;> fin_cases h <;> exact ⟨joins_of (by decide +kernel), by decide +kernel⟩

-- The Wheel

/-- A query record for 32 dimensions, k = 1, all zeros. -/
def query (flags k : Nat) : Bytes := leBytes 32 (0x57514859 + flags * 2 ^ 32 + 32 * 2 ^ 64 + k * 2 ^ 80) ++ List.replicate 128 0
def rider (phase : Nat) : Rider := { slot := 511, req := 4095, reqOrder := 1, stage := 0, phase }
def wtile : WheelTile := { release := some { seg := .base 1 0, next := .base 1 0, tail := 0 }, scored := true, token := some ([511], false), landed := [511] }
def wheel0 (r : Rider) (x : WheelTile) (next : Seg) : Wheel :=
  { pool := 0, corpus := 15, release := { seg := .base 1 0, next, tail := 0 }, riders := [r], tiles := [(0, x)] }
/-- A pool with a Wheel of corpus 15, a rider whose request has its query in HBM, one tile. -/
def turning (w : Wheel) (hnd : Nat) : State := { served 3 with
  cfg := { (served 3).cfg with pools := [{ pool0 with kinds := 1, corpus := 15 }], corpora := [ccfg] }
  corpora := [{ corpus15 with current := some cver }], wheels := [w]
  mem := Memory.writeN [] 0 (query 0 1)
  reqs := [(4095, { req0 with stages := [{ stage := 0, pool := 0, inputs := [hnd] }] })] }
def queryHandle : Nat := hbmHandle 0 160 0

theorem test_witness_rider_prepare :
    let s := turning (wheel0 (rider 0) {} (.base 1 0)) queryHandle
    s.wheel? 0 = some (wheel0 (rider 0) {} (.base 1 0)) ∧ State.rider? (wheel0 (rider 0) {} (.base 1 0)) 511 = some (rider 0)
    ∧ s.corpusCfg? 15 = some ccfg ∧ s.corpus? 15 = some { corpus15 with current := some cver } ∧ s.poolActive 0 = true
    ∧ s.riderLive (rider 0) = true
    ∧ (s.req? 4095).map (fun q => (State.stageRun? q 0).map (·.inputs)) = some (some [queryHandle])
    ∧ handlePoison queryHandle = false
    ∧ (match s.hopperGet 4095 0 queryHandle with | .ok bs => decide (bs = query 0 1) | .error _ => false) = true ∧ queryOk ccfg (query 0 1) = true
    ∧ queryOk ccfg (query 2 1) = false ∧ queryOk ccfg (query 0 4097) = false
    ∧ handlePoison (setPoison queryHandle) = true
    ∧ handlePoison (queryHandle + 2 ^ 56) = false
    ∧ (match s.hopperGet 4095 0 (queryHandle + 2 ^ 56) with | .ok _ => false | .error _ => true) = true := by decide +kernel

/-- A candidate of a side entry whose rescoring vector is at address 0. -/
def sideCand : Cand := { id := 1, key := 1, score := 0, src := 2 ^ 63 + 1 }
def sideCorpus : Corpus := { corpus15 with current := some cver, side := [{ seq := 1, op := 0, id := 1, home := 0, addr := 0, fine := some 0 }] }
def rescoring : Rider := { rider 3 with k := 1, rescore := 1 }
def rescored (bad : List Nat) : Except (Nat × Nat) (List W32) × State :=
  let s := turning (wheel0 rescoring { lists := [(511, [sideCand])] } .pause) queryHandle
  State.rescoreAll { ccfg with rescore := 1 } sideCorpus rescoring (State.finalList rescoring [sideCand]).1
    { s with errors := { s.errors with badLines := bad } }
theorem test_witness_rider_leaves :
    (∀ rescore ∈ [0, 1], let r := { rider 3 with rescore }
     let w := wheel0 r {} .pause
     let s := turning w queryHandle
     State.rider? w 511 = some r ∧ w.flying = [] ∧ (w.tiles.any fun x => x.2.evict.any (·.1 == 511)) = false ∧ s.riderLive r = true
     ∧ r.rescore = rescore)
    ∧ (match (rescored []).1 with | .ok vs => decide (vs.length = 1) | .error _ => false) = true
    ∧ (match (rescored [0]).1 with | .ok _ => false | .error e => decide (e.1 = 0)) = true
    ∧ (let s : State := { turning (wheel0 (rider 2) {} .pause) queryHandle with reqs := [] }
       s.riderLive (rider 2) = false ∧ (rider 2).phase < 3)
    ∧ (let s : State := { turning (wheel0 (rider 3) {} .pause) queryHandle with reqs := [] }
       s.riderLive (rider 3) = false)
    ∧ (let x : WheelTile := { evict := [(511, { id := 1, key := 1, score := 0 })] }
       let w := wheel0 (rider 2) x .pause
       let s := turning w queryHandle
       s.wheels.find? (fun w => w.tiles.any (·.1 == 0)) = some w ∧ w.tiles.find? (·.1 == 0) = some (0, x) ∧ (rider 2).phase = 2) := by
  decide +kernel

theorem test_witness_wheel_tile :
    (let x := { wtile with token := none, aboard := [511] }
     (turning (wheel0 (rider 2) x .pause) queryHandle).wheelAt 0 = some (wheel0 (rider 2) x .pause, x) ∧ x.release ≠ none ∧ x.token = none ∧ x.scored = true)
    ∧ (let x := { wtile with scored := false, token := none, aboard := [511] }
       (turning (wheel0 (rider 2) x .pause) queryHandle).wheelAt 0 = some (wheel0 (rider 2) x .pause, x) ∧ x.scored = false ∧ x.aboard ≠ []
       ∧ x.begun = false)
    ∧ (∀ bad ∈ [[], [0]], let x := { wtile with scored := false, token := none }
       let u := turning (wheel0 (rider 1) x .pause) queryHandle
       let s : State := { u with errors := { u.errors with badLines := bad } }
       s.wheelAt 0 = some (wheel0 (rider 1) x .pause, x) ∧ x.begun = false ∧ x.scored = false ∧ x.release ≠ none
       ∧ (s.sliceBad ccfg { corpus15 with current := some cver } (.base 1 0) (s.relIndex 0 0)).isSome = !bad.isEmpty)
    ∧ (let w := { wheel0 (rider 1) wtile .pause with flying := [0] }
       (turning w queryHandle).wheelAt 0 = some (w, wtile) ∧ w.flying.contains 0 = true ∧ w.release.faulted = false) := by decide +kernel
theorem test_witness_wheel_paused_slice :
    let x : WheelTile := { evict := List.replicate 682 (511, { id := 1, key := 1, score := 0 }) }
    (State.takeTodo 1 [(511, { id := 2, key := 2, score := 0 })] x).scored = false ∧ x.scored = false := by decide +kernel

theorem test_witness_wheel_boundary :
    (let w := wheel0 (rider 2) wtile (.base 1 0)
     let s := turning w queryHandle
     s.wheel? 0 = some w ∧ s.works fnWheel = true ∧ s.poolActive 0 = true ∧ w.flying = [] ∧ w.tiles ≠ [] ∧ (w.tiles.all fun x => x.2.token.isSome) = true
     ∧ w.release.next ≠ .pause ∧ (w.riders.any (·.phase == 2)) = true)
    ∧ (let w := wheel0 (rider 1) wtile .pause
       w.release.next = .pause ∧ State.stirs { w with riders := w.riders } (State.tokenMask w) = true)
    ∧ (let w := wheel0 (rider 2) wtile .pause
       w.release.next = .pause ∧ State.stirs { w with riders := w.riders } (State.tokenMask w) = false)
    ∧ (let w := { wheel0 (rider 1) { wtile with release := none } .pause with held := some .pause }
       State.paused w = true ∧ State.stirs w (State.landedAll w) = true) := by decide +kernel

-- Background tasks, protection, errors

def slabV (waiting : List Write) : TableVer := { tver 0 false with slabs := [(0, 0, 4096)], waiting }
theorem test_witness_background :
    (∀ last ∈ [1, 2], let g : MergeRun := { build := cver, last, next := 0 }
     let k := { corpus15 with merge := some g }
     let s := corpusS k [{ pool0 with kinds := 1, corpus := 15 }]
     s.corpus? 15 = some k ∧ s.corpusCfg? 15 = some ccfg ∧ s.works fnWheel = true ∧ s.cfg.pools.any (·.has 0) = true
     ∧ ({ s with fns := { s.fns with running := 1 } } : State).works fnWheel = false ∧ (corpusS k []).cfg.pools.any (·.has 0) = false)
    ∧ (let k := { corpus15 with merge := some { build := cver, last := 1, next := 1 } }
       (corpusS k []).corpus? 15 = some k ∧ 1 ≤ 1)
    ∧ ((({ live with zeroing := [(0, 128)] } : State).zeroing = (0, 128) :: []))
    ∧ (live.tele.scrubNext = 0 ∧ live.boot.service = 1 ∧ live.boot.offPrep = false ∧ 0 ∉ live.errors.badLines)
    ∧ live.awake = true ∧ 63 < 64 ∧ 8 < 9 := by decide +kernel

/-- A corpus is still there after the last segment of its merge. -/
theorem test_witness_last_segment :
    let g : MergeRun := { build := cver, last := 1, next := 0 }
    let k := { corpus15 with merge := some g }
    (corpusS k []).mergeSegment ccfg k g |>.corpus? 15 |>.isSome := by
  intro g k
  rw [show (15 : Nat) = k.id from rfl, State.mergeSegment_corpus? ccfg k g _ k (by decide +kernel)]
  rfl

/-- A tile whose word is met uncorrectable: a second time, in the cache banks, in a pinned copy, owned by a work item, and by none. -/
theorem test_witness_tile_scrub :
    let after := fun (s : State) (word : Nat) =>
      (s.chargeFree (State.tileCtr 0 0)).containedEvent { cause := 0x02, unit := 0, unitIndex := 0, addr := tileWindow 0 + 8 * word } fnPools
    let owned := onTile { runX 0x40 [0, 8] [] [] with slots := [(0, 0x800000000000 + 1 * 2 ^ 48 + 1 * 2 ^ 408)] }
    let cached : State := { served 3 with cfg := { (served 3).cfg with pools := [{ pool0 with cacheKib := 64 }] } }
    let copy : State := { pinned with tiles := [(0, { context := some 5 })], errors := live.errors }
    (∀ s ∈ [served 3, cached, owned, copy], s.poolOf 0 = some 0 ∧ s.poolActive 0 = true ∧ ((s.poolCfg? 0).map fun c => c.has 0) = some false)
    ∧ (let s : State := { served 3 with errors := { live.errors with tileWords := [(0, 49151)] } }
       (0, 49151) ∈ (after s 49151).errors.tileWords)
    ∧ (0, 0) ∉ (after (served 3) 0).errors.tileWords
    ∧ (after cached 49151).inCacheBanks 0 49151 = true ∧ (after copy 0).inCacheBanks 0 0 = false ∧ (after copy 0).inContext 0 0 = true
    ∧ (after owned 0).inCacheBanks 0 0 = false ∧ (after owned 0).inContext 0 0 = false ∧ (after owned 0).ownsWord 0 (tileWindow 0) = true
    ∧ (after (served 3) 0).inCacheBanks 0 0 = false ∧ (after (served 3) 0).inContext 0 0 = false ∧ (after (served 3) 0).ownsWord 0 (tileWindow 0) = false := by
  decide +kernel

/-- A slab that two versions share, with memory for its copy and without. -/
theorem test_witness_slab_copy :
    let x := slabV [switchW 0]
    let s : State := { live with tables := [x, { slabV [] with version := 2 }], cfg := { live.cfg with tables := [tcfg] } }
    s.table? 511 1 = some x ∧ s.tableCfg? 511 = some tcfg ∧ x.waiting = switchW 0 :: [] ∧ x.slabs.find? (·.1 == 0) = some (0, 0, 4096) ∧ s.sharedSlab x 0 = true
    ∧ x.opened = none ∧ ({ x with opened := some 1 } : TableVer).opened = some 1
    ∧ (({ s with used := [(0, 0x14000000000)] } : State).newSlab { x with written := s.soundRows tcfg.stride x x.written } 0 4096).isNone = true := by
  decide +kernel

theorem test_witness_protection :
    live.awake = true ∧ live.tele.sensorOut = none ∧ (List.replicate 63 (0 : Int)).length ≤ 63 ∧ (∀ b ∈ List.replicate 63 (0 : Int), b ≤ 1840)
    ∧ (1839 : Int) < 1840
    ∧ (∀ p ∈ (railLimits : List Nat).zip railLimits, p.1 ≤ p.2)
    ∧ (let iout := railLimits.set 7 1001
       iout[7]? = some 1001 ∧ railLimits.getD 7 0 < 1001 ∧ (∀ j, j < 7 → iout.getD j 0 ≤ railLimits.getD j 0))
    ∧ live.pins.resetLow = false
    ∧ live.boot.service = 1 ∧ live.power.state = 0 ∧ live.power.arraysClocked = true ∧ live.boot.offPrep = false
    ∧ ({ live with tele := { live.tele with trips := [0, 0, 0] } } : State).tele.trips.length = 3 := by decide +kernel

theorem test_witness_device_events :
    live.awake = true ∧ 15 < 16 ∧ live.boot.service ≠ 3 ∧ (inState 3).boot.service = 3
    ∧ (let s : State := { live with fns := { live.fns with recovering := 128 } }
       bitAt s.fns.recovering 7 = true) := by decide +kernel

theorem test_witness_debug :
    live.pins.resetLow = false ∧ State.reset.pins.resetLow = true ∧ live.awake = true ∧ live.fuses.part = .a ∧ 63 < 64
    ∧ ({ live with fuses := { live.fuses with part := .b } } : State).fuses.part = .b ∧ 0x59 ≠ live.pins.mgmtAddr
    ∧ live.boot.authFailures < 8 ∧ 8 ≤ ({ live with boot := { live.boot with authFailures := 8 } } : State).boot.authFailures := by decide +kernel

theorem test_witness_fuses :
    Fuses.Extends {} live.fuses ∧ live.fuses.owners.length ≤ 8
    ∧ Fuses.Extends { owners := List.replicate 8 [] } { owners := List.replicate 8 [] } ∧ ∃ t, step { live with pending := [.tapReset] } = .next t :=
  ⟨⟨rfl, List.nil_prefix, Nat.le_refl _, Nat.le_refl _⟩, by decide, ⟨rfl, List.prefix_refl _, Nat.le_refl _, Nat.le_refl _⟩, _, rfl⟩

theorem test_witness_topk : 0 < 1 ∧ (candidates 0 [0x3F800000, 0x7FC00000] [] []).1.length = 1 := by decide +kernel

/-- HBM with one free block of 4 KiB. -/
theorem one_place (s : State) (h : s.used = [(4096, hbmTop - 4096)]) (z : s.zeroing = []) (b : s.errors.badLines = []) :
    (s.alloc 4096 4096).isSome = true := by
  have bb : badBlocks s = [] := by simp [badBlocks, b]
  have g : gapsFrom (State.entryPayload 0) 0 (sortBy (fun a b => decide (a.1 ≤ b.1)) [(4096, hbmTop - 4096)]) = [(0, 4096), (hbmTop, hbmTop)] := by
    decide +kernel
  have k : (([(0, 4096), (hbmTop, hbmTop)] : List (Nat × Nat)).map (placesIn 4096 4096)).sum = 1 := by decide +kernel
  simp only [State.alloc, h, z, bb, pickPlace, List.append_nil, Option.isSome_map, g, k, State.freeBelow]
  rw [if_neg (by decide), Option.isSome_map, show Config.freeBelow s.free 1 = 0 from Nat.mod_one _]
  decide +kernel
theorem test_witness_slab_copied :
    let x := slabV [switchW 0]
    let s : State := { live with tables := [x, { slabV [] with version := 2 }], cfg := { live.cfg with tables := [tcfg] }
                                 used := [(4096, hbmTop - 4096)] }
    s.sharedSlab x 0 = true ∧ (s.newSlab { x with written := s.soundRows tcfg.stride x x.written } 0 4096).isSome = true := by
  refine ⟨by decide +kernel, ?_⟩
  simp only [State.newSlab, Option.isSome_map]
  exact one_place _ rfl rfl rfl

/-- A hot set whose row another device owns, and the device that answers for it. -/
def hotOther : State := { hotS { id := 511, waiting := some hotW } with
  used := [(128, hbmTop - 128)], peers := [(1, devEntry)]
  tables := [{ tver 2 false with map := { version := 0, ranges := [(0, 0, 1)] } }] }
theorem hot_place (s : State) (h : s.used = [(128, hbmTop - 128)]) (z : s.zeroing = []) (b : s.errors.badLines = []) :
    s.alloc 128 4096 = some (0, { s with free := s.free + 1, used := (0, 128) :: s.used }) := by
  have bb : badBlocks s = [] := by simp [badBlocks, b]
  have g : gapsFrom (State.entryPayload 0) 0 (sortBy (fun a b => decide (a.1 ≤ b.1)) [(128, hbmTop - 128)]) = [(0, 128), (hbmTop, hbmTop)] := by
    decide +kernel
  have k : (([(0, 128), (hbmTop, hbmTop)] : List (Nat × Nat)).map (placesIn 128 4096)).sum = 1 := by decide +kernel
  simp only [State.alloc, h, z, bb, pickPlace, List.append_nil, g, k, State.freeBelow]
  rw [if_neg (by decide), Option.map_map, show Config.freeBelow s.free 1 = 0 from Nat.mod_one _,
    show placeAt 128 4096 0 [(0, 128), (hbmTop, hbmTop)] = some 0 by decide +kernel]
  simp
theorem test_witness_hot_set_asks :
    let s := hotOther
    let y : State := { s with free := s.free + 1, used := (0, 128) :: s.used }
    s.alloc 128 4096 = some (0, y) ∧ max 128 (1 * tcfg.stride) = 128
    ∧ (((chunks 8 (hotW.payload.drop 24)).map leNat).zipIdx.map fun (r, h) => (h, ((({ version := 0, ranges := [(0, 0, 1)] } : ShardMap).locate r).getD (0, 0))))
      = [(0, 1, 1)] ∧ 1 ≠ s.pairIndex
    ∧ (let z := ({ y with used := [(0, tcfg.stride)] } : State).setTableRun
         { (y.tableRun 511) with waiting := none, installing := some (hotW, 0, [0]), missing := 1 }
       let e : Exchange := { xid := 0, owner := 0, req := 0, reqOrder := 0, tile := 0, kind := 2, object := 511, ids := [], places := [] }
       (z.requestAll e 0 0 { tver 2 false with map := { version := 0, ranges := [(0, 0, 1)] } } [(1, 1, 0)]).isSome = true) := by
  refine ⟨hot_place _ rfl rfl rfl, ?_⟩
  decide +kernel

/-! ### Values of the manual's own tables and rules, worked by hand -/

/-- R47: 1 + 1, and 2^24 + 1, a tie that goes to the even 2^24; 2^24 + 3 is a tie that goes up. -/
theorem test_fp32_add_rounds_to_even :
    f32Add 0x3F800000#32 0x3F800000#32 = 0x40000000#32 ∧ f32Add 0x4B800000#32 0x3F800000#32 = 0x4B800000#32
    ∧ f32Add 0x4B800000#32 0x40400000#32 = 0x4B800002#32 := by decide +kernel
/-- R38: an infinity less itself, and 0 × infinity, are NaN. -/
theorem test_fp32_nan :
    f32IsNaN (f32Sub 0x7F800000#32 0x7F800000#32) = true ∧ f32IsNaN (f32Mul 0x00000000#32 0xFF800000#32) = true := by decide +kernel
/-- The fused product and sum are rounded once: (1 + 2^-12)^2 − 1 = 2^-11 + 2^-24. -/
theorem test_fp32_fma_single_rounding : f32Fma 0x3F800800#32 0x3F800800#32 0xBF800000#32 = 0x3A000400#32 := by decide +kernel
/-- R38: the greatest E4M3 value is 448, of E5M2 57,344, of E2M1 6, of E2M3 7.5, of E3M2 28. -/
theorem test_element_maxima :
    toF32From e4m3 0x7E = 0x43E00000#32 ∧ toF32From e5m2 0x7B = 0x47600000#32 ∧ toF32From e2m1 7 = 0x40C00000#32
    ∧ toF32From e2m3 0x1F = 0x40F00000#32 ∧ toF32From e3m2 0x1F = 0x41E00000#32 := by decide +kernel
/-- R46: a block of ones in E2M1 (greatest exponent 2) has scale 2^-2, code 125, and elements 4.0, code 6. -/
theorem test_mx_block_of_ones : mxBlock 8 (List.replicate 32 0x3F800000#32) = (List.replicate 32 6, 125, 0) := by decide +kernel
theorem test_mx_block_of_zeros : (mxBlock 4 (List.replicate 32 0#32)).2.1 = 0 := by decide +kernel
/-- Rounding to an integer goes to the even one of two equally near. -/
theorem test_round_to_even : roundInt 5 (-1) = 2 ∧ roundInt 7 (-1) = 4 ∧ roundInt (-5) (-1) = -2 := by decide +kernel
/-- R168: the order of keys is that of scores; a NaN has none. -/
theorem test_score_keys :
    (keyOf 0 0xBF800000#32).isSome = true ∧ (keyOf 0 0xBF800000#32).getD 0 < (keyOf 0 0#32).getD 0
    ∧ (keyOf 0 0#32).getD 0 < (keyOf 0 0x3F800000#32).getD 0 ∧ keyOf 0 0x7FC00000#32 = none := by decide +kernel
/-- R175: its own example: three best of eight scores, a tie at the last place, a NaN and a −0. -/
theorem test_topk_tie :
    let l := topkList 3 0 [0x3F400000, 0x3F000000, 0x3F000000, 0x3F000000, 0x3E800000, 0xBF000000, 0x7FC00000, 0x80000000]
      [40, 12, 33, 7, 21, 5, 9, 18] []
    (l.cands.map (·.id), l.lastKey, l.tieLeft, l.nans) = ([40, 7, 12], 0xBF000000, 1, 1) := by decide +kernel
theorem test_hist_counts_bytes : (binsOf 3 0 [0x01000000, 0x01FFFFFF, 0x02000000]).take 3 = [0, 2, 1] := by decide +kernel
/-- R127: arrivals, sums that saturate at 64 bits, the least and the greatest. -/
theorem test_barrier_combines : combine 0 [7, 9] = 2 ∧ combine 1 [2 ^ 64 - 1, 1] = 2 ^ 64 - 1 := by decide +kernel
/-- R410: nothing runs without PORT, and HOPPER stops all but PORT and TWIN. -/
theorem test_stop_closure : stopClosure 1 = 0xFF ∧ stopClosure 2 = 0x7E ∧ stopClosure 0x80 = 0x80 := by decide +kernel
/-- R348: the serial order of message ids wraps. -/
theorem test_serial_order : serialLt 0xFFFFFFFF 0 = true ∧ serialLt 0 0xFFFFFFFF = false ∧ serialLt 5 5 = false := by decide +kernel
/-- R350: the SEQ after the last one is 1. -/
theorem test_seq_wraps : State.nextSeq 0xFFFFFFFF = 1 ∧ State.nextSeq 1 = 2 := by decide +kernel
/-- A byte written reads back, its neighbours stay, and writing what an unlisted byte reads as leaves no entry. -/
theorem test_memory :
    let m := Memory.writeN [] 100 [1, 0, 3]
    Memory.read m 100 = 1 ∧ Memory.read m 102 = 3 ∧ Memory.read m 103 = 0 ∧ m.length = 2 ∧ Memory.wf m = true
    ∧ Memory.writeN m 100 [0, 0, 0] = [] := by decide +kernel
/-- CRC-32C of "123456789" is E3069283. -/
theorem test_crc32c : crc32c ([0x31, 0x32, 0x33, 0x34, 0x35, 0x36, 0x37, 0x38, 0x39] : Bytes) = 0xE3069283 := by decide +kernel
/-- U+20AC is three bytes; a lone continuation byte is ill-formed. -/
theorem test_utf8 : utf8Ok 3 [0xE2, 0x82, 0xAC] = true ∧ utf8Ok 1 [0x82] = false ∧ utf8Enc 0x20AC = [0xE2, 0x82, 0xAC] := by decide +kernel
/-- R466: IDCODE by ordering number, at any time. -/
theorem test_idcode : (match exec .tapIdcode State.reset with | .next s => decide (s.out = [.tdo 32 0x1C16A7AB]) | _ => false) = true := by decide +kernel
/-- R461: a reset in service asserts RESET_N and forgets the sessions. -/
theorem test_reset : (match exec .resetNAssert live with | .next s => decide (s.sessions = [] ∧ s.pins.resetLow = true ∧ s.boot.service = 0) | _ => false) = true := by
  decide +kernel
/-- R464: the management address of the straps; an address that is not its own stays silent. -/
theorem test_management_bus :
    (match exec (.mgmtWriteNack 0x58) live with | .next s => decide (s.out = [.mgmtNack]) | _ => false) = true
    ∧ (match exec (.mgmtWriteNack 0x59) live with | .next s => decide (s.out = []) | _ => false) = true := by decide +kernel
/-- R330: an idle step is one tick. -/
theorem test_idle_tick : (match step live with | .next s => decide (s.portTicks = 1) | _ => false) = true := by rfl
/-- R367: an INSPECT write of a register that takes none is NOT_PERMITTED, and leaves no message behind. -/
theorem test_inspect_write_refused :
    (match exec (.inspectWrite (msg 1 (inspect 0x108 1 0 0 1))) (deliver 1 0x40 (inspect 0x108 1 0 0 1) live) with
      | .next s => decide (s.delivered = [] ∧ s.out.length = 1)
      | _ => false) = true := by decide +kernel
end Sys2Proof.Tests
end

section
/-! PROOFS. The Hopper's rows of R24, R106, R117, R270, R279 and R288: budgets, records, handles, write-backs and page copies. What each
row does is said once, by case, of the operation behind it; O49 is put together from these lemmas. -/

namespace Sys2Proof.Machine

-- The operation behind each row

theorem exec_deadlineExpiry (r : Nat) (s : State) : exec (.deadlineExpiry r) s = .next (s.after (s.doDeadlineExpiry r)) := rfl
theorem exec_workCompletionRecord (i : Nat) (s : State) :
    exec (.workCompletionRecord i) s = .next (s.after (s.doWorkCompletionRecord i)) := rfl
theorem exec_hopperHandoff (i : Nat) (s : State) : exec (.hopperHandoff i) s = .next (s.after (s.doHopperHandoff i)) := rfl
theorem exec_kvWritebackDone (r : Nat) (s : State) : exec (.kvWritebackDone r) s = .next (s.after (s.doKvWritebackDone r)) := rfl
theorem exec_prefixPageCopyDone (r : Nat) (s : State) :
    exec (.prefixPageCopyDone r) s = .next (s.after (s.doPrefixPageCopyDone r)) := rfl

namespace State

-- Budgets, records and write-backs

theorem doDeadlineExpiry_undecided {s : State} {r d : Nat} {q : Request} (hq : s.req? r = some q) (hd : q.deadline = some d)
    (hst : q.status = none) :
    s.doDeadlineExpiry r = ({ s with meshCount := max s.meshCount d } : State).endRequest r stDeadline := by
  simp only [doDeadlineExpiry, hq, hd, hst]

theorem doWorkCompletionRecord_flying {s : State} {i : Nat} {c : Completion} (hc : s.completions[i]? = some c)
    (hf : s.runFlying c = true) : s.doWorkCompletionRecord i = s := by
  simp only [doWorkCompletionRecord, hc, hf, if_true]

theorem doWorkCompletionRecord_arrived {s : State} {i : Nat} {c : Completion} (hc : s.completions[i]? = some c)
    (hf : s.runFlying c = false) :
    let r := fld c.record 63 52
    let u := ({ s with completions := s.completions.eraseIdx i } : State).releaseBuffers c.released
    s.doWorkCompletionRecord i = ((u.chargeShare c.pool (((u.req? r).map (·.shareClass)).getD 0)).takeRecord c).freeIfIdle r := by
  simp only [doWorkCompletionRecord, hc, hf, Bool.false_eq_true, if_false]

theorem doKvWritebackDone_undecided {s : State} {r : Nat} {q : Request} (hq : s.req? r = some q) (hw : q.writeback = true)
    (hst : q.status = none) :
    s.doKvWritebackDone r = (s.unstage ((q.pages.filter fun p => !p.shared).map (·.base)) (s.pageBytes q)).setReq r
      fun q => { q with writeback := false } := by
  simp only [doKvWritebackDone, hq, hw, hst, Option.isNone_none, Bool.and_self, if_true]

/-- R288: with no listed line in the handle's partial pages, their positions are copied to the request's own pages, layer by layer. -/
theorem doPrefixPageCopyDone_clean {s : State} {r : Nat} {q : Request} {p : Prefix} (hq : s.req? r = some q) (hc : q.copying = true)
    (hst : q.status = none) (hp : s.prefixes.find? (fun p => some p.handle == q.reuse) = some p)
    (hclean : p.partialPages.find? (fun a => s.hasBadLine a (q.length % 64 * (s.pageBytes q / 64))) = none) :
    let layers := ((s.modelOf q).map (·.layers)).getD 1
    let own := ((q.pages.drop (q.length / 64 * layers)).take layers).map (·.base)
    let n := q.length % 64 * (s.pageBytes q / 64)
    s.doPrefixPageCopyDone r = (((p.partialPages.zip own).foldl (fun (s : State) y =>
      s.storeHbm (some r) fnHopper y.2 (s.readMem y.1 n)) s).setReq r fun q => { q with copying := false }).advanceKv r q.length := by
  simp only [doPrefixPageCopyDone, hq, hc, hst, hp, hclean, Option.isNone_none, Bool.and_self, if_true]

-- Handles (R117)

/-- The hand-off at place `i` has been taken up. -/
def dropHandoff (i : Nat) (s : State) : State := { s with handoffs := s.handoffs.eraseIdx i }

theorem dropHandoff_fold (s : State) (i : Nat) : ({ s with handoffs := s.handoffs.eraseIdx i } : State) = s.dropHandoff i := rfl
@[simp] theorem dropHandoff_req? (s : State) (i r : Nat) : (s.dropHandoff i).req? r = s.req? r := rfl
@[simp] theorem dropHandoff_planOf (s : State) (i : Nat) (q : Request) : (s.dropHandoff i).planOf q = s.planOf q := rfl
@[simp] theorem dropHandoff_stageOf (s : State) (i : Nat) (q : Request) (st : Nat) : (s.dropHandoff i).stageOf q st = s.stageOf q st := rfl
@[simp] theorem dropHandoff_stepOf (s : State) (i r order : Nat) : (s.dropHandoff i).stepOf r order = s.stepOf r order := rfl

/-- The handle comes from a shared work item of a REPEAT stage of the request's plan: its step keeps it (R117, log 103). -/
def HandShared (s : State) (q : Request) (x : Hand) : Prop :=
  (s.stageOf q x.stage).map (·.repeats) = some true ∧ ((s.planOf q).bind fun p => p.items[x.template]?).map perRequest = some false

variable {s : State} {i : Nat} {h : Handoff} {q : Request}

/-- R117: a shared work item's handle joins those of its step, or its producer faults where a stage that takes it is full. -/
theorem doHopperHandoff_ofStep {d : DecodeStep} (hi : s.handoffs[i]? = some h)
    (hfirst : (s.handoffs.take i).any (fun g => g.run == h.run && g.reqOrder == h.reqOrder) = false) (hq : s.req? h.req = some q)
    (hs : s.HandShared q h.hand) (hd : s.stepOf h.req h.reqOrder = some d) :
    s.doHopperHandoff i = if (s.dropHandoff i).handsFull q (q.hands ++ d.hands) h.hand.stage
      then ((s.dropHandoff i).releaseBuffer h.hand.handle).faultProducer h.run h.reqOrder
      else (s.dropHandoff i).setStep { d with hands := d.hands ++ [h.hand] } := by
  obtain ⟨hrep, hown⟩ := hs
  obtain ⟨w, hw, hper⟩ := Option.map_eq_some_iff.1 hown
  simp only [doHopperHandoff, hi, hfirst, dropHandoff_fold, dropHandoff_req?, hq, dropHandoff_stageOf, hrep, dropHandoff_planOf, hw, hper,
    dropHandoff_stepOf, hd, Bool.not_false, Bool.false_eq_true, if_true, if_false]
  rfl

/-- R87, R117: any other handle joins those of its request, or is released where the request has ended or a stage that takes it is full. -/
theorem doHopperHandoff_ofRequest (hi : s.handoffs[i]? = some h)
    (hfirst : (s.handoffs.take i).any (fun g => g.run == h.run && g.reqOrder == h.reqOrder) = false) (hq : s.req? h.req = some q)
    (hs : ¬s.HandShared q h.hand ∨ s.stepOf h.req h.reqOrder = none) :
    s.doHopperHandoff i = if q.order != h.reqOrder || q.status.isSome then (s.dropHandoff i).releaseBuffer h.hand.handle
      else if (s.dropHandoff i).handsFull q q.hands h.hand.stage
        then ((s.dropHandoff i).releaseBuffer h.hand.handle).faultProducer h.run h.reqOrder
      else
        let v := (s.dropHandoff i).setReq h.req fun q => { q with hands := q.hands ++ [h.hand] }
        if h.opcode = 0x36 then v.seeToken h.req else v := by
  simp only [doHopperHandoff, hi, hfirst, dropHandoff_fold, dropHandoff_req?, hq, dropHandoff_stageOf, dropHandoff_planOf,
    dropHandoff_stepOf, Bool.false_eq_true, if_false]
  split
  case h_1 d hstep =>
    obtain ⟨hshared, hd⟩ := Option.ite_none_right_eq_some.1 hstep
    split at hshared
    case h_1 w hrep hw =>
      have hfrom : s.HandShared q h.hand := ⟨hrep, by simpa [hw] using hshared⟩
      have hnone : s.stepOf h.req h.reqOrder = none := hs.resolve_left (not_not_intro hfrom)
      exact absurd (hd.symm.trans hnone) (Option.some_ne_none d)
    case h_2 => exact absurd hshared Bool.false_ne_true
  case h_2 => rfl

end State

/-- Settles O49: each row's cases, by the lemmas about the operation behind it. -/
theorem hopperTakesRecordsAndHandles : Obligations.HopperTakesRecordsAndHandles := by
  refine ⟨?deadline, ?record, ?handoff, ?writeback, ?copy⟩
  case deadline =>
    intro r d s q hq hd hst
    rw [exec_deadlineExpiry, State.doDeadlineExpiry_undecided hq hd hst]
  case record =>
    intro i s c hc
    refine ⟨fun hf => ?_, fun hf => ?_⟩
    · rw [exec_workCompletionRecord, State.doWorkCompletionRecord_flying hc hf]
    · rw [exec_workCompletionRecord, State.doWorkCompletionRecord_arrived hc hf]
  case handoff =>
    intro i s h q hi hfirst hq u shared
    refine ⟨fun d hs hd => ?_, fun hs => ?_⟩
    · rw [exec_hopperHandoff, State.doHopperHandoff_ofStep hi hfirst hq hs hd]; rfl
    · rw [exec_hopperHandoff, State.doHopperHandoff_ofRequest hi hfirst hq hs]
      refine ⟨fun hended => ?_, fun ho hst (hfull : (s.dropHandoff i).handsFull q q.hands h.hand.stage = true) => ?_,
        fun ho hst (hroom : (s.dropHandoff i).handsFull q q.hands h.hand.stage = false) => ?_⟩
      · rw [if_pos (by simpa [Option.isSome_iff_ne_none] using hended)]
        rfl
      · rw [if_neg (by simp [ho, hst]), if_pos hfull]
        rfl
      · rw [if_neg (by simp [ho, hst]), if_neg (Bool.eq_false_iff.1 hroom)]
        rfl
  case writeback =>
    intro r s q hq hw hst
    rw [exec_kvWritebackDone, State.doKvWritebackDone_undecided hq hw hst]
  case copy =>
    intro r s q p hq hc hst hp layers own n hclean
    rw [exec_prefixPageCopyDone, State.doPrefixPageCopyDone_clean hq hc hst hp hclean]

end Sys2Proof.Machine
end

section
/-! PROOFS. The arithmetic rows of the arrays and of the vector unit (R31 to R58, R103, R147): what a ready work item leaves. -/

namespace Sys2Proof.Machine

-- Arithmetic work items (R103)

theorem exec_gemm (t : Nat) (s : State) : exec (.gemm t) s = .next (s.after (s.doGemm t)) := rfl
theorem exec_conv (t : Nat) (s : State) : exec (.conv t) s = .next (s.after (s.doConv t)) := rfl
theorem exec_dist (t : Nat) (s : State) : exec (.dist t) s = .next (s.after (s.doDist t)) := rfl
theorem exec_ewUnary (t : Nat) (s : State) : exec (.ewUnary t) s = .next (s.after (s.doEwUnary t)) := rfl
theorem exec_ewBinary (t : Nat) (s : State) : exec (.ewBinary t) s = .next (s.after (s.doEwBinary t)) := rfl
theorem exec_ewFma (t : Nat) (s : State) : exec (.ewFma t) s = .next (s.after (s.doEwFma t)) := rfl
theorem exec_reduce (t : Nat) (s : State) : exec (.reduce t) s = .next (s.after (s.doReduce t)) := rfl
theorem exec_norm (t : Nat) (s : State) : exec (.norm t) s = .next (s.after (s.doNorm t)) := rfl
theorem exec_softmax (t : Nat) (s : State) : exec (.softmax t) s = .next (s.after (s.doSoftmax t)) := rfl
theorem exec_pool2d (t : Nat) (s : State) : exec (.pool2d t) s = .next (s.after (s.doPool2d t)) := rfl
theorem exec_dwconv (t : Nat) (s : State) : exec (.dwconv t) s = .next (s.after (s.doDwconv t)) := rfl
theorem exec_convert (t : Nat) (s : State) : exec (.convert t) s = .next (s.after (s.doConvert t)) := rfl

/-- R103: away from the Wheel's tiles a DIST is a plan's work item. -/
theorem State.doDist_ofPlan {t : Nat} {s : State} (hplan : s.wheelAt t = none) : s.doDist t = s.planDist t := by
  simp only [State.doDist, hplan]

/-- Settles O39: each row runs its opcode's function on the delivered bytes; SOFTMAX has its mask where slot 1 is used. -/
theorem arithmeticItemsWriteResults : Obligations.ArithmeticItemsWriteResults := by
  intro t s u x bs w d rows second third conv done
  refine ⟨?gemm, ?conv, ?dist, ?ewUnary, ?ewBinary, ?ewFma, ?reduce, ?norm, ?softmax, ?pool2d, ?dwconv, ?convert⟩
  case gemm => intro h; rw [exec_gemm, State.doGemm, State.runOp_ready h]; rfl
  case conv => intro h; rw [exec_conv, State.doConv, State.runOp_ready h]; rfl
  case dist => intro h hplan; rw [exec_dist, State.doDist_ofPlan hplan, State.planDist, State.runOp_ready h]; rfl
  case ewUnary => intro h; rw [exec_ewUnary, State.doEwUnary, State.runOp_ready h]; rfl
  case ewBinary => intro h; rw [exec_ewBinary, State.doEwBinary, State.runOp_ready h]; rfl
  case ewFma => intro h; rw [exec_ewFma, State.doEwFma, State.runOp_ready h]; rfl
  case reduce => intro h; rw [exec_reduce, State.doReduce, State.runOp_ready h]; rfl
  case norm => intro h; rw [exec_norm, State.doNorm, State.runOp_ready h]; rfl
  case softmax =>
    intro h ls mask
    rw [exec_softmax, State.doSoftmax, State.runOp_ready h]
    cases hmask : wUses x.item.wi 1
    case false => simp [hmask, State.finishWith, done, w, ls, rows, d]
    case true => simp [hmask, State.finishWith, done, w, ls, rows, mask, d]
  case pool2d => intro h; rw [exec_pool2d, State.doPool2d, State.runOp_ready h]; rfl
  case dwconv => intro h; rw [exec_dwconv, State.doDwconv, State.runOp_ready h]; rfl
  case convert => intro h; rw [exec_convert, State.doConvert, State.runOp_ready h]; rfl

end Sys2Proof.Machine
end

section
/-! PROOFS. Integer sums (R41, R44, R51): what any order of the saturating additions keeps. -/

namespace Sys2Proof.Machine

namespace State

theorem freeBelow_lt (s : State) {n : Nat} (hn : 0 < n) : (s.freeBelow n).1 < n := Nat.mod_lt _ hn

/-- R44: one step of a sum adds some two of its terms and goes on with the rest. -/
theorem sumAny_step {α : Type} (add : α → α → α) (zero : α) (k : Nat) (x y : α) (r : List α) (s : State) :
    ∃ a b rest v, (a :: b :: rest).Perm (x :: y :: r) ∧ sumAny add zero (k + 1) (x :: y :: r) s = sumAny add zero k (add a b :: rest) v := by
  let l := x :: y :: r
  let i := s.freeBelow l.length
  let j := i.2.freeBelow (l.eraseIdx i.1).length
  have hi : i.1 < l.length := s.freeBelow_lt (Nat.succ_pos _)
  have hrest : (l.eraseIdx i.1).length + 1 = r.length + 2 := List.length_eraseIdx_add_one hi
  have hj : j.1 < (l.eraseIdx i.1).length := i.2.freeBelow_lt (by omega)
  refine ⟨l[i.1], (l.eraseIdx i.1)[j.1], (l.eraseIdx i.1).eraseIdx j.1, j.2,
    ((List.getElem_cons_eraseIdx_perm hj).cons _).trans (List.getElem_cons_eraseIdx_perm hi), ?_⟩
  rw [← List.getD_eq_getElem l x hi, ← List.getD_eq_getElem _ y hj]
  rfl

/-- R44: what holds of a sum's terms in every order, and still holds once the first two are added, holds of the sum that is left. -/
theorem sumAny_keeps {α : Type} {add : α → α → α} {zero : α} {P : List α → Prop} (hperm : ∀ {l l'}, l.Perm l' → P l → P l')
    (hadd : ∀ {a b l}, P (a :: b :: l) → P (add a b :: l)) {k : Nat} {l : List α} {s : State} (hne : l ≠ [])
    (hlen : l.length ≤ k + 1) (hl : P l) : P [(sumAny add zero k l s).1] := by
  induction k generalizing l s with
  | zero =>
    match l, hlen with
    | [x], _ => simpa only [sumAny] using hl
  | succ k ih =>
    match l with
    | [x] => simpa only [sumAny] using hl
    | x :: y :: r =>
      obtain ⟨a, b, rest, v, htwo, hstep⟩ := sumAny_step add zero k x y r s
      rw [hstep]
      have hleft := htwo.length_eq
      exact ih (List.cons_ne_nil _ _) (by simp only [List.length_cons] at *; omega) (hadd (hperm htwo.symm hl))

end State

/-- A value of the 32-bit range. -/
def InI32 (x : Int) : Prop := -(2 ^ 31) ≤ x ∧ x ≤ 2 ^ 31 - 1

theorem satInt_inI32 (i : Int) : InI32 (satInt 32 i).1 := by
  simp only [satInt, InI32]
  split
  · decide
  · split
    · decide
    · constructor <;> dsimp only <;> omega

theorem satInt_exact {w : Nat} {i : Int} (h : (satInt w i).2 = false) : (satInt w i).1 = i := by
  unfold satInt at h ⊢
  split
  case isTrue hbig => simp [hbig] at h
  case isFalse hbig =>
    split
    case isTrue hsmall => simp [hbig, hsmall] at h
    case isFalse => rfl

/-- R41: terms of a saturating sum, each in range, whose exact sum is `total` unless one is flagged. -/
def TermsOf (total : Int) (l : List (Int × Bool)) : Prop :=
  (∀ p ∈ l, InI32 p.1) ∧ ((∀ p ∈ l, p.2 = false) → (l.map Prod.fst).sum = total)

theorem TermsOf.perm {total : Int} {l l' : List (Int × Bool)} (h : l.Perm l') (hl : TermsOf total l) : TermsOf total l' := by
  obtain ⟨hrange, hexact⟩ := hl
  refine ⟨fun p hp => hrange p (h.mem_iff.2 hp), fun hflags => ?_⟩
  rw [← (h.map Prod.fst).sum_eq]
  exact hexact fun p hp => hflags p (h.mem_iff.1 hp)

/-- The saturating addition of two marked terms (R41). -/
def addI32 (a b : Int × Bool) : Int × Bool := ((satInt 32 (a.1 + b.1)).1, a.2 || b.2 || (satInt 32 (a.1 + b.1)).2)

theorem TermsOf.add {total : Int} {a b : Int × Bool} {l : List (Int × Bool)} (h : TermsOf total (a :: b :: l)) :
    TermsOf total (addI32 a b :: l) := by
  obtain ⟨hrange, hexact⟩ := h
  simp only [List.forall_mem_cons, List.map_cons, List.sum_cons] at hrange hexact
  obtain ⟨-, -, hrest⟩ := hrange
  simp only [TermsOf, List.forall_mem_cons, List.map_cons, List.sum_cons]
  refine ⟨⟨satInt_inI32 _, hrest⟩, fun ⟨hflag, hflags⟩ => ?_⟩
  simp only [addI32, Bool.or_eq_false_iff] at hflag
  obtain ⟨⟨ha, hb⟩, hsat⟩ := hflag
  rw [← hexact ⟨ha, hb, hflags⟩, ← add_assoc]
  exact congrArg (· + _) (satInt_exact hsat)

theorem TermsOf.ofInts {xs : List Int} (h : ∀ x ∈ xs, InI32 x) : TermsOf xs.sum (xs.map fun x => (x, false)) := by
  refine ⟨by simpa using h, fun _ => ?_⟩
  simp [Function.comp_def]

/-- A sum is that of its positive terms and that of its negative ones. -/
theorem sum_eq_pos_add_neg (xs : List Int) :
    xs.sum = (xs.filter (0 < ·)).sum + (xs.filter (· < 0)).sum ∧ 0 ≤ (xs.filter (0 < ·)).sum ∧ (xs.filter (· < 0)).sum ≤ 0 := by
  induction xs with
  | nil => simp
  | cons x xs ih =>
    obtain ⟨hsum, hpos, hneg⟩ := ih
    rcases lt_trichotomy x 0 with h | h | h
    · simp [h, h.not_gt]; omega
    · simp [h]; omega
    · simp [h, h.not_gt]; omega

/-- R41, R44, R51: a sum is in range, and exact unless it is flagged. -/
theorem State.sumI32_termsOf {xs : List Int} (s : State) (h : ∀ x ∈ xs, InI32 x) : TermsOf xs.sum [(s.sumI32 xs).1] := by
  obtain ⟨hsum, hpos, hneg⟩ := sum_eq_pos_add_neg xs
  simp only [sumI32]
  split
  case isTrue hsafe =>
    simp only [Bool.and_eq_true, decide_eq_true_eq] at hsafe
    obtain ⟨hp, hn⟩ := hsafe
    refine ⟨?_, ?_⟩
    · simp only [List.forall_mem_singleton, InI32]; omega
    · simp [hsum]
  case isFalse hwide =>
    have hne : xs ≠ [] := by rintro rfl; exact hwide rfl
    exact sumAny_keeps TermsOf.perm TermsOf.add (by simpa using hne) (by simp) (.ofInts h)

/-- Settles O40: the sum's one term is in range and, unflagged, exact; a sum out of range is therefore flagged. -/
theorem integerSumsSaturate : Obligations.IntegerSumsSaturate := by
  intro xs s h r
  obtain ⟨hrange, hexact⟩ := s.sumI32_termsOf h
  simp only [List.forall_mem_singleton, List.map_cons, List.map_nil, List.sum_singleton] at hrange hexact
  obtain ⟨hlo, hhi⟩ := hrange
  refine ⟨hhi, hlo, hexact, fun hout => ?_⟩
  by_contra hflag
  have hsum := hexact (Bool.eq_false_iff.2 hflag)
  omega

end Sys2Proof.Machine
end

section
/-! PROOFS. The conversion of a block of FP32 values to an MX block (R46), by its three cases: a value that is not finite, no magnitude,
and a largest magnitude. -/

namespace Sys2Proof.Machine

theorem f32Dy_eq_some_iff {x : W32} {m e : Int} : f32Dy x = some ⟨m, e⟩ ↔ ∃ z, f32Val x = .fin z m e := by
  cases h : f32Val x <;> simp [f32Dy, h]

theorem f32Dy_eq_none_iff {x : W32} : f32Dy x = none ↔ f32Val x = .nan ∨ ∃ n, f32Val x = .inf n := by
  cases h : f32Val x <;> simp [f32Dy, h]

theorem f32Dy_ne_none_iff {x : W32} : f32Dy x ≠ none ↔ ∃ z m e, f32Val x = .fin z m e := by
  cases h : f32Val x <;> simp [f32Dy, h]

/-- The exponent of the largest power of two in a value's magnitude; none for a zero. -/
def Dy.top (d : Dy) : Option Int := if d.m = 0 then none else some ((Nat.log2 d.m.natAbs : Int) + d.e)

/-- These exponents of a block's finite values. -/
def mxTops (xs : List W32) : List Int := (xs.map f32Dy).filterMap fun v => v.bind Dy.top

theorem filterMap_eq_mxTops {g : Option Dy → Option Int} {xs : List W32} (hnone : g none = none) (hsome : ∀ d, g (some d) = d.top) :
    (xs.map f32Dy).filterMap g = mxTops xs :=
  List.filterMap_congr fun v _ => by
    cases v with
    | none => exact hnone
    | some d => exact hsome d

theorem mem_mxTops {xs : List W32} {i : Int} :
    i ∈ mxTops xs ↔ ∃ y ∈ xs, ∃ n k z, f32Val y = .fin z n k ∧ n ≠ 0 ∧ (Nat.log2 n.natAbs : Int) + k = i := by
  simp only [mxTops, List.mem_filterMap, List.mem_map, exists_exists_and_eq_and, Option.bind_eq_some_iff, Dy.top]
  refine exists_congr fun y => and_congr_right fun _ => ⟨?_, ?_⟩
  · rintro ⟨⟨n, k⟩, hy, htop⟩
    obtain ⟨z, hz⟩ := f32Dy_eq_some_iff.1 hy
    by_cases hn : n = 0
    · simp [hn] at htop
    · exact ⟨n, k, z, hz, hn, by simpa [hn] using htop⟩
  · rintro ⟨n, k, z, hz, hn, htop⟩
    exact ⟨⟨n, k⟩, f32Dy_eq_some_iff.2 ⟨z, hz⟩, by simp [hn, htop]⟩

/-- R46: the scale's exponent of a block whose largest magnitude has the exponent `top`. -/
def mxScale (f : Nat) (top : Int) : Int := max (-127) (min 127 (top - mxEmax f))

/-- R46: the element code of a finite value under the scale `2^sc`. -/
def mxCode (f : Nat) (sc : Int) (x : W32) (d : Dy) : Nat :=
  if f = 9 then unsignedOf 8 (max (-127) (min 127 (roundInt d.m (d.e - sc + 6))))
  else fsigned (fmtOf f) (f32Val x).isNeg (roundCode (fmtOf f).prec (fmtOf f).eminq d.m.natAbs 1 (d.e - sc)) (fmtOf f).maxCode

theorem mxBlock_notFinite (f : Nat) {xs : List W32} (h : ∃ y ∈ xs, f32Dy y = none) :
    mxBlock f xs = (List.replicate xs.length 0, 0xFF, 0) := by
  simp [mxBlock, h]

/-- R46: a block of finite values is one of zeros, or has a largest magnitude that gives its scale and with it every element. -/
theorem mxBlock_finite (f : Nat) {xs : List W32} (h : ∀ y ∈ xs, f32Dy y ≠ none) :
    (mxTops xs = [] ∧ mxBlock f xs = (List.replicate xs.length 0, 0, 0))
    ∨ ∃ top, (mxTops xs).max? = some top ∧ (mxBlock f xs).2.1 = (mxScale f top + 127).toNat
      ∧ ∀ (i : Nat) (x : W32) (d : Dy), xs[i]? = some x → f32Dy x = some d → (mxBlock f xs).1[i]? = some (mxCode f (mxScale f top) x d) := by
  have hfin : ((xs.map f32Dy).any fun v => v.isNone) = false := by simpa using h
  unfold mxBlock
  simp only [hfin, Bool.false_eq_true, if_false]
  rw [filterMap_eq_mxTops rfl fun _ => rfl]
  cases htops : mxTops xs with
  | nil => exact .inl ⟨rfl, by simp⟩
  | cons a r =>
    refine .inr ⟨r.foldl max a, List.max?_cons', rfl, fun i x d hx hd => ?_⟩
    have hzip : (xs.zip (xs.map f32Dy))[i]? = some (x, some d) := by simp [List.getElem?_zip_eq_some, hx, hd]
    simp only [List.map_map, List.getElem?_map, hzip, Option.map_some, Function.comp_apply, mxCode, mxScale]
    split <;> rfl

/-- R46: a block whose largest magnitude has the exponent `top` has no greater one. -/
theorem mxTops_max? {xs : List W32} {top : Int}
    (hmem : ∃ y ∈ xs, ∃ n k z, f32Val y = .fin z n k ∧ n ≠ 0 ∧ (Nat.log2 n.natAbs : Int) + k = top)
    (hle : ∀ y ∈ xs, ∀ n k z, f32Val y = .fin z n k → n ≠ 0 → (Nat.log2 n.natAbs : Int) + k ≤ top) : (mxTops xs).max? = some top := by
  refine List.max?_eq_some_iff.2 ⟨mem_mxTops.2 hmem, fun i hi => ?_⟩
  obtain ⟨y, hy, n, k, z, hz, hn, rfl⟩ := mem_mxTops.1 hi
  exact hle y hy n k z hz hn

/-- R46: the exponent of the greatest power of two of each MX element format. -/
theorem mxEmax_eq {f : Nat} (hf : isMx f = true) :
    mxEmax f = if f = 4 then 8 else if f = 5 then 15 else if f = 6 then 2 else if f = 7 then 4 else if f = 8 then 2 else 0 := by
  simp only [isMx, Bool.and_eq_true, decide_eq_true_eq] at hf
  obtain ⟨hlo, hhi⟩ := hf
  interval_cases f <;> rfl

/-- R38, R46: an element beyond the format's maximum is the maximum. -/
theorem fsigned_maxCode (ff : FFmt) (neg : Bool) (c : Nat) :
    fsigned ff neg c ff.maxCode = min c ff.maxCode + if neg then 2 ^ (ff.width - 1) else 0 := by
  simp only [fsigned]
  congr 1
  split <;> omega

/-- Settles O41: the three cases of a block's conversion; the largest magnitude's exponent is the greatest of `mxTops`. -/
theorem mxBlocksFollowTheOcpConversion : Obligations.MxBlocksFollowTheOcpConversion := by
  intro f xs hf hlen
  refine ⟨?notFinite, ?zeros, ?scaled⟩
  case notFinite =>
    rintro ⟨y, hy, hval⟩
    rw [mxBlock_notFinite f ⟨y, hy, f32Dy_eq_none_iff.2 hval⟩, hlen]
  case zeros =>
    intro hzero
    have hfin : ∀ y ∈ xs, f32Dy y ≠ none := fun y hy =>
      let ⟨z, k, hz⟩ := hzero y hy
      f32Dy_ne_none_iff.2 ⟨z, 0, k, hz⟩
    obtain ⟨-, hblock⟩ | ⟨top, htop, -⟩ := mxBlock_finite f hfin
    · rw [hblock, hlen]
    · obtain ⟨y, hy, n, k, z, hz, hn, -⟩ := mem_mxTops.1 (List.max?_eq_some_iff.1 htop).1
      obtain ⟨z', k', hz'⟩ := hzero y hy
      obtain ⟨-, hn0, -⟩ := FVal.fin.inj (hz.symm.trans hz')
      exact absurd hn0 hn
  case scaled =>
    intro top i x m e hval hmem hle emax sc
    have hmax := mxTops_max? hmem hle
    have hfin : ∀ y ∈ xs, f32Dy y ≠ none := fun y hy => f32Dy_ne_none_iff.2 (hval y hy)
    have hsc : sc = mxScale f top := by rw [mxScale, mxEmax_eq hf]
    obtain ⟨htops, -⟩ | ⟨top', htop', hscale, hcodes⟩ := mxBlock_finite f hfin
    · simp [htops] at hmax
    · obtain rfl : top = top' := Option.some.inj (hmax.symm.trans htop')
      rw [← hsc] at hscale hcodes
      refine ⟨by omega, fun hx hxval => ?_⟩
      have hcode := hcodes i x ⟨m, e⟩ hx (f32Dy_eq_some_iff.2 hxval)
      refine ⟨fun h9 => ?_, fun h9 => ?_⟩
      · rw [hcode, mxCode, if_pos h9]
      · rw [hcode, mxCode, if_neg h9, fsigned_maxCode]

end Sys2Proof.Machine
end

section
/-! PROOFS. A work item's input fault (R85, R99, R105, R106): the rows of the opcodes that read their slots, and how a faulting work item
ends. -/

namespace Sys2Proof.Machine

namespace State

variable {s u : State} {t code f : Nat} {text : Bool} {x : Running}

-- Running an opcode on an idle tile, and with a faulting stream

/-- An opcode's work over the slots that it reads whole: all input slots, or slot 0 alone where the others name tables. -/
def runItem (text : Bool) (t code : Nat) (act : Running → (Nat → Bytes) → State → State) (s : State) : State :=
  match text with
  | true => s.runSlots t code [0] act
  | false => s.runOp t code act

theorem runItem_idle (hidle : s.running? t code = none) (act) : s.runItem text t code act = s := by
  cases text with
  | true => simp only [runItem, runSlots, hidle]
  | false => simp only [runItem, runOp, hidle]

theorem runItem_fault (hrun : s.running? t code = some x)
    (hread : readSlots (s.ioFor t x.item) x (slotsRead text x.item.wi) s = (.error f, u)) (act) :
    s.runItem text t code act = u.faultItem t x f := by
  cases text with
  | true =>
    simp only [slotsRead, if_true] at hread
    simp only [runItem, runSlots, hrun, hread]
  | false =>
    simp only [slotsRead, Bool.false_eq_true, if_false] at hread
    simp only [runItem, runOp, hrun, hread]

/-- Every row of `itemRow` runs its opcode on the slots that it reads whole; DIST does so away from the Wheel's tiles. -/
theorem exec_itemRow {c : Instr} (hc : itemRow c = some (t, code, text)) (hplan : s.wheelAt t = none) :
    ∃ act, exec c s = .next (s.after (s.runItem text t code act)) := by
  cases c
  case dist t' =>
    cases hc
    exact ⟨_, (exec_dist t s).trans (congrArg (fun v => Host.Outcome.next (s.after v)) (doDist_ofPlan hplan))⟩
  all_goals cases hc
  all_goals exact ⟨_, rfl⟩

-- The end of a work item

/-- An ended work item's waits and fault are counted, its cache lines written back and its handles sent (R85, R105). -/
def sendOutputs (t : Nat) (c : Closing) (s : State) : State :=
  let s := (s.chargeWaits t c.x).noteFault t c.x.item.req c.fault
  let s := if wFlush c.x.item.wi then s.flushCache t else s
  s.sendHandles t c.x (c.spans.flatMap fun p => s.handlesFor (slotDesc c.x p.1) (wGang c.x.item.wi) p.2 (wOutTag c.x.item.wi)) (c.fault != 0)

theorem sendOutputs_ends (t : Nat) (c : Closing) (s : State) : Ends s (s.sendOutputs t c) := by
  have hflush : ∀ v : State, Ends v (if wFlush c.x.item.wi then v.flushCache t else v) := fun v => by
    split
    · exact flushCache_ends t v
    · exact Ends.rfl' v
  exact (((chargeWaits_ends t c.x s).trans (noteFault_ends t c.x.item.req c.fault _)).trans (hflush _)).trans (sendHandles_ends t c.x _ _ _)

/-- The completion of an ended work item. -/
def doneOf (t : Nat) (c : Closing) : Completion := completionFor t c.x c.fault c.flags c.aux c.rejected

/-- A tile no longer runs a run. -/
def dropRun (t run : Nat) (s : State) : State := s.setTile t fun y => { y with running := y.running.filter fun z => !(z.run == run) }

/-- A record leaves for the Hopper. -/
def addCompletion (r : Completion) (s : State) : State := { s with completions := s.completions ++ [r] }

theorem dropRun_running {s : State} {t run : Nat} {z : Running} (h : ((s.dropRun t run).tile t).running = some z) : z.run ≠ run := by
  rw [dropRun, tile_setTile] at h
  simpa using (Option.filter_eq_some_iff.1 h).2

/-- After the handles the record leaves and the tile is free, or both wait for credits. -/
theorem closeItem_eq (t : Nat) (c : Closing) (s : State) :
    s.closeItem t c = if (s.sendOutputs t c).waitsForCredit t c.x.run
      then ((s.sendOutputs t c).chargeFree (tileCtr t 0x20)).setTile t fun y => { y with
        running := y.running.map fun z => if z.run == c.x.run then { z with waits := 4 } else z
        closing := y.closing ++ [{ c with done := some (doneOf t c) }] }
      else ((s.sendOutputs t c).dropRun t c.x.run).addCompletion (doneOf t c) := rfl

/-- R85, R105: the record of an ended work item has left and its tile runs it no longer, or both wait while its handles wait for credits. -/
theorem closeItem_leaves_or_waits (t : Nat) (c : Closing) (s : State) :
    let v := s.closeItem t c
    (v.completions = s.completions ++ [doneOf t c] ∧ ∀ z, (v.tile t).running = some z → z.run ≠ c.x.run)
    ∨ (v.completions = s.completions ∧ v.waitsForCredit t c.x.run = true
      ∧ ∃ k ∈ (v.tile t).closing, k.x = c.x ∧ k.done = some (doneOf t c)) := by
  dsimp only
  have hsent := (sendOutputs_ends t c s).completions
  rw [closeItem_eq]
  split
  case isTrue hwait =>
    refine .inr ⟨hsent, hwait, { c with done := some (doneOf t c) }, ?_, rfl, rfl⟩
    rw [tile_setTile]
    exact List.mem_append_right _ (List.mem_singleton.2 rfl)
  case isFalse =>
    exact .inl ⟨congrArg (· ++ [doneOf t c]) hsent, fun z hz => dropRun_running hz⟩

end State

theorem packed_nil : packed [] = 0 := rfl
theorem packed_cons (a n : Nat) (fs : List (Nat × Nat)) : packed ((a, n) :: fs) = n * 2 ^ a + packed fs := rfl

/-- R106: a completion record with neither flags nor a count. -/
theorem recordFor_plain (x : Running) (f : Nat) : State.recordFor x f 0 0
    = f * 2 ^ 24 + (x.item.template * 2 ^ 27 + (x.item.stage * 2 ^ 43 + x.item.req * 2 ^ 52)) := by
  rw [State.recordFor, Nat.add_zero, packed_cons, packed_cons, packed_cons, packed_cons, packed_cons, packed_nil, satTo, Nat.zero_min,
    Nat.zero_mul, Nat.add_zero, Nat.zero_add]

theorem fld_recordFor_fault {x : Running} {f : Nat} (hf : f < 8) : fld (State.recordFor x f 0 0) 26 24 = f := by
  rw [recordFor_plain, fld]
  omega

theorem fld_recordFor_owner {x : Running} {f : Nat} (hf : f < 8) (ht : x.item.template < 65536) (hs : x.item.stage < 512)
    (hr : x.item.req < 4096) :
    fld (State.recordFor x f 0 0) 42 27 = x.item.template ∧ fld (State.recordFor x f 0 0) 51 43 = x.item.stage
    ∧ fld (State.recordFor x f 0 0) 63 52 = x.item.req := by
  rw [recordFor_plain, fld, fld, fld]
  omega

/-- Settles O35: a faulting work item ends through `closeItem`, and its record has the fault's cause. -/
theorem streamFaultEndsWorkItem : Obligations.StreamFaultEndsWorkItem := by
  intro c t code text hc s hplan
  obtain ⟨act, hexec⟩ := State.exec_itemRow hc hplan
  refine ⟨fun hidle => by rw [hexec, State.runItem_idle hidle], ?_⟩
  intro x f u hrun _ hf hread v
  refine ⟨?_, ?_⟩
  · rw [hexec, State.runItem_fault hrun hread]
  · exact ⟨State.completionFor t x f 0 0 false, rfl, fld_recordFor_fault hf, fld_recordFor_owner hf,
      State.closeItem_leaves_or_waits t { x, fault := f, flags := 0, aux := 0, rejected := false, spans := State.faultSpans x } u⟩

end Sys2Proof.Machine
end

section
/-! PROOFS. Barriers (R96, R126, R127) and the stream engine's work items (R69 to R79, R88, R104): what their rows leave. -/

namespace Sys2Proof.Machine

-- Barriers

theorem exec_barrier (t : Nat) (s : State) : exec (.barrier t) s = .next (s.after (s.doBarrier t)) := rfl
theorem exec_barrierCombine (p i : Nat) (s : State) : exec (.barrierCombine p i) s = .next (s.after (s.doBarrierCombine p i)) := rfl
theorem exec_barrierReleaseArrival (t : Nat) (s : State) :
    exec (.barrierReleaseArrival t) s = .next (s.after (s.doBarrierReleaseArrival t)) := rfl

namespace State

variable {p i : Nat} {s : State} {b : BarrierSlot}

/-- R126: with all arrivals there a barrier is released. -/
theorem doBarrierCombine_complete (hb : (s.pool p).barriers[i]? = some b) (hall : b.values.length = b.need) (hheld : b.released = false) :
    s.doBarrierCombine p i = s.setPool p fun x => { x with barriers := modifyAt i (fun b => { b with released := true }) x.barriers } := by
  simp [doBarrierCombine, hb, hall, hheld]

theorem doBarrierCombine_incomplete (hb : (s.pool p).barriers[i]? = some b) (hmore : b.values.length ≠ b.need) :
    s.doBarrierCombine p i = s := by
  simp [doBarrierCombine, hb, hmore]

/-- The released barrier at which a work item of a tile waits. -/
def releasesTo (t : Nat) (x : Running) (b : BarrierSlot) : Bool :=
  b.req == x.item.req && b.stage == x.item.stage && b.number == wImm x.item.wi 0 && b.released && b.tiles.contains t

/-- R126: a waiting work item leaves its released barrier and ends with the combined value. -/
theorem doBarrierReleaseArrival_waiting {t : Nat} {x : Running} (hrun : (s.tile t).running = some x) (hop : wOpcode x.item.wi = 0x01)
    (hwait : x.waits = 1) (hb : (s.pool x.item.pool).barriers.find? (releasesTo t x) = some b) :
    s.doBarrierReleaseArrival t = (s.setPool x.item.pool fun p =>
      { p with barriers := modifyFirst (releasesTo t x) (fun b => { b with tiles := b.tiles.erase t }) p.barriers }).finishItem t x
        { writes := if wUses x.item.wi 0 then [(0, leBytes 8 (combine b.op b.values))] else [] } := by
  unfold releasesTo at hb
  simp only [doBarrierReleaseArrival, hrun, hb]
  exact if_pos ⟨hop, hwait⟩

end State

/-- R127: the operations 0 and 1 count the arrivals and add their values up to the greatest 64-bit number. -/
theorem combine_count (vs : List Nat) : combine 0 vs = vs.length := rfl
theorem combine_sum (vs : List Nat) : combine 1 vs = min vs.sum (2 ^ 64 - 1) := rfl

/-- Settles O37: the three rows by the operation behind each. -/
theorem barriersReleaseTogether : Obligations.BarriersReleaseTogether := by
  refine ⟨?arrive, ?combine, ?release⟩
  case arrive =>
    intro t s u x bs h mine
    rw [exec_barrier, State.doBarrier]
    exact congrArg (fun v => Host.Outcome.next (s.after v)) (State.runOp_ready h _)
  case combine =>
    intro p i s b hb
    refine ⟨fun hall hheld => ?_, fun hmore => ?_⟩
    · rw [exec_barrierCombine, State.doBarrierCombine_complete hb hall hheld]
    · rw [exec_barrierCombine, State.doBarrierCombine_incomplete hb hmore]
  case release =>
    intro t s x b hrun hop hwait mine hb
    refine ⟨?_, fun hop0 => ?_, fun hop1 => ?_⟩
    · rw [exec_barrierReleaseArrival, State.doBarrierReleaseArrival_waiting hrun hop hwait hb]
      rfl
    · rw [hop0, combine_count]
    · rw [hop1, combine_sum]

-- The stream engine (R103, R104)

theorem exec_copy (t : Nat) (s : State) : exec (.copy t) s = .next (s.after (s.moveItem t 0x40)) := rfl
theorem exec_gather (t : Nat) (s : State) : exec (.gather t) s = .next (s.after (s.moveItem t 0x41)) := rfl
theorem exec_scatter (t : Nat) (s : State) : exec (.scatter t) s = .next (s.after (s.moveItem t 0x42)) := rfl
theorem exec_transpose (t : Nat) (s : State) : exec (.transpose t) s = .next (s.after (s.moveItem t 0x43)) := rfl
theorem exec_decompress (t : Nat) (s : State) : exec (.decompress t) s = .next (s.after (s.moveItem t 0x44)) := rfl
theorem exec_leatSend (t : Nat) (s : State) : exec (.leatSend t) s = .next (s.after (s.doLeatSend t)) := rfl

namespace State

variable {t code : Nat} {s u : State} {x : Running} {bs : List (Nat × Bytes)}

/-- R73: a ready move writes to slot 8 what slot 0 delivered. -/
theorem moveItem_ready (h : s.Runs t code false x bs u) : s.moveItem t code = u.finishItem t x { writes := [(8, readBytes bs 0)] } :=
  runOp_ready h _

/-- R88: a payload of no byte or of more than 256 is a fault. -/
theorem doLeatSend_badLength (h : s.Runs t 0x45 false x bs u) (hlen : (readBytes bs 0).length = 0 ∨ 256 < (readBytes bs 0).length) :
    s.doLeatSend t = u.faultItem t x 1 := by
  have hbytes : ((readBytes bs 0).isEmpty || decide (256 < (readBytes bs 0).length)) = true := by
    simpa only [Bool.or_eq_true, List.isEmpty_iff_length_eq_zero, decide_eq_true_eq] using hlen
  rw [doLeatSend, runOp_ready h]
  dsimp only
  rw [hbytes, Bool.true_or, if_pos rfl]

/-- The payload that a LEAT_SEND lets leave (R88, R89). -/
def leatPayload (u : State) (t : Nat) (x : Running) (b : Bytes) : LeatFlight :=
  { src := t, dsts := (Config.leatDest (wImm x.item.wi 0)).1.map (u.poolTile x.item.pool), offset := (Config.leatDest (wImm x.item.wi 0)).2
    bytes := b, queue := Config.leatQueue (wImm x.item.wi 1), req := x.item.req, reqOrder := x.item.reqOrder, run := x.run, use := .plain }

/-- R88: a payload of a good length faults beyond a destination's memory, else leaves for its tiles or for the Hopper's intake. -/
theorem doLeatSend_goodLength (h : s.Runs t 0x45 false x bs u) (hsome : 0 < (readBytes bs 0).length) (hmax : (readBytes bs 0).length ≤ 256) :
    let f := leatPayload u t x (readBytes bs 0)
    s.doLeatSend t = if f.dsts.any fun v => decide (u.tileLimit v < f.offset + f.bytes.length) then u.faultItem t x 1
      else (if f.dsts.isEmpty then u.intakePayload f.bytes else u.sendLeat f).finishItem t x { writes := [] } := by
  have hbytes : ((readBytes bs 0).isEmpty || decide (256 < (readBytes bs 0).length)) = false := by
    simp only [Bool.or_eq_false_iff, List.isEmpty_eq_false_iff, ← List.length_pos_iff, decide_eq_false_iff_not]
    omega
  rw [doLeatSend, runOp_ready h]
  dsimp only
  rw [hbytes, Bool.false_or]
  rfl

end State

/-- Settles O38: five moves by one lemma; LEAT_SEND by its payload's length. -/
theorem movesDeliverTheirStream : Obligations.MovesDeliverTheirStream := by
  intro t s u x bs b moved
  refine ⟨?copy, ?gather, ?scatter, ?transpose, ?decompress, ?leatSend, fun f => ⟨rfl, rfl⟩, rfl⟩
  case copy => intro h; rw [exec_copy, State.moveItem_ready h]
  case gather => intro h; rw [exec_gather, State.moveItem_ready h]
  case scatter => intro h; rw [exec_scatter, State.moveItem_ready h]
  case transpose => intro h; rw [exec_transpose, State.moveItem_ready h]
  case decompress => intro h; rw [exec_decompress, State.moveItem_ready h]
  case leatSend =>
    intro h d dsts
    refine ⟨fun hlen => ?_, fun hsome hmax => ?_⟩
    · rw [exec_leatSend, State.doLeatSend_badLength h hlen]
    · rw [exec_leatSend, State.doLeatSend_goodLength h hsome hmax]
      rfl

end Sys2Proof.Machine
end

section
/-! PROOFS. Handles, credits and ring slots (R80, R81, R85, R93, R105): what each row does, by case of the operation behind it. -/

namespace Sys2Proof.Machine

theorem exec_sluiceHandleArrival (i : Nat) (s : State) :
    exec (.sluiceHandleArrival i) s = .next (s.after (s.doSluiceHandleArrival i)) := rfl
theorem exec_sluiceCreditArrival (i : Nat) (s : State) :
    exec (.sluiceCreditArrival i) s = .next (s.after (s.doSluiceCreditArrival i)) := rfl
theorem exec_ringFillLanded (t ring : Nat) (s : State) :
    exec (.ringFillLanded t ring) s = .next (s.after (s.doRingFillLanded t ring)) := rfl
theorem exec_ringSlotRelease (t ring : Nat) (s : State) :
    exec (.ringSlotRelease t ring) s = .next (s.after (s.doRingSlotRelease t ring)) := rfl
theorem exec_ringCreditArrival (i : Nat) (s : State) :
    exec (.ringCreditArrival i) s = .next (s.after (s.doRingCreditArrival i)) := rfl

namespace State

-- The Sluice (R85, R93)

/-- R85: a handle with its credit, behind nothing that its producer sent earlier, enters its queue. -/
theorem doSluiceHandleArrival_enters {i : Nat} {s : State} {f : SluiceFlight} (hf : s.sluiceFlights[i]? = some f) (hcredit : f.credit = true)
    (hfirst : (s.sluiceFlights.take i).any (fun g => g.src == f.src && g.dst == f.dst && g.queue == f.queue) = false)
    (horder : s.overtakes f.src f.dst f.sent = false) :
    s.doSluiceHandleArrival i = ({ s with sluiceFlights := s.sluiceFlights.eraseIdx i } : State).setTile f.dst fun x => { x with
      sluice := insertKey f.queue (lookupD f.queue x.sluice [] ++ [f.entry]) x.sluice
      reserved := insertKey f.queue (lookupD f.queue x.reserved 0 - 1) x.reserved } := by
  simp only [doSluiceHandleArrival, hf, hcredit, hfirst, horder, Bool.not_true, Bool.or_self, Bool.false_eq_true, if_false]

/-- A handle that waits for a credit from a queue (R85). -/
def awaits (c : SluiceCredit) (f : SluiceFlight) : Bool := f.src == c.src && f.dst == c.dst && f.queue == c.queue && !f.credit

section
variable {i : Nat} {s : State} {c : SluiceCredit} (hc : s.sluiceCredits[i]? = some c) (horder : s.overtakes c.dst c.src c.sent = false)
include hc horder

/-- R85: a credit lets its producer's oldest waiting handle leave, and a producer that waited for nothing else ends. -/
theorem doSluiceCreditArrival_awaited (hany : s.sluiceFlights.any (awaits c) = true) :
    s.doSluiceCreditArrival i = ({ s with
      sluiceCredits := s.sluiceCredits.eraseIdx i
      sluiceFlights := modifyFirst (awaits c) (fun f => { f with credit := true, sent := s.meshNext })
        s.sluiceFlights } : State).sendNext.settleClosing c.src := by
  unfold awaits at hany ⊢
  simp only [doSluiceCreditArrival, hc, horder, hany, Bool.false_eq_true, if_false, if_true]

/-- R85: a credit that no handle waits for gives its entry back. -/
theorem doSluiceCreditArrival_unawaited (hnone : s.sluiceFlights.any (awaits c) = false) :
    s.doSluiceCreditArrival i = ({ s with sluiceCredits := s.sluiceCredits.eraseIdx i } : State).setTile c.dst fun x => { x with
      reserved := insertKey c.queue (lookupD c.queue x.reserved 0 - 1) x.reserved } := by
  unfold awaits at hnone
  simp only [doSluiceCreditArrival, hc, horder, hnone, Bool.false_eq_true, if_false]

end

-- Ring fills (R80, R81)

/-- R80, R81: the write of a producer's next fill, to slot tail mod N of its ring. -/
def fillWrite (s : State) (t ring u : Nat) (x : Producer) (k : Closing) (b : Bytes) : Option Nat × State :=
  s.writeAt { tile := u, pool := k.x.item.pool, req := k.x.item.req } x.gang (innerOf x.desc)
    (dBase x.desc + (((s.ringOf t ring x.key).2 % (dRingSlots x.desc + 1) : Nat) : Int) * dStride x.desc (dNdim x.desc - 1)) b

/-- A ring is full, or its producer is another tile without a credit (R81). -/
def fillBlocked (s : State) (t ring u : Nat) (x : Producer) : Prop :=
  (s.ringOf t ring x.key).1 + (dRingSlots x.desc + 1) ≤ (s.ringOf t ring x.key).2 ∨ (u ≠ t ∧ x.credits = 0)

section
variable {t ring u i : Nat} {s v : State} {x : Producer} {k : Closing} {b : Bytes} {rest : List Bytes}
  (hprod : s.producerOf t ring = some (u, i, x)) (hopen : s.closingOf u x.run = some k) (hfills : x.fills = b :: rest)
include hprod hopen hfills

theorem doRingFillLanded_blocked (hblocked : s.fillBlocked t ring u x) : s.doRingFillLanded t ring = s := by
  simp only [doRingFillLanded, hprod, hopen, hfills]
  exact if_pos (by simpa [fillBlocked] using hblocked)

section
variable (hfree : ¬s.fillBlocked t ring u x)
include hfree

/-- R99: a fill whose write faults ends its work item. -/
theorem doRingFillLanded_faults {f : Nat} (hwrite : s.fillWrite t ring u x k b = (some f, v)) :
    s.doRingFillLanded t ring = v.closeRun u x.run f := by
  unfold fillWrite at hwrite
  simp only [doRingFillLanded, hprod, hopen, hfills]
  rw [if_neg (by simpa [fillBlocked] using hfree)]
  simp only [hwrite]

/-- R81: a fill that is not the last advances the tail and uses up a credit. -/
theorem doRingFillLanded_continues (hwrite : s.fillWrite t ring u x k b = (none, v)) (hmore : rest ≠ []) :
    s.doRingFillLanded t ring =
      (v.setRing t ring x.key ((s.ringOf t ring x.key).1, (s.ringOf t ring x.key).2 + 1)).setTile u fun y => { y with
        producers := modifyAt i (fun z => { z with fills := rest, credits := z.credits - 1 }) y.producers } := by
  unfold fillWrite at hwrite
  simp only [doRingFillLanded, hprod, hopen, hfills]
  rw [if_neg (by simpa [fillBlocked] using hfree)]
  simp only [hwrite, List.isEmpty_eq_false_iff.2 hmore, Bool.false_eq_true, if_false]

/-- R81, R105: the last fill of a work item's last ring ends it. -/
theorem doRingFillLanded_finishes (hwrite : s.fillWrite t ring u x k b = (none, v)) (hlast : rest = []) :
    let w := (v.setRing t ring x.key ((s.ringOf t ring x.key).1, (s.ringOf t ring x.key).2 + 1)).setTile u fun y => { y with
      producers := y.producers.eraseIdx i }
    s.doRingFillLanded t ring = if (w.tile u).producers.any (·.run == x.run) then w else w.closeRun u x.run 0 := by
  unfold fillWrite at hwrite
  simp only [doRingFillLanded, hprod, hopen, hfills]
  rw [if_neg (by simpa [fillBlocked] using hfree)]
  simp only [hwrite, hlast, List.isEmpty_nil, if_true]

end

end

-- Ring slots (R80, R81)

/-- A running item's input slot that still wants steps of a ring. -/
def readsRing (x : Running) (ring : Nat) (p : Nat × Nat) : Bool :=
  x.toFetch.contains p.1 && decide (2 ≤ dRingSlots p.2) && dRingId p.2 == ring

/-- R80: the read of the ring's slot head mod N. -/
def headRead (s : State) (t ring d : Nat) (x : Running) : Except Nat Bytes × State :=
  s.readUnits (s.ioFor t x.item) 0 (targetOf (dBase d))
    (dBase d + (((s.ringOf t ring (stageKey x.item)).1 % (dRingSlots d + 1) : Nat) : Int) * dStride d (dNdim d - 1)) (dUnit d)
    (streamOffsets (innerOf d) none)

/-- R81: what a released slot leaves: the ring's head has advanced and the slot's bytes are fetched. -/
def slotReleased (s v : State) (t ring n d : Nat) (x : Running) (bs : Bytes) : State :=
  let r := s.ringOf t ring (stageKey x.item)
  let got := lookupD n x.fetched [] ++ bs
  (v.setRing t ring (stageKey x.item) (r.1 + 1, r.2)).setRunning t fun x => { x with
    fetched := insertKey n got x.fetched
    toFetch := if decide (dCount d (dNdim d - 1) * innerUnits d * dUnit d ≤ got.length) then x.toFetch.erase n else x.toFetch }

/-- R81: a released slot goes to its ring's producer as a credit, unless that is the reader's own tile. -/
def creditProducer (t ring : Nat) (s : State) : State :=
  match s.producerOf t ring with
  | some (u, _, _) => if u = t then s else { s with ringCredits := s.ringCredits ++ [(u, t, ring)] }
  | none => s

section
variable {t ring n d : Nat} {s v : State} {x : Running} {bs : Bytes} (hrun : (s.tile t).running = some x)
  (hslot : x.slots.find? (readsRing x ring) = some (n, d))
include hrun hslot

theorem doRingSlotRelease_empty (hempty : (s.ringOf t ring (stageKey x.item)).2 ≤ (s.ringOf t ring (stageKey x.item)).1) :
    s.doRingSlotRelease t ring = s := by
  unfold readsRing at hslot
  simp only [doRingSlotRelease, hrun, hslot, hempty, if_true]

theorem doRingSlotRelease_filled (hfilled : (s.ringOf t ring (stageKey x.item)).1 < (s.ringOf t ring (stageKey x.item)).2)
    (hread : s.headRead t ring d x = (.ok bs, v)) :
    s.doRingSlotRelease t ring = (s.slotReleased v t ring n d x bs).creditProducer t ring := by
  unfold readsRing at hslot
  unfold headRead at hread
  simp only [doRingSlotRelease, hrun, hslot, Nat.not_le.2 hfilled, if_false, hread]
  rfl

end

/-- R81: a credit reaches the producer of its ring. -/
theorem doRingCreditArrival_credits {i : Nat} {s : State} {c : Nat × Nat × Nat} (hc : s.ringCredits[i]? = some c) :
    s.doRingCreditArrival i = ({ s with ringCredits := s.ringCredits.eraseIdx i } : State).setTile c.1 fun y => { y with
      producers := y.producers.map fun (x : Producer) =>
        if x.tile == c.2.1 && dRingId x.desc == c.2.2 then { x with credits := x.credits + 1 } else x } := by
  simp only [doRingCreditArrival, hc]

end State

/-- Settles O47: each row's cases, by the lemmas about the operation behind it. -/
theorem handlesAndRingsMove : Obligations.HandlesAndRingsMove := by
  refine ⟨?handle, ?credit, ?fill, ?slot, ?ringCredit⟩
  case handle =>
    intro i s f hf hcredit hfirst horder
    rw [exec_sluiceHandleArrival, State.doSluiceHandleArrival_enters hf hcredit hfirst horder]
  case credit =>
    intro i s c hc horder mine u
    refine ⟨fun hany => ?_, fun hnone => ?_⟩
    · rw [exec_sluiceCreditArrival, State.doSluiceCreditArrival_awaited hc horder hany]
      rfl
    · rw [exec_sluiceCreditArrival, State.doSluiceCreditArrival_unawaited hc horder hnone]
  case fill =>
    intro t ring u i s v x k b rest hprod hopen hfills r n write
    refine ⟨fun hblocked => ?_, fun hroom hcredit => ?_⟩
    · rw [exec_ringFillLanded, State.doRingFillLanded_blocked hprod hopen hfills hblocked]
    have hfree : ¬s.fillBlocked t ring u x := not_or.2 ⟨Nat.not_le.2 hroom, fun h => hcredit.elim h.1 (absurd h.2)⟩
    refine ⟨fun f hwrite => ?_, fun hwrite hmore => ?_, fun hwrite hlast => ?_⟩
    · rw [exec_ringFillLanded, State.doRingFillLanded_faults hprod hopen hfills hfree hwrite]
    · rw [exec_ringFillLanded, State.doRingFillLanded_continues hprod hopen hfills hfree hwrite hmore]
    · rw [exec_ringFillLanded, State.doRingFillLanded_finishes hprod hopen hfills hfree hwrite hlast]
  case slot =>
    intro t ring n d s v x bs hrun hslot r o
    refine ⟨fun hempty => ?_, fun hfilled hread => ?_⟩
    · rw [exec_ringSlotRelease, State.doRingSlotRelease_empty hrun hslot hempty]
    · rw [exec_ringSlotRelease, State.doRingSlotRelease_filled hrun hslot hfilled hread]
      rfl
  case ringCredit =>
    intro i s c hc
    rw [exec_ringCreditArrival, State.doRingCreditArrival_credits hc]

end Sys2Proof.Machine
end

section
/-! PROOFS. Payloads, remote reads and retries (R61, R89, R90, R93, R95, R98, R300, R310, R443, R447): what each row does, by case of the
operation behind it. -/

namespace Sys2Proof.Machine

theorem exec_leatPayloadLand (i t : Nat) (s : State) : exec (.leatPayloadLand i t) s = .next (s.after (s.doLeatPayloadLand i t)) := rfl
theorem exec_remoteRead (i : Nat) (s : State) : exec (.remoteRead i) s = .next (s.after (s.doRemoteRead i)) := rfl
theorem exec_meshFlitCrcFail (t dir : Nat) (again : Bool) (s : State) :
    exec (.meshFlitCrcFail t dir again) s = .next (s.after (s.doMeshFlitCrcFail t dir again)) := rfl
theorem exec_hbmEccRetry (line : Nat) (reader : EccReader) (o : EccOutcome) (s : State) :
    exec (.hbmEccRetry line reader o) s = .next (s.after (s.doHbmEccRetry line reader o)) := rfl

namespace State

-- Payloads of the Leat (R89, R90, R93)

/-- A payload cannot land at a tile now: it is not for it, or something that its source sent there before is on its way (R93). -/
def leatHeld (s : State) (i t : Nat) (f : LeatFlight) : Prop :=
  (∃ g ∈ s.leats.take i, g.src = f.src ∧ t ∈ g.dsts) ∨ t ∉ f.dsts ∨ s.overtakes f.src t f.sent = true

section
variable {i t : Nat} {s u : State} {f : LeatFlight}

theorem leatHeld_iff : s.leatHeld i t f ↔
    (!(f.dsts.contains t) || (s.leats.take i).any (fun g => g.src == f.src && g.dsts.contains t) || s.overtakes f.src t f.sent) = true := by
  simp only [leatHeld, Bool.or_eq_true, Bool.not_eq_true', List.contains_eq_mem, decide_eq_false_iff_not, List.any_eq_true, Bool.and_eq_true,
    beq_iff_eq, decide_eq_true_eq, ← or_assoc]
  rw [or_comm (a := t ∉ f.dsts)]

theorem leatArrives_held (hf : s.leats[i]? = some f) (hheld : s.leatHeld i t f) : s.leatArrives i t = none := by
  simp only [leatArrives, hf]
  exact if_pos (leatHeld_iff.1 hheld)

theorem leatArrives_due (hf : s.leats[i]? = some f) (hdue : ¬s.leatHeld i t f) : ∃ u, s.leatArrives i t = some (f, u) := by
  simp only [leatArrives, hf]
  exact ⟨_, if_neg (mt leatHeld_iff.2 hdue)⟩

theorem doLeatPayloadLand_held (hnone : s.leatArrives i t = none) : s.doLeatPayloadLand i t = s := by
  simp only [doLeatPayloadLand, hnone]

theorem doLeatPayloadLand_plain (harrives : s.leatArrives i t = some (f, u)) (huse : f.use = .plain) :
    s.doLeatPayloadLand i t = u.landPlain f t := by
  simp only [doLeatPayloadLand, harrives, huse]

end

/-- The handle of a payload that has landed on a tile (R90). -/
def leatHandle (s : State) (f : LeatFlight) (t : Nat) : Nat :=
  setLast (tileHandle t f.offset f.bytes.length (s.gen t (f.offset / 4096)) 0)

section
variable {t q : Nat} {u v : State} {f : LeatFlight} (hwritten : (u.tileWrite (some f.req) (tileWindow t + f.offset) f.bytes).2 = v)
include hwritten

theorem landPlain_noQueue (hqueue : f.queue = none) : u.landPlain f t = v := by
  rw [landPlain, hqueue]
  exact hwritten

/-- R87, R90: the landed payload's handle goes to its queue, or is discarded when its request has ended. -/
theorem landPlain_queue (hqueue : f.queue = some q) :
    u.landPlain f t = if (v.live? f.req f.reqOrder).isNone then v.releaseBuffer (v.leatHandle f t)
      else v.sendHandle f.src t q { handle := v.leatHandle f t, req := f.req, reqOrder := f.reqOrder } f.run := by
  simp only [landPlain, hqueue, hwritten]
  rfl

end

-- Remote reads (R93, R95)

/-- A remote read has been taken up. -/
def dropRead (i : Nat) (s : State) : State := { s with remoteReads := s.remoteReads.eraseIdx i }

@[simp] theorem dropRead_req? (s : State) (i r : Nat) : (s.dropRead i).req? r = s.req? r := rfl
@[simp] theorem dropRead_planKey? (s : State) (i key : Nat) : (s.dropRead i).planKey? key = s.planKey? key := rfl
@[simp] theorem dropRead_modelKey? (s : State) (i : Nat) : (s.dropRead i).modelKey? = s.modelKey? := rfl
@[simp] theorem dropRead_slotBase (s : State) (i : Nat) (q : Request) (pl : Plan) (x : StageRun) (w n d : Nat) (h : Option Nat) :
    (s.dropRead i).slotBase q pl x w n d h = s.slotBase q pl x w n d h := rfl
@[simp] theorem dropRead_markRange (s : State) (i : Nat) (q : Request) (pl : Plan) (x : StageRun) :
    (s.dropRead i).markRange q pl x = s.markRange q pl x := by
  funext m
  rw [markRange, dropRead_slotBase, markRange]

/-- What a tile's stream engine may reach does not depend on the remote reads under way. -/
theorem dropRead_ioFor (s : State) (i t : Nat) (x : Item) : (s.dropRead i).ioFor t x = s.ioFor t x := by
  simp only [ioFor, dropRead_req?, dropRead_planKey?, dropRead_modelKey?, dropRead_markRange]

/-- R95: a read behind no earlier one of its reader to the same tile gives its slot the bytes. -/
theorem doRemoteRead_delivers {i : Nat} {s u : State} {rr : RemoteRead} {x : Running} {bs : Bytes} (hrr : s.remoteReads[i]? = some rr)
    (hrun : (s.tile rr.reader).running = some x) (hslot : rr.slot ∈ x.toFetch)
    (hfirst : ∀ q ∈ s.remoteReads.take i, q.reader = rr.reader →
      targetOf (dBase (slotDesc x q.slot)) ≠ targetOf (dBase (slotDesc x rr.slot)))
    (hread : readStream (s.ioFor rr.reader x.item) (slotDesc x rr.slot) ((x.index.find? (·.1 == rr.slot)).map Prod.snd) (s.dropRead i)
      = (.ok bs, u)) :
    s.doRemoteRead i = u.setRunning rr.reader fun x => { x with
      fetched := (rr.slot, bs) :: x.fetched, toFetch := x.toFetch.erase rr.slot } := by
  have hnone : ((s.remoteReads.take i).any fun q => q.reader == rr.reader
      && targetOf (dBase (slotDesc x q.slot)) == targetOf (dBase (slotDesc x rr.slot))) = false := by
    simpa [List.any_eq_false] using hfirst
  rw [← dropRead_ioFor s i, dropRead] at hread
  simp only [doRemoteRead, hrr, hrun, hnone, List.contains_iff_mem.2 hslot, hread, Bool.false_eq_true, if_false, if_true]

-- Retries of flits and of HBM lines (R98, R300, R443, R447)

/-- The retries that a failed flit of a link has behind it, where the failure can be one (R98). -/
def flitRetries (s : State) (t dir : Nat) (again : Bool) : Option Nat :=
  if again then (s.errors.flitFails.find? fun f => f.1 == t && f.2.1 == dir).map (·.2.2 + 1) else some 0

/-- A link's present flit has failed a number of retries. -/
def noteRetries (t dir k : Nat) (s : State) : State :=
  { s with errors := { s.errors with flitFails := (t, dir, k) :: s.errors.flitFails.filter fun f => !(f.1 == t && f.2.1 == dir) } }

/-- R98, R443: a failed flit is a counted retry; after 16 its link is dead. -/
theorem doMeshFlitCrcFail_retries {t dir k : Nat} {again : Bool} {s : State} (hservice : s.boot.service = 1) (hpower : s.power.state ≤ 1)
    (hk : s.flitRetries t dir again = some k) :
    s.doMeshFlitCrcFail t dir again =
      if 16 ≤ k then (s.noteRetries t dir k).deviceEvent { cause := 0x11, unit := 2, unitIndex := t, detail := dir }
      else ((s.noteRetries t dir k).count (tileCtr t (0x80 + 8 * dir)) 1).correctedEvent
        { cause := 0x10, unit := 2, unitIndex := t, detail := dir } fnPools := by
  cases again
  case false =>
    obtain rfl : 0 = k := Option.some.inj hk
    simp only [doMeshFlitCrcFail, hservice, hpower]
    rfl
  case true =>
    obtain ⟨f, hf, rfl⟩ := Option.map_eq_some_iff.1 hk
    simp only [doMeshFlitCrcFail, hservice, hpower, hf]
    rfl

/-- The event of a line that had to be read again (R300). -/
def lineEvent (line : Nat) : Event := { cause := 0x09, unit := 1, unitIndex := stackOf (line * 64), addr := line * 64 }

section
variable {line r : Nat} {s : State} {o : EccOutcome} (hservice : s.boot.service = 1) (hline : line ∉ s.errors.badLines)
include hservice hline

/-- R300: a line delivered at its second reading is an event of its reader's function. -/
theorem doHbmEccRetry_request_delivered (hreq : (s.req? r).isSome = true) (ho : o ≠ .failed) :
    s.doHbmEccRetry line (.request r) o = s.correctedEvent (lineEvent line) fnHopper := by
  cases o
  case failed => exact absurd rfl ho
  all_goals simp [doHbmEccRetry, lineEvent, hservice, hline, hreq]

/-- R447: a line that stays uncorrectable is listed and fails the request that read it. -/
theorem doHbmEccRetry_request_failed (hreq : (s.req? r).isSome = true) :
    s.doHbmEccRetry line (.request r) .failed =
      ((s.containedEvent { lineEvent line with cause := 0x0A, req := some r } fnHopper).listLine line).failRequest r 6 none := by
  simp [doHbmEccRetry, lineEvent, hservice, hline, hreq]

theorem doHbmEccRetry_background_failed :
    s.doHbmEccRetry line .background .failed = (s.containedEvent { lineEvent line with cause := 0x0A } 0).listLine line := by
  simp [doHbmEccRetry, lineEvent, hservice, hline]

/-- R300, R310: a work item that waits for a delivered line charges the wait to its pool. -/
theorem doHbmEccRetry_tile_delivered {t p : Nat} (hrun : (s.tile t).running.isSome = true) (hwork : s.workTile t = true)
    (hpool : s.poolOf t = some p) (hplan : s.wheelTile t = false) (ho : o ≠ .failed) :
    s.doHbmEccRetry line (.tile t) o = (s.chargeFree (poolCtr p 0x18)).correctedEvent (lineEvent line) fnPools := by
  cases o
  case failed => exact absurd rfl ho
  all_goals simp [doHbmEccRetry, lineEvent, hservice, hline, hrun, hwork, hpool, hplan]

end

end State

/-- Settles O48: each row's cases, by the lemmas about the operation behind it. -/
theorem payloadsReadsAndRetries : Obligations.PayloadsReadsAndRetries := by
  refine ⟨?lands, ?order, ?read, ?flit, ?line⟩
  case lands =>
    intro i t s u f harrives huse v
    rw [exec_leatPayloadLand, State.doLeatPayloadLand_plain harrives huse]
    refine ⟨fun hqueue => ?_, fun q hqueue hlive => ?_, fun q hqueue hended => ?_⟩
    · rw [State.landPlain_noQueue rfl hqueue]
    · rw [State.landPlain_queue rfl hqueue, if_neg (by simpa [Option.isSome_iff_ne_none] using hlive)]
      rfl
    · rw [State.landPlain_queue rfl hqueue, if_pos (Option.isNone_iff_eq_none.2 hended)]
      rfl
  case order =>
    intro i t s f hf
    refine ⟨fun hheld => ?_, fun hdst hfirst horder => State.leatArrives_due hf ?_⟩
    · rw [exec_leatPayloadLand, State.doLeatPayloadLand_held (State.leatArrives_held hf hheld)]
    · rintro (⟨g, hg, hsrc, ht⟩ | hother | hover)
      · exact hfirst g hg hsrc ht
      · exact hother hdst
      · exact Bool.eq_false_iff.1 horder hover
  case read =>
    intro i s u rr x bs hrr hrun hslot hfirst hread
    rw [exec_remoteRead, State.doRemoteRead_delivers hrr hrun hslot hfirst hread]
  case flit =>
    intro t dir again s k hservice hpower hk u
    rw [exec_meshFlitCrcFail, State.doMeshFlitCrcFail_retries hservice hpower hk]
    refine ⟨fun hfew => ?_, fun hdead => ?_⟩
    · rw [if_neg (Nat.not_le.2 hfew)]
      rfl
    · rw [if_pos hdead]
      rfl
  case line =>
    intro line r s q hservice hline hq e
    have hreq : (s.req? r).isSome = true := Option.isSome_iff_exists.2 ⟨q, hq⟩
    refine ⟨fun o ho => ?_, ?_, ?_, fun t p o ho hrun hwork hpool hplan => ?_⟩
    · rw [exec_hbmEccRetry, State.doHbmEccRetry_request_delivered hservice hline hreq ho]
      rfl
    · rw [exec_hbmEccRetry, State.doHbmEccRetry_request_failed hservice hline hreq]
      rfl
    · rw [exec_hbmEccRetry, State.doHbmEccRetry_background_failed hservice hline]
      rfl
    · rw [exec_hbmEccRetry, State.doHbmEccRetry_tile_delivered hservice hline hrun hwork hpool hplan ho]
      rfl

end Sys2Proof.Machine
end

section
/-! PROOFS. How tiles get work (R85, R86, R99, R120 to R123, R272): refills, stealing, waking and the start of a work item, by case of the
operation behind each row. -/

namespace Sys2Proof.Machine

theorem exec_tileRefillRequest (t : Nat) (s : State) : exec (.tileRefillRequest t) s = .next (s.after (s.doTileRefillRequest t)) := rfl
theorem exec_stealTake (thief victim : Nat) (s : State) :
    exec (.stealTake thief victim) s = .next (s.after (s.doStealTake thief victim)) := rfl
theorem exec_idleTileTimeout (t : Nat) (s : State) : exec (.idleTileTimeout t) s = .next (s.after (s.doIdleTileTimeout t)) := rfl
theorem exec_hopperWake (t : Nat) (s : State) : exec (.hopperWake t) s = .next (s.after (s.doHopperWake t)) := rfl
theorem exec_workItemStart (t : Nat) (s : State) : exec (.workItemStart t) s = .next (s.after (s.doWorkItemStart t)) := rfl

namespace State

-- Refills (R120, R122, R272)

section
variable {t p : Nat} {s : State}

@[simp] theorem adoptWeights_tile : (s.adoptWeights p).tile t = s.tile t := by
  unfold adoptWeights
  dsimp only
  split <;> rfl

theorem doTileRefillRequest_asks (hwork : s.workTile t = true) (hfew : (s.tile t).queue.length < 8) :
    s.doTileRefillRequest t = s.refill t := by
  simp only [doTileRefillRequest, hwork, hfew, decide_true, Bool.and_self, if_true]

/-- R122: with no work for it, a tile with an empty queue is idle. -/
theorem refill_nothing (hpool : s.poolOf t = some p)
    (hnone : ((s.adoptWeights p).pool p).queue.filter ((s.adoptWeights p).itemReady t) = []) (hempty : (s.tile t).queue = []) :
    s.refill t = (s.adoptWeights p).setTile t fun x => { x with idle := true, steal := 0, woken := false } := by
  simp only [refill, hpool, hnone, adoptWeights_tile, hempty, List.map_nil, List.eraseDups_nil, List.isEmpty_nil, if_true]

end

-- Stealing (R121 to R123)

/-- R123: a victim gives at most half of its stealable entries, rounded up, and at most four. -/
def stealCount (s : State) (victim : Nat) : Nat := min (ceilDiv ((s.tile victim).queue.filter stealable).length 2) 4

/-- R123: the entries come from the tail. -/
def stolen (s : State) (victim : Nat) : List Item :=
  ((s.tile victim).queue.filter stealable).drop (((s.tile victim).queue.filter stealable).length - s.stealCount victim)

theorem stolen_length (s : State) (victim : Nat) : (s.stolen victim).length = s.stealCount victim := by
  have hle : s.stealCount victim ≤ ((s.tile victim).queue.filter stealable).length := by
    unfold stealCount ceilDiv
    omega
  rw [stolen, List.length_drop, Nat.sub_sub_self hle]

/-- R122, R123: an idle thief takes from its next candidate, and stops after a group of four, or the last, once it has work. -/
theorem doStealTake_takes {thief victim : Nat} {s : State} (hwork : s.workTile thief = true) (hidle : (s.tile thief).idle = true)
    (hnext : (s.stealOrder thief)[(s.tile thief).steal]? = some victim) :
    let got := s.stolen victim
    s.doStealTake thief victim =
      (s.setTile victim fun v => { v with queue := v.queue.filter fun i => !(got.contains i) }).setTile thief fun v =>
        { v with queue := v.queue ++ got, steal := v.steal + 1
                 idle := !(((v.steal + 1) % 4 == 0 || decide ((s.stealOrder thief).length ≤ v.steal + 1)) && !(v.queue ++ got).isEmpty) } := by
  simp only [doStealTake, hwork, hidle, hnext, beq_self_eq_true, Bool.and_self, if_true]
  rfl

-- Asking again (R122)

section
variable {t : Nat} {s : State}

theorem roundOver_iff : s.roundOver t = true ↔ (s.stealOrder t).length ≤ (s.tile t).steal := decide_eq_true_iff

theorem doIdleTileTimeout_during (hround : (s.tile t).steal < (s.stealOrder t).length) : s.doIdleTileTimeout t = s :=
  if_neg (mt roundOver_iff.1 (Nat.not_le.2 hround))

theorem doHopperWake_asleep (hno : (s.tile t).woken = false) : s.doHopperWake t = s := by
  simp only [doHopperWake, hno, Bool.not_false, if_true]

section
variable (hidle : (s.tile t).idle = true)
include hidle

theorem doHopperWake_during (hwoken : (s.tile t).woken = true) (hround : (s.tile t).steal < (s.stealOrder t).length) :
    s.doHopperWake t = s := by
  have hover : s.roundOver t = false := Bool.eq_false_iff.2 (mt roundOver_iff.1 (Nat.not_le.2 hround))
  simp only [doHopperWake, hwoken, hidle, hover, Bool.not_true, Bool.not_false, Bool.and_self, Bool.false_eq_true, if_false, if_true]

variable (hwork : s.workTile t = true) (hempty : (s.tile t).queue = [])
include hwork hempty

/-- R122: an idle tile with an empty queue asks again. -/
theorem askAgain_refills : s.askAgain t = s.refill t := by
  simp only [askAgain, hwork, hidle, hempty, List.isEmpty_nil, Bool.and_self, if_true]

theorem doIdleTileTimeout_over (hround : (s.stealOrder t).length ≤ (s.tile t).steal) : s.doIdleTileTimeout t = s.refill t :=
  (if_pos (roundOver_iff.2 hround)).trans (askAgain_refills hidle hwork hempty)

theorem doHopperWake_over (hwoken : (s.tile t).woken = true) (hround : (s.stealOrder t).length ≤ (s.tile t).steal) :
    s.doHopperWake t = (s.setTile t fun y => { y with woken := false }).refill t := by
  have hasks : (s.setTile t fun y => { y with woken := false }).askAgain t = (s.setTile t fun y => { y with woken := false }).refill t :=
    askAgain_refills (by rw [tile_setTile]; exact hidle) hwork (by rw [tile_setTile]; exact hempty)
  simp only [doHopperWake, hwoken, roundOver_iff.2 hround, hasks, Bool.not_true, Bool.and_false, Bool.false_eq_true, if_false]

end
end

-- The start of a work item (R85, R86, R99, R120)

/-- The entries that a work item takes leave its queue (R85). -/
def takeInputs (t : Nat) (i : Item) (es : List QEntry) (s : State) : State :=
  match wInQ i.wi with
  | some q => s.takeEntries t q es
  | none => s

/-- The running work item that a start makes of its entry, with the number of its run. -/
def startRun (t : Nat) (i : Item) (es : List QEntry) (v : State) : Running :=
  let p := v.placeSlots t i (es.map (·.handle))
  { item := i, run := v.runNext, slots := p.1, index := p.2.1, handles := es.map (·.handle), toFetch := (slotsToFetch i.wi t p.1).1 }

/-- The tile runs the work item, which has left its queue. -/
def startTile (t : Nat) (i : Item) (es : List QEntry) (rest : List Item) (v : State) : State :=
  ({ v with runNext := v.runNext + 1 } : State).setTile t fun y => { y with
    queue := rest, running := some (v.startRun t i es), gang := if wOpcode i.wi / 16 = 1 then wGang i.wi else y.gang }

/-- A work item's input handles are poisoned (R86). -/
def inputsPoisoned (i : Item) (es : List QEntry) : Bool := (es.map (·.handle) ++ i.inHandles.map Prod.snd).any handlePoison

section
variable {t : Nat} {s : State} {i : Item} {rest : List Item} (hqueue : (s.tile t).queue = i :: rest) (hidle : (s.tile t).running = none)
include hqueue hidle

/-- R85: a work item waits at the head of its queue until its handles are there. -/
theorem doWorkItemStart_waits (hnone : s.dequeue t i = none) : s.doWorkItemStart t = s := by
  simp only [doWorkItemStart, hqueue, hidle, hnone, ite_self]

/-- R86, R99, R311: the faults that end a work item at its start, in order; with none its remote reads leave. -/
theorem doWorkItemStart_starts {es : List QEntry} (hwork : s.workTile t = true) (hes : s.dequeue t i = some es) :
    let c := (s.takeInputs t i es).swapContext t i
    let p := c.2.placeSlots t i (es.map (·.handle))
    let y := c.2.startTile t i es rest
    s.doWorkItemStart t =
      if p.2.2 != 0 then y.faultItem t (c.2.startRun t i es) p.2.2
      else if inputsPoisoned i es then y.faultItem t (c.2.startRun t i es) 7
      else if c.1.isSome then y.faultItem t (c.2.startRun t i es) 6
      else { y with remoteReads := y.remoteReads ++ (slotsToFetch i.wi t p.1).2.map fun n => { reader := t, slot := n } } := by
  simp only [doWorkItemStart, hqueue, hidle, hwork, hes, Bool.not_true, Bool.false_eq_true, if_false]
  rfl

end

end State

/-- Settles O50: each row's cases, by the lemmas about the operation behind it. -/
theorem tilesRefillStealAndStart : Obligations.TilesRefillStealAndStart := by
  refine ⟨?refill, ?steal, ?wake, ?start⟩
  case refill =>
    intro t p s hpool hwork hfew
    refine ⟨?_, fun hnone hempty => ?_⟩
    · rw [exec_tileRefillRequest, State.doTileRefillRequest_asks hwork hfew]
    · rw [exec_tileRefillRequest, State.doTileRefillRequest_asks hwork hfew, State.refill_nothing hpool hnone hempty]
  case steal =>
    intro thief victim s hwork hidle hnext can k got
    refine ⟨?_, s.stolen_length victim⟩
    rw [exec_stealTake, State.doStealTake_takes hwork hidle hnext]
    rfl
  case wake =>
    intro t s hwork hidle hempty
    refine ⟨fun hno => ?_, fun hwoken hround => ?_, fun hwoken hround => ?_, fun hround => ?_, fun hround => ?_⟩
    · rw [exec_hopperWake, State.doHopperWake_asleep hno]
    · rw [exec_hopperWake, State.doHopperWake_during hidle hwoken hround]
    · rw [exec_hopperWake, State.doHopperWake_over hidle hwork hempty hwoken hround]
    · rw [exec_idleTileTimeout, State.doIdleTileTimeout_over hidle hwork hempty hround]
    · rw [exec_idleTileTimeout, State.doIdleTileTimeout_during hround]
  case start =>
    intro t s i rest hqueue hidle hwork
    have hafter : ∀ z, s.doWorkItemStart t = z → exec (.workItemStart t) s = .next (s.after z) := fun z hz => by
      rw [exec_workItemStart, hz]
    refine ⟨fun hnone => hafter _ (State.doWorkItemStart_waits hqueue hidle hnone), ?_⟩
    intro es hes hs c v p f x y
    have hstart := State.doWorkItemStart_starts hqueue hidle hwork hes
    refine ⟨fun hfault => ?_, fun hok hpoison => ?_, fun hok hclean hctx => ?_, fun hok hclean hctx => ?_⟩
    · exact hafter _ (hstart.trans (if_pos (bne_iff_ne.2 hfault)))
    all_goals
      have hgood := hstart.trans (if_neg (Bool.eq_false_iff.1 (bne_eq_false_iff_eq.2 hok)))
    · exact hafter _ (hgood.trans (if_pos hpoison))
    all_goals
      have hread := hgood.trans (if_neg (Bool.eq_false_iff.1 hclean))
    · exact hafter _ (hread.trans (if_pos (Option.isSome_iff_ne_none.2 hctx)))
    · exact hafter _ (hread.trans (if_neg (Option.not_isSome_iff_eq_none.2 hctx)))

end Sys2Proof.Machine
end

section
/-! PROOFS. NOP, SIGNAL and YIELD (R85, R105, R106, R119, R128): a work item that writes nothing ends with its record or waits for credits,
YIELD's items return to the pool, and a record's signals add to the request. -/

namespace Sys2Proof.Machine

theorem exec_nop (t : Nat) (s : State) : exec (.nop t) s = .next (s.after (s.doNop t)) := rfl
theorem exec_signal (t : Nat) (s : State) : exec (.signal t) s = .next (s.after (s.doSignal t)) := rfl
theorem exec_yieldItem (t : Nat) (s : State) : exec (.yieldItem t) s = .next (s.after (s.doYieldItem t)) := rfl

namespace State

/-- What every step of a fold keeps, the fold keeps. -/
theorem foldl_keeps {α β : Type} (field : State → β) {f : State → α → State} (hf : ∀ s a, field (f s a) = field s) (l : List α)
    (s : State) : field (l.foldl f s) = field s :=
  List.foldlRecOn l f (motive := fun u => field u = field s) rfl fun u hu a _ => (hf u a).trans hu

-- A work item that writes nothing ends (R85, R105)

theorem portWrite_sluiceFlights (a : Nat) (bs : Bytes) (s : State) : (s.portWrite a bs).sluiceFlights = s.sluiceFlights := by
  unfold portWrite
  dsimp only
  split <;> rfl

theorem flushCache_sluiceFlights (t : Nat) (s : State) : (s.flushCache t).sluiceFlights = s.sluiceFlights := by
  have hlines := foldl_keeps sluiceFlights (fun v (l : CacheLine) => portWrite_sluiceFlights l.addr l.data v) ((s.tile t).cache.filter (·.dirty)) s
  unfold flushCache
  dsimp only
  split <;> exact hlines

theorem chargeWaits_sluiceFlights (t : Nat) (x : Running) (s : State) : (s.chargeWaits t x).sluiceFlights = s.sluiceFlights :=
  foldl_keeps sluiceFlights (f := chargeFree) (fun _ _ => rfl) (waitCounters t x) s

/-- No handle leaves. -/
theorem sendHandles_nil (t : Nat) (x : Running) (poison : Bool) (s : State) : s.sendHandles t x [] poison = s := by
  cases poison <;> simp [sendHandles, postHandles, releaseBuffers]

/-- The end of a work item that has neither faulted nor written anything. -/
def plainClosing (x : Running) : Closing := { x, fault := 0, flags := 0, aux := 0, rejected := false, spans := [] }

theorem finishItem_nothing (t : Nat) (x : Running) (s : State) : s.finishItem t x { writes := [] } = s.closeItem t (plainClosing x) := rfl

/-- A work item that writes nothing has no handle of its own to wait with. -/
theorem sendOutputs_plain_sluiceFlights (t : Nat) (x : Running) (s : State) :
    (s.sendOutputs t (plainClosing x)).sluiceFlights = s.sluiceFlights := by
  have hflush : ∀ v : State, (if wFlush x.item.wi then v.flushCache t else v).sluiceFlights = v.sluiceFlights := fun v => by
    split
    · exact flushCache_sluiceFlights t v
    · rfl
  simp only [sendOutputs, plainClosing, List.flatMap_nil, sendHandles_nil]
  exact (hflush _).trans (chargeWaits_sluiceFlights t x s)

theorem sendOutputs_plain_waitsForCredit (t : Nat) (x : Running) (s : State) :
    (s.sendOutputs t (plainClosing x)).waitsForCredit t x.run = s.waitsForCredit t x.run := by
  rw [waitsForCredit, sendOutputs_plain_sluiceFlights, waitsForCredit]

theorem closeItem_leaves {t : Nat} {c : Closing} {s : State} (hfree : (s.sendOutputs t c).waitsForCredit t c.x.run = false) :
    (s.closeItem t c).completions = s.completions ++ [doneOf t c] := by
  rw [closeItem_eq, if_neg (Bool.eq_false_iff.1 hfree)]
  exact congrArg (· ++ [doneOf t c]) (sendOutputs_ends t c s).completions

theorem closeItem_waits {t : Nat} {c : Closing} {s : State} (hwait : (s.sendOutputs t c).waitsForCredit t c.x.run = true) :
    (s.closeItem t c).completions = s.completions ∧ ∃ k ∈ ((s.closeItem t c).tile t).closing, k.x = c.x ∧ k.done = some (doneOf t c) := by
  rw [closeItem_eq, if_pos hwait]
  refine ⟨(sendOutputs_ends t c s).completions, { c with done := some (doneOf t c) }, ?_, rfl, rfl⟩
  rw [tile_setTile]
  exact List.mem_append_right _ (List.mem_singleton.2 rfl)

/-- R105, R128: a record carries SIGNAL's increment and one for its work item's DONE_SIG. -/
theorem doneOf_plain_signals (t : Nat) (x : Running) : (doneOf t (plainClosing x)).signals
    = (if wOpcode x.item.wi = 0x02 then [(wImm x.item.wi 0, wImm x.item.wi 1)] else []) ++ (wDone x.item.wi).toList.map fun g => (g, 1) := by
  simp only [doneOf, plainClosing, completionFor]
  cases wDone x.item.wi <;> rfl

-- YIELD (R128)

/-- R128: returned items stand before what the queue held; the waking of tiles leaves the queue alone. -/
theorem returnItems_queue (p : Nat) (is : List Item) (s : State) : ((s.returnItems p is).pool p).queue = is ++ (s.pool p).queue := by
  have hqueue : ((s.setPool p fun x => { x with queue := is ++ x.queue }).pool p).queue = is ++ (s.pool p).queue := by rw [pool_setPool]
  unfold returnItems
  dsimp only
  split <;> exact hqueue

-- Signals (R119)

/-- A request's signals with increments added, each saturating at 24 bits. -/
def raised (gs : List (Nat × Nat)) (signals : List Nat) : List Nat :=
  gs.foldl (fun v g => v.modify g.1 fun n => satTo 24 (n + g.2)) signals

/-- R119: increments change their request's signals; the waking of tiles leaves the requests alone. -/
theorem addSignals_req {gs : List (Nat × Nat)} (hsome : gs ≠ []) (r : Nat) (s : State) :
    (s.addSignals r gs).req? r = (s.req? r).map fun q => { q with signals := raised gs q.signals } := by
  rw [addSignals, if_neg (mt List.isEmpty_iff.1 hsome), ← req_setReq]
  refine foldl_keeps (fun v => v.req? r) (fun v p => ?_) _ _
  split <;> rfl

theorem raised_single {signals : List Nat} {g : Nat} (n : Nat) (hg : g < signals.length) :
    (raised [(g, n)] signals).getD g 0 = satTo 24 (signals.getD g 0 + n) := by
  simp [raised, List.getD_eq_getElem?_getD, hg]

end State

/-- Settles O36: the three rows by what they run; a work item that writes nothing leaves no handle behind, so only earlier ones make it wait. -/
theorem signalYieldAndNopComplete : Obligations.SignalYieldAndNopComplete := by
  refine ⟨?nop, ?signal, ?yield, ?ends, State.returnItems_queue, ?adds⟩
  case nop => intro t s u x bs h; rw [exec_nop, State.doNop, State.runOp_ready h]
  case signal => intro t s u x bs h; rw [exec_signal, State.doSignal, State.runOp_ready h]
  case yield =>
    intro t s u x bs h mine v
    rw [exec_yieldItem, State.doYieldItem]
    exact congrArg (fun v => Host.Outcome.next (s.after v)) (State.runOp_ready h _)
  case ends =>
    intro t s x
    have hsame := State.sendOutputs_plain_waitsForCredit t x s
    refine ⟨State.doneOf t (State.plainClosing x), fld_recordFor_fault (f := 0) (by decide), State.doneOf_plain_signals t x, ?_, ?_⟩
    · exact fun hfree => State.closeItem_leaves (hsame.trans hfree)
    · exact fun hwait => State.closeItem_waits (hsame.trans hwait)
  case adds =>
    intro s r q g n hq hg
    rw [State.addSignals_req (List.cons_ne_nil _ _), hq]
    exact congrArg some (State.raised_single n hg)

end Sys2Proof.Machine
end

section
/-! PROOFS. The Wheel's rotation (R129, R135 to R139, R143, R145, R146, R151, R152, R156, R446): a slice's scoring and its token at a tile, the
boundary at the root, the release's arrival and the watchdog, by case of the operation behind each row. -/

namespace Sys2Proof.Machine

theorem exec_wheelSliceDone (t : Nat) (s : State) : exec (.wheelSliceDone t) s = .next (s.after (s.doWheelSliceDone t)) := rfl
theorem exec_wheelReleaseArrival (t : Nat) (s : State) :
    exec (.wheelReleaseArrival t) s = .next (s.after (s.doWheelReleaseArrival t)) := rfl
theorem exec_wheelBoundaryCombine (p : Nat) (s : State) :
    exec (.wheelBoundaryCombine p) s = .next (s.after (s.doWheelBoundaryCombine p)) := rfl
theorem exec_wheelWake (p : Nat) (s : State) : exec (.wheelWake p) s = .next (s.after (s.doWheelWake p)) := rfl
theorem exec_wheelWatchdog (p : Nat) (s : State) : exec (.wheelWatchdog p) s = .next (s.after (s.doWheelWatchdog p)) := rfl

namespace State

-- At a tile

section
variable {t : Nat} {s : State} {w : Wheel} {x : WheelTile} (hat : s.wheelAt t = some (w, x))
include hat

/-- R137: a tile that has scored its slice, or has no rider aboard, sends its one token. -/
theorem doWheelSliceDone_sends (hrel : x.release ≠ none) (htoken : x.token = none) (hscored : x.scored = true ∨ x.aboard = []) :
    s.doWheelSliceDone t = s.setWheel (onTile w t fun x => { x with token := some (x.landed, x.fault) }) := by
  have hdone : (x.release.isSome && x.token.isNone && (x.scored || x.aboard.isEmpty)) = true := by
    simpa [Option.isSome_iff_ne_none, hrel, htoken] using hscored
  simp only [doWheelSliceDone, hat]
  exact if_pos hdone

theorem doWheelSliceDone_scoring (hscored : x.scored = false) (haboard : x.aboard ≠ []) : s.doWheelSliceDone t = s := by
  simp [doWheelSliceDone, hat, hscored, haboard]

/-- R129: on a tile of the Wheel a DIST is the rotation's. -/
theorem doDist_ofWheel : s.doDist t = s.wheelDist t w x := by
  simp only [doDist, hat]

/-- R138: a release that reaches a tile to which it is on its way. -/
theorem doWheelReleaseArrival_flying (hflying : w.flying.contains t = true) :
    s.doWheelReleaseArrival t = (s.setWheel (onTile { w with flying := w.flying.erase t } t fun x =>
      let x := if w.release.faulted then x.aboard.foldl (fun x i => clearSlot i x) x else x
      let y := w.release.board.foldl (fun (y : WheelTile) i =>
        { y with aboard := y.aboard ++ [i], lists := insertKey i [] y.lists, theta := insertKey i 0 y.theta }) x
      { y with
        release := some w.release, begun := false, scored := false, todo := [], evicted := 0, token := none, fault := false
        aboard := y.aboard.filter fun i => !(w.release.leave.contains i)
        landed := y.landed.filter fun i => !(w.release.leave.contains i)
        parts := y.parts.filter fun z => !(w.release.leave.contains z.1) })).layTile t := by
  simp only [doWheelReleaseArrival, hat, hflying, Bool.not_true, Bool.false_eq_true, if_false]

end

-- Scoring a slice (R147, R151, R152, R156)

section
variable {s : State} {w : Wheel} {x : WheelTile} {rel : Release} {c : CorpusCfg} {k : Corpus} (t : Nat)

/-- A slice is scored once: DIST leaves a tile that has begun or scored its own. -/
theorem wheelDist_begun (hbegun : x.begun = true ∨ x.scored = true) : s.wheelDist t w x = s := by
  unfold wheelDist
  split
  · exact if_pos (Bool.or_eq_true_iff.2 hbegun)
  · rfl

/-- R147: the riders aboard score a slice's rows in turn: their candidates, and the Wheel with their counts. -/
def scoreAboard (c : CorpusCfg) (k : Corpus) (rel : Release) (rows : List SliceRow) (w : Wheel) (aboard : List Nat) :
    List (Nat × Cand) × Wheel :=
  aboard.foldl (fun (acc : List (Nat × Cand) × Wheel) slot => match rider? acc.2 slot with
    | some r => if r.phase != 2 then acc else
        let z := scoreRider c (rows.filter (sees k (rel.switch == 1) rel.seg r)) r
        (acc.1 ++ z.1, onRider acc.2 slot fun _ => z.2)
    | none => acc) ([], w)

/-- What a tile of the rotation makes of its slice, marking a listed line in it (R156). -/
def scoreSlice (t : Nat) (w : Wheel) (x : WheelTile) (rel : Release) (c : CorpusCfg) (k : Corpus) (bad : Bool) (s : State) : State :=
  let p := s.relIndex w.pool t
  let y := scoreAboard c k rel (s.sliceRows c k rel.seg p) w x.aboard
  ((s.fillRing t (s.sliceBytes c k rel.seg p)).chargeFree (tileCtr t 0)).goOnSlice t y.2
    { x with begun := true, todo := y.1, evicted := 0, fault := x.fault || bad }

/-- R156, R448: the two events of a listed line in a slice. -/
def sliceEvents (t line : Nat) (s : State) : State :=
  (s.containedEvent { cause := 0x0B, unit := 1, unitIndex := stackOf (line * 64), addr := line * 64 } fnWheel).containedEvent
    { cause := 0x21, unit := 9, unitIndex := t, addr := line * 64 } fnWheel

variable (hrel : x.release = some rel) (hc : s.corpusCfg? w.corpus = some c) (hk : s.corpus? w.corpus = some k)
  (hbegun : x.begun = false) (hscored : x.scored = false)
include hrel hc hk hbegun hscored

/-- R147, R151: a sound slice. -/
theorem wheelDist_sound (hbad : s.sliceBad c k rel.seg (s.relIndex w.pool t) = none) :
    s.wheelDist t w x = s.scoreSlice t w x rel c k false := by
  simp only [wheelDist, scoreSlice, hrel, hc, hk, hbegun, hscored, hbad, Bool.or_self, Bool.false_eq_true, if_false]
  rfl

/-- R156: a slice with a listed line is scored too, sets the tile's fault bit and is logged. -/
theorem wheelDist_listed {line : Nat} (hbad : s.sliceBad c k rel.seg (s.relIndex w.pool t) = some line) :
    s.wheelDist t w x = (s.scoreSlice t w x rel c k true).sliceEvents t line := by
  simp only [wheelDist, scoreSlice, hrel, hc, hk, hbegun, hscored, hbad, Bool.or_self, Bool.false_eq_true, if_false]
  rfl

end

/-- R152: a tile stops short of the end of its slice only at a full eviction buffer. -/
theorem takeTodo_pauses_full {l : Nat} {es : List (Nat × Cand)} {x : WheelTile} (hpaused : (takeTodo l es x).scored = false) :
    evictRoom ≤ (takeTodo l es x).evict.length := by
  induction es generalizing x with
  | nil => simp [takeTodo] at hpaused
  | cons e es ih =>
    unfold takeTodo at hpaused ⊢
    split at hpaused
    case isTrue hfull => rwa [if_pos hfull]
    case isFalse hroom =>
      rw [if_neg hroom]
      exact ih hpaused

-- At the root

/-- R145: at a boundary the segment counts as scored by every rider aboard. -/
def countSegment (w : Wheel) : Wheel :=
  { w with riders := w.riders.map fun r => if r.phase == 2 then { r with scored := r.scored ++ [w.release.seg] } else r }

section
variable {p : Nat} {s : State} {w : Wheel} (hw : s.wheel? p = some w) (hworks : s.works fnWheel = true)
include hw hworks

/-- R137 to R139: with every token in, the root forms the next release, starts the segment it holds when a rider stirs, or holds on. -/
theorem doWheelBoundaryCombine_tokens (hactive : s.poolActive p = true) (hflying : w.flying = []) (htiles : w.tiles ≠ [])
    (htokens : (w.tiles.all fun x => x.2.token.isSome) = true) :
    s.doWheelBoundaryCombine p =
      if w.release.next != .pause then s.formRelease (countSegment w) w.release.next (tokenMask w) (tokenFault w)
      else if stirs (countSegment w) (tokenMask w) then s.formRelease (countSegment w) (w.held.getD .pause) (tokenMask w) (tokenFault w)
      else s.setWheel { countSegment w with tiles := w.tiles.map fun x => (x.1, { x.2 with release := none, token := none }) } := by
  have hready : (!(s.works fnWheel) || !(s.poolActive p) || !w.flying.isEmpty || w.tiles.isEmpty
      || !(w.tiles.all fun x => x.2.token.isSome)) = false := by
    simp [hworks, hactive, hflying, htiles, htokens]
  simp only [doWheelBoundaryCombine, hw, hready, Bool.false_eq_true, if_false]
  rfl

/-- R139: a landing or a drop starts the segment that the root holds. -/
theorem doWheelWake_stirs (hactive : s.poolActive p = true) (hpaused : paused w = true) (hstirs : stirs w (landedAll w) = true) :
    s.doWheelWake p = s.formRelease w (w.held.getD .pause) (landedAll w) false := by
  simp only [doWheelWake, hw, hworks, hactive, hpaused, hstirs, Bool.and_self, if_true]

/-- R446: the watchdog's second ends with a rider aboard. -/
theorem doWheelWatchdog_aboard (haboard : (w.riders.any (·.phase == 2)) = true) :
    s.doWheelWatchdog p = (s.atLeast (w.at' + ticksOfMs 1000)).functionEvent { cause := 0x2D, unit := 9, unitIndex := p } 3 := by
  simp only [doWheelWatchdog, hw, hworks, haboard, Bool.and_self, if_true]

end

end State

/-- Settles O55: each row's cases, by the lemmas about the operation behind it. -/
theorem wheelTurnsBySegments : Obligations.WheelTurnsBySegments := by
  refine ⟨?tile, fun l es x hpaused _ => State.takeTodo_pauses_full hpaused, ?root⟩
  case tile =>
    intro t s w x hat
    refine ⟨fun hrel htoken hscored => ?_, fun hscored haboard => ?_, fun hbegun => ?_, ?dist, fun hflying => ?_⟩
    · rw [exec_wheelSliceDone, State.doWheelSliceDone_sends hat hrel htoken hscored]
    · rw [exec_wheelSliceDone, State.doWheelSliceDone_scoring hat hscored haboard]
    · rw [exec_dist, State.doDist_ofWheel hat, State.wheelDist_begun t hbegun]
    case dist =>
      intro rel c k hrel hc hk hbegun hscored p rows y u
      refine ⟨fun hbad => ?_, fun line hbad => ?_⟩
      · rw [exec_dist, State.doDist_ofWheel hat, State.wheelDist_sound t hrel hc hk hbegun hscored hbad, State.scoreSlice, Bool.or_false]
        rfl
      · rw [exec_dist, State.doDist_ofWheel hat, State.wheelDist_listed t hrel hc hk hbegun hscored hbad, State.scoreSlice, Bool.or_true]
        rfl
    · rw [exec_wheelReleaseArrival, State.doWheelReleaseArrival_flying hat hflying]
  case root =>
    intro p s w hw hworks
    refine ⟨?boundary, fun hactive hpaused hstirs => ?_, fun haboard => ?_⟩
    case boundary =>
      intro hactive hflying htiles htokens y landed
      have hboundary := State.doWheelBoundaryCombine_tokens hw hworks hactive hflying htiles htokens
      have hafter : ∀ z, s.doWheelBoundaryCombine p = z → exec (.wheelBoundaryCombine p) s = .next (s.after z) := fun z hz => by
        rw [exec_wheelBoundaryCombine, hz]
      refine ⟨fun hnext => hafter _ (hboundary.trans (if_pos (bne_iff_ne.2 hnext))), fun hpause => ?_, fun hpause => ?_⟩
      all_goals
        have hholds := hboundary.trans (if_neg (by simp [hpause]))
      · exact fun hstirs => hafter _ (hholds.trans (if_pos hstirs))
      · exact fun hstill => hafter _ (hholds.trans (if_neg (Bool.eq_false_iff.1 hstill)))
    · rw [exec_wheelWake, State.doWheelWake_stirs hw hworks hactive hpaused hstirs]
    · rw [exec_wheelWatchdog, State.doWheelWatchdog_aboard hw hworks haboard]

end Sys2Proof.Machine
end

section
/-! PROOFS. Hot sets and merges that are asked for (R161, R166, R215, R216, R364): the checked HOT_SET, its installation, and CORPUS_SWITCH's
merge, by case of the operation behind each. -/

namespace Sys2Proof.Machine

theorem exec_hotSetInstall (id : Nat) (s : State) : exec (.hotSetInstall id) s = .next (s.after (s.doHotSetInstall id)) := rfl

namespace State

-- HOT_SET (R215, R216)

/-- The rows that a HOT_SET lists. -/
def hotRowIds (w : Write) : List Nat := (chunks 8 (w.payload.drop 24)).map leNat

/-- A HOT_SET's form is whole, and its ids are in range (R215). -/
structure HotSetWhole (w : Write) : Prop where
  length : w.payload.length = 24 + 8 * uAt w.payload 16 4
  some : 0 < uAt w.payload 16 4
  table : uAt w.payload 20 4 < 512
  ids : ∀ r ∈ hotRowIds w, r < 2 ^ 40

/-- A HOT_SET's table takes it: the table version is held, the hot set is newer than the last, and its rows are rows of the table, each once,
as many as the table allows (R215). -/
structure HotSetTaken (s : State) (w : Write) (t : TableCfg) : Prop where
  cfg : s.tableCfg? (uAt w.payload 20 4) = some t
  version : s.table? (uAt w.payload 20 4) (uAt w.payload 12 4) ≠ none
  newer : (s.tableRun (uAt w.payload 20 4)).lastHot < uAt w.payload 8 4
  room : uAt w.payload 16 4 ≤ t.hotCap
  once : distinct (hotRowIds w) = true
  rows : ∀ r ∈ hotRowIds w, r < t.rows

/-- A hot set has to wait: a request is bound to the half that it takes, or the refresh time has not passed (R216). -/
def hotLate (s : State) (id : Nat) (t : TableCfg) : Bool :=
  !(s.hotHalfFree id (s.tableRun id).half)
    || (s.tableRun id).started.any fun x => decide (s.portTicks < x + ticksOfMs t.hotRefreshMs)

theorem hotLate_iff {s : State} {id : Nat} {t : TableCfg} : s.hotLate id t = true ↔
    s.hotHalfFree id (s.tableRun id).half = false ∨ ∃ x, (s.tableRun id).started = some x ∧ s.portTicks < x + ticksOfMs t.hotRefreshMs := by
  simp only [hotLate, Bool.or_eq_true, Bool.not_eq_true', Option.any_eq_true, decide_eq_true_eq]

/-- R215, R216: a HOT_SET that passes its checks waits for its installation, counted when it is late; it supersedes the one before it. -/
theorem applyHotSet_waits {s : State} {w : Write} {t : TableCfg} (hwhole : HotSetWhole w) (htaken : s.HotSetTaken w t)
    (hfree : (s.tableRun (uAt w.payload 20 4)).installing = none) :
    let run := s.tableRun (uAt w.payload 20 4)
    let u := s.setTableRun { run with waiting := some w, waitMs := t.hotRefreshMs }
    let v := if s.hotLate (uAt w.payload 20 4) t then u.count (devCtr 11) 1 else u
    s.applyHotSet w = (run.waiting.elim v fun x => v.answerWrite x refSuperseded [] true, none) := by
  intro run u v
  obtain ⟨hlength, hsome, htable, hids⟩ := hwhole
  obtain ⟨hcfg, hversion, hnewer, hroom, honce, hrows⟩ := htaken
  simp only [hotRowIds] at hids honce hrows
  have hlong : 24 ≤ w.payload.length := by omega
  unfold applyHotSet
  dsimp only [hotMsg]
  rw [if_neg (by simpa [and_assoc] using And.intro hlong (And.intro hlength (And.intro hsome.ne' (And.intro htable hids))))]
  simp only [hcfg]
  rw [if_neg (by simpa using hversion), if_neg (by simpa [hfree] using hnewer), if_neg (by simpa [honce, hroom] using hrows)]
  simp only [v, u, run, hotLate, hfree, Option.isSome_none, Bool.or_false]
  cases (s.tableRun (uAt w.payload 20 4)).waiting <;> cases (s.tableRun (uAt w.payload 20 4)).started <;> rfl

-- HOT_SET_INSTALL (R216)

/-- The rows of a waiting hot set, each with its place, its owner and its local row there. -/
def hotPlaces (v : TableVer) (w : Write) : List (Nat × Nat × Nat) :=
  (hotRowIds w).zipIdx.map fun x => (x.2, (v.map.locate x.1).getD (0, 0))

/-- The rows of a hot set that other devices own. -/
def hotOthers (s : State) (v : TableVer) (w : Write) : List (Nat × Nat × Nat) := (hotPlaces v w).filter fun x => x.2.1 != s.pairIndex

/-- The waiting hot set of a table is taken up, no earlier than its refresh time allows. -/
def takeHotSet (id : Nat) (s : State) : State :=
  let run := s.tableRun id
  let u := match run.started with
    | some x => s.atLeast (x + ticksOfMs run.waitMs)
    | none => s
  u.setTableRun { run with waiting := none, started := some u.portTicks }

theorem takeHotSet_table? (id n : Nat) (s : State) : (s.takeHotSet id).table? id n = s.table? id n := by
  dsimp only [takeHotSet]
  split <;> rfl

/-- An install begins with a version of its table, and fails without it. -/
def installFor (id : Nat) (w : Write) (t : TableCfg) (v : Option TableVer) (s : State) : State :=
  match v with
  | none => s.answerWrite w refFetchFailed [] true
  | some v => s.startInstall id w t v

/-- This device's rows of a hot set stand in their places, with memory at `a` for the others', which the install awaits; `u` is the state
in which it began. -/
def placeMine (id : Nat) (w : Write) (t : TableCfg) (v : TableVer) (a : Nat) (u y : State) : State :=
  let slots := (u.hotOthers v w).map Prod.fst
  let bytes := (u.hotOthers v w).length * t.stride
  let y : State := { y with used := (y.used.erase (a, max 128 bytes)) ++ (if bytes = 0 then [] else [(a, bytes)]) }
  let z := ((hotPlaces v w).filter fun x => x.2.1 == u.pairIndex).foldl
    (fun (z : State) x => z.placeHot t (u.tableRun id).half a slots x.1 (z.rowBytesOf t.stride v x.2.2)) y
  z.setTableRun { z.tableRun id with installing := some (w, a, slots), missing := (u.hotOthers v w).length }

section
variable {s : State} {id : Nat} {w : Write} {t : TableCfg} (hcfg : s.tableCfg? id = some t)
  (hwaiting : (s.tableRun id).waiting = some w) (hinstalling : (s.tableRun id).installing = none)
include hcfg hwaiting hinstalling

/-- R216: an install waits while a request is bound to the half that it takes. -/
theorem doHotSetInstall_held (hheld : s.hotHalfFree id (s.tableRun id).half = false) : s.doHotSetInstall id = s := by
  simp only [doHotSetInstall, hwaiting, hinstalling, hcfg, hheld, Bool.not_false, if_true]

/-- R216: otherwise it begins, unless the version of the table that it was given for is gone (log 76). -/
theorem doHotSetInstall_free (hfree : s.hotHalfFree id (s.tableRun id).half = true) :
    s.doHotSetInstall id = (s.takeHotSet id).installFor id w t (s.table? id (uAt w.payload 12 4)) := by
  rw [← takeHotSet_table?]
  simp only [doHotSetInstall, takeHotSet, hwaiting, hinstalling, hcfg, hfree, Bool.not_true, Bool.false_eq_true, if_false]
  rfl

end

/-- The exchange by which an install asks other devices for their rows; each request gives it its owner and number. -/
def installExchange (id : Nat) : Exchange :=
  { xid := 0, owner := 0, req := 0, reqOrder := 0, tile := 0, kind := 2, object := id, ids := [], places := [] }

section
variable {s y : State} {id a : Nat} {w : Write} {t : TableCfg} {v : TableVer}

/-- R216, R217: with memory for the others' rows, an install ends at once when there are none, and asks their owners otherwise. -/
theorem startInstall_eq : s.startInstall id w t v = match s.alloc (max 128 ((s.hotOthers v w).length * t.stride)) 4096 with
    | none => s.answerWrite w refNoMemory [] true
    | some (a, y) =>
      let z := placeMine id w t v a s y
      if (s.hotOthers v w).isEmpty then z.endInstall id {}
      else match z.requestAll (installExchange id) 0 0 v ((s.hotOthers v w).map fun x => (x.2.1, x.2.2, x.1)) with
        | some z => z
        | none => z.endInstall id refFetchFailed := rfl

variable (halloc : s.alloc (max 128 ((s.hotOthers v w).length * t.stride)) 4096 = some (a, y))
include halloc

/-- R216: a hot set whose rows this device owns takes effect at once. -/
theorem startInstall_mine (hmine : s.hotOthers v w = []) : s.startInstall id w t v = (placeMine id w t v a s y).endInstall id {} := by
  rw [startInstall_eq, halloc]
  exact if_pos (List.isEmpty_iff.2 hmine)

/-- R216, R217: the other devices are asked for their rows. -/
theorem startInstall_asks {z : State} (hothers : s.hotOthers v w ≠ [])
    (hasked : (placeMine id w t v a s y).requestAll (installExchange id) 0 0 v ((s.hotOthers v w).map fun x => (x.2.1, x.2.2, x.1)) = some z) :
    s.startInstall id w t v = z := by
  rw [startInstall_eq, halloc]
  refine (if_neg (mt List.isEmpty_iff.1 hothers)).trans ?_
  rw [hasked]

end

-- CORPUS_SWITCH's merge (R161, R166)

/-- A corpus has a merge due or running, or a merged version that waits for its switch. -/
def mergeAsked (k : Corpus) : Prop := k.merge.isSome = true ∨ k.due = true ∨ k.next.map (·.2) = some false

/-- A merge that has started is DONE; one that the memory does not suffice for is refused and counted (R161). -/
def mergeAnswer (w : Write) (started : Option State) (s : State) : Applied :=
  match started with
  | some u => (u, some ({}, [], w))
  | none => refused (s.count (devCtr 18) 1) w refNoMemory

section
variable {s : State} {w : Write} {c : CorpusCfg} {k : Corpus} (hok : switchMsgOk w.payload = true)
  (hc : s.corpusCfg? (switchMsg w.payload).corpus = some c) (hk : s.corpus? (switchMsg w.payload).corpus = some k)
include hok hc hk

/-- R161: a merge is asked for once. -/
theorem applySwitchMerge_asked (hasked : mergeAsked k) : s.applySwitchMerge w = (s, some ({}, [], w)) := by
  have hdone : (k.merge.isSome || k.due || (k.next.map (·.2)) == some false) = true := by
    simpa only [mergeAsked, Bool.or_eq_true, beq_iff_eq, or_assoc] using hasked
  simp only [applySwitchMerge, hok, hc, hk, hdone, Bool.not_true, Bool.false_eq_true, if_false, if_true]

section
variable (hnew : ¬mergeAsked k)
include hnew

theorem applySwitchMerge_new : s.applySwitchMerge w =
    if k.next.isSome || k.current.isNone then refused s w refWrongState
    else if !(s.cfg.pools.any (·.has 0)) then (s.setCorpus { k with due := true }, some ({}, [], w))
    else s.mergeAnswer w (s.startMerge c k) := by
  have hdone : (k.merge.isSome || k.due || (k.next.map (·.2)) == some false) = false := by
    simpa only [mergeAsked, ← Bool.not_eq_true, Bool.or_eq_true, beq_iff_eq, or_assoc] using hnew
  simp only [applySwitchMerge, hok, hc, hk, hdone, Bool.not_true, Bool.false_eq_true, if_false]
  rfl

/-- R161: there is nothing to merge without a version, or with an installed one that waits for its switch. -/
theorem applySwitchMerge_nothing (hnothing : k.next.isSome = true ∨ k.current = none) :
    s.applySwitchMerge w = (s, some (refWrongState, [], w)) := by
  rw [applySwitchMerge_new hok hc hk hnew, if_pos (by simpa using hnothing)]
  rfl

section
variable (hnext : k.next = none) (hcurrent : k.current.isSome = true)
include hnext hcurrent

theorem applySwitchMerge_noPool (hpool : s.cfg.pools.any (·.has 0) = false) :
    s.applySwitchMerge w = (s.setCorpus { k with due := true }, some ({}, [], w)) := by
  rw [applySwitchMerge_new hok hc hk hnew, if_neg (by simp [hnext, Option.isNone_eq_false_iff.2 hcurrent]), if_pos (by rw [hpool]; rfl)]

theorem applySwitchMerge_pool (hpool : s.cfg.pools.any (·.has 0) = true) : s.applySwitchMerge w = s.mergeAnswer w (s.startMerge c k) := by
  rw [applySwitchMerge_new hok hc hk hnew, if_neg (by simp [hnext, Option.isNone_eq_false_iff.2 hcurrent]), if_neg (by rw [hpool]; decide)]

end
end
end

end State

/-- Settles O29: each row's cases, by the lemmas about the operation behind it. -/
theorem hotSetsAndMergesStartInTurn : Obligations.HotSetsAndMergesStartInTurn := by
  refine ⟨⟨?hotSet, ?install⟩, ?merge⟩
  case hotSet =>
    intro s w t n rows hn hrows hlength hsome htable hids honce hcap hcfg hversion hfree hnewer run late u
    subst hn hrows
    have hwaits := State.applyHotSet_waits ⟨hlength, hsome, htable, fun r hr => (hids r hr).2⟩
      ⟨hcfg, hversion, hnewer, hcap, honce, fun r hr => (hids r hr).1⟩ hfree
    have hlate : s.hotLate (uAt w.payload 20 4) t = true ↔ late := State.hotLate_iff
    refine ⟨fun hnone hearly => ?_, fun hnone hislate => ?_, fun x hsome hearly => ?_⟩
    · rw [hwaits, hnone, if_neg (mt hlate.1 hearly)]
      rfl
    · rw [hwaits, hnone, if_pos (hlate.2 hislate)]
      rfl
    · rw [hwaits, hsome, if_neg (mt hlate.1 hearly)]
      rfl
  case install =>
    intro s id w t hcfg hwaiting hinstalling run u u'
    refine ⟨fun hheld => ?_, fun hfree hgone => ?_, ?_⟩
    · rw [exec_hotSetInstall, State.doHotSetInstall_held hcfg hwaiting hinstalling hheld]
    · rw [exec_hotSetInstall, State.doHotSetInstall_free hcfg hwaiting hinstalling hfree, hgone]
      rfl
    intro v hfree hv rows mine others bytes
    have hstart : exec (.hotSetInstall id) s = .next (s.after ((s.takeHotSet id).startInstall id w t v)) := by
      rw [exec_hotSetInstall, State.doHotSetInstall_free hcfg hwaiting hinstalling hfree, hv]
      rfl
    refine ⟨hstart, ?_⟩
    intro a y halloc y' z z' e
    have hafter : ∀ x, (s.takeHotSet id).startInstall id w t v = x → exec (.hotSetInstall id) s = .next (s.after x) := fun x hx => by
      rw [hstart, hx]
    exact ⟨fun hmine => hafter _ (State.startInstall_mine halloc hmine), fun x hothers hasked =>
      hafter _ (State.startInstall_asks halloc hothers hasked)⟩
  case merge =>
    intro s w c k hok hc hk
    refine ⟨State.applySwitchMerge_asked hok hc hk, fun hmerge hdue hnext => ?_⟩
    have hnew : ¬State.mergeAsked k := by simp [State.mergeAsked, hmerge, hdue, hnext]
    refine ⟨State.applySwitchMerge_nothing hok hc hk hnew, State.applySwitchMerge_noPool hok hc hk hnew, fun hnone hcurrent hpool => ?_⟩
    rw [State.applySwitchMerge_pool hok hc hk hnew hnone hcurrent hpool]
    rfl

end Sys2Proof.Machine
end

section
/-! PROOFS. The Wheel's riders (R141, R142, R146, R151, R153 to R155): how one boards, what its keeper keeps, how it gives its result, and how it is
dropped, by case of the operation behind each row. -/

namespace Sys2Proof.Machine

theorem exec_riderPrepare (p slot : Nat) (s : State) : exec (.riderPrepare p slot) s = .next (s.after (s.doRiderPrepare p slot)) := rfl
theorem exec_riderFinalMerge (p slot : Nat) (s : State) :
    exec (.riderFinalMerge p slot) s = .next (s.after (s.doRiderFinalMerge p slot)) := rfl
theorem exec_riderDrop (p slot : Nat) (s : State) : exec (.riderDrop p slot) s = .next (s.after (s.doRiderDrop p slot)) := rfl
theorem exec_evictionArrival (t : Nat) (s : State) : exec (.evictionArrival t) s = .next (s.after (s.doEvictionArrival t)) := rfl

namespace State

/-- Where a slot's keeper lies is the configuration's and the part's alone (R101, R142). -/
theorem keeperOf_congr {s u : State} (hcfg : u.cfg = s.cfg) (hfuses : u.fuses = s.fuses) (c : CorpusCfg) (p slot : Nat) :
    u.keeperOf c p slot = s.keeperOf c p slot := by
  simp only [keeperOf, poolTile, poolCfg?, hcfg, hfuses]

-- Boarding (R141, R142)

/-- A rider with what its query record says (R141), its query not folded yet. -/
def boarded (s : State) (r : Rider) (bs : Bytes) : Rider :=
  { r with
    phase := 1, k := fld (uAt bs 0 32) 95 80, rescore := fld (uAt bs 0 32) 111 96
    listOut := bitAt (uAt bs 0 32) 34 || s.merging r.req r.reqOrder }

/-- A part of a rider on its way from a keeper to the tiles (R142). -/
def sendPart (keeper p slot : Nat) (c : CorpusCfg) (r : Rider) (v : State) (i : Nat) : State :=
  v.multicast keeper p r (slice (packCodes (codeBits c) r.codes ++ riderRecord r 0) (256 * i) 256) (.rider slot)

theorem keeperOf_sendPart (keeper p slot : Nat) (c : CorpusCfg) (r : Rider) (v : State) (i : Nat) :
    (sendPart keeper p slot c r v i).keeperOf c p slot = v.keeperOf c p slot := keeperOf_congr rfl rfl c p slot

/-- The parts of a rider leave every slot's keeper where it is, so each leaves from the keeper as it then is. -/
theorem foldl_sendPart (p slot : Nat) (c : CorpusCfg) (r : Rider) (parts : List Nat) (v : State) :
    parts.foldl (sendPart (v.keeperOf c p slot) p slot c r) v
      = parts.foldl (fun v => sendPart (v.keeperOf c p slot) p slot c r v) v := by
  induction parts generalizing v with
  | nil => rfl
  | cons i parts ih => rw [List.foldl_cons, List.foldl_cons, ← ih, keeperOf_sendPart]

/-- The rider boards with its folded query, which its keeper multicasts to the tiles. -/
def boardRider (w : Wheel) (p slot : Nat) (c : CorpusCfg) (f : Rider × State) : State :=
  let v := f.2.setWheel (onRider w slot fun _ => f.1)
  (List.range (riderParts c)).foldl (sendPart (v.keeperOf c p slot) p slot c f.1) v

-- The result (R153 to R155)

/-- The candidates that a rider's keeper and tiles kept of it, with the number of ties left out. -/
def riderCandidates (w : Wheel) (slot : Nat) (r : Rider) : List Cand × Nat := finalList r (w.tiles.flatMap fun x => lookupD slot x.2.lists [])

/-- The result of a rider that is not rescored (R153). -/
def unrescoredResult (c : CorpusCfg) (r : Rider) (f : List Cand × Nat) : SelList :=
  { k := r.k, type := scoreType c.distance, cands := f.1, tieLeft := f.2, nans := r.nans
    flags := (if f.2 = 0 then 0 else flTie) + (if f.1.length < r.k then flShort else 0) + (if r.nans = 0 && !r.nan then 0 else flNan) }

/-- The result of a rescored rider: the best of its candidates by their new scores (R154). -/
def rescoredResult (c : CorpusCfg) (r : Rider) (f : List Cand × Nat) (vs : List W32) : SelList :=
  let l := topkList r.k (scoreType c.distance) (vs.map (·.toNat)) (f.1.map (·.id)) (f.1.map (·.src))
  let nans := r.nans + l.nans
  { l with nans, flags := if nans = 0 && !r.nan then l.flags else l.flags ||| flNan }

section
variable {s : State} {p slot : Nat} {w : Wheel} {r : Rider} {c : CorpusCfg} {k : Corpus} (hw : s.wheel? p = some w)
  (hr : rider? w slot = some r) (hc : s.corpusCfg? w.corpus = some c)
include hw hr hc

section
variable (hk : s.corpus? w.corpus = some k) (hactive : s.poolActive p = true)
include hk hactive

section
variable {hnd : Nat} {q : Request} (hphase : r.phase = 0) (hlive : s.riderLive r = true) (hq : s.req? r.req = some q)
  (hinputs : (stageRun? q r.stage).map (·.inputs) = some [hnd])
include hphase hlive hq hinputs

/-- R141, R142: the keeper reads the rider's query; a whole record boards the rider, and anything else fails its request. -/
theorem doRiderPrepare_reads : s.doRiderPrepare p slot =
    if handlePoison hnd then s.failRequest r.req 5 (some r.stage)
    else match s.hopperGet r.req r.stage hnd with
      | .error s => s
      | .ok bs =>
        if !(queryOk c bs) then s.failRequest r.req 1 (some r.stage)
        else boardRider w p slot c (s.foldQuery c k (s.boarded r bs) (queryElems c bs)) := by
  simp only [doRiderPrepare, hw, hr, hc, hk, hactive, hphase, hlive, hq, Option.bind_some, hinputs]
  rfl

end

/-- The tiles hold nothing more for a rider that has left, and no evicted entry of it is on its way (R153). -/
def leftTiles (w : Wheel) (slot : Nat) : Prop := w.flying = [] ∧ (w.tiles.any fun x => x.2.evict.any (·.1 == slot)) = false

section
variable (hphase : r.phase = 3) (hleft : leftTiles w slot)
include hphase hleft

/-- A rider whose request ended leaves without a result. -/
theorem doRiderFinalMerge_ended (hended : s.riderLive r = false) : s.doRiderFinalMerge p slot = s.freeSlot w slot r := by
  obtain ⟨hflying, hevict⟩ := hleft
  simp [doRiderFinalMerge, hw, hr, hc, hk, hactive, hphase, hflying, hevict, hended]

section
variable (hlive : s.riderLive r = true)
include hlive

/-- R153 to R155: a rider that has left everywhere gives its result, its candidates rescored when it asks for that, and frees its slot. -/
theorem doRiderFinalMerge_live : s.doRiderFinalMerge p slot =
    if r.rescore = 0 then (s.handResult c r (unrescoredResult c r (riderCandidates w slot r))).freeSlot w slot r
    else match s.rescoreAll c k r (riderCandidates w slot r).1 with
      | (.error e, u) => (u.hopperFault r.req r.stage e.1 e.2).freeSlot w slot r
      | (.ok vs, u) => (u.handResult c r (rescoredResult c r (riderCandidates w slot r) vs)).freeSlot w slot r := by
  obtain ⟨hflying, hevict⟩ := hleft
  simp only [doRiderFinalMerge, hw, hr, hc, hk, hactive, hphase, hflying, hevict, hlive, bne_self_eq_false, List.isEmpty_nil,
    Bool.not_true, Bool.or_self, Bool.false_eq_true, if_false]
  rfl

end
end
end

/-- R146: a rider whose request ended before it left is dropped: its keeper discards its list and tells the tiles. -/
theorem doRiderDrop_ended (hactive : s.poolActive p = true) (hphase : r.phase < 3) (hended : s.riderLive r = false) :
    s.doRiderDrop p slot = (s.setWheel (onTile (onRider w slot fun r => { r with phase := 4, keeper := [] }) (s.keeperOf c p slot)
      fun x => { x with landed := x.landed.filter (· != slot) })).multicast (s.keeperOf c p slot) p r [] (.drop slot) := by
  have hgoes : (decide (3 ≤ r.phase) || s.riderLive r || !(s.poolActive p)) = false := by simp [hphase, hended, hactive]
  simp only [doRiderDrop, hw, hr, hc, hgoes, Bool.false_eq_true, if_false]

end

-- Candidates at the keeper (R151, R152)

theorem keeperTake_keeper (r : Rider) (e : Cand) : (keeperTake r e).keeper = (insertBy candLe e r.keeper).take (kList r) := rfl

/-- R151: θ never falls. -/
theorem le_keeperTake_theta (r : Rider) (e : Cand) : r.theta ≤ (keeperTake r e).theta := by
  dsimp only [keeperTake]
  split
  · exact le_max_left ..
  · exact le_rfl

/-- A rider's keeper has taken an evicted entry of a tile, which keeps the rest (R151). -/
def keepEvicted (t slot : Nat) (e : Cand) (rest : List (Nat × Cand)) (w : Wheel) (r : Rider) (c : CorpusCfg) (s : State) : State :=
  (s.setWheel (onRider (onTile w t fun x => { x with evict := rest }) slot fun _ => keeperTake r e)).layTile (s.keeperOf c w.pool slot)

/-- A θ that has risen goes to the tiles (R151). -/
def sendTheta (keeper p slot : Nat) (r y : Rider) (v : State) : State :=
  if r.theta < y.theta then v.multicast keeper p y (leBytes 4 y.theta) (.theta slot y.theta) else v

/-- R151, R152: a tile's oldest evicted entry reaches its rider's keeper, and the place that it leaves lets a paused tile work on. -/
theorem doEvictionArrival_keeps {s : State} {t slot : Nat} {e : Cand} {rest : List (Nat × Cand)} {w : Wheel} {x : WheelTile} {r : Rider}
    {c : CorpusCfg} (hw : s.wheels.find? (fun w => w.tiles.any (·.1 == t)) = some w) (hx : w.tiles.find? (·.1 == t) = some (t, x))
    (hevict : x.evict = (slot, e) :: rest) (hr : rider? w slot = some r) (hc : s.corpusCfg? w.corpus = some c) (hphase : r.phase = 2) :
    s.doEvictionArrival t
      = ((sendTheta (s.keeperOf c w.pool slot) w.pool slot r (keeperTake r e) (s.keepEvicted t slot e rest w r c)).resumeSlice t).layTile t := by
  have hr' : rider? (onTile w t fun x => { x with evict := rest }) slot = some r := hr
  simp only [doEvictionArrival, hw, hx, hevict, hc, hr', hphase, Option.map_some, Option.getD_some, decide_true, Bool.true_or, Bool.and_true,
    decide_eq_true_eq, if_true]
  rfl

end State

/-- Settles O54: each row's cases, by the lemmas about the operation behind it. -/
theorem ridersBoardKeepAndLeave : Obligations.RidersBoardKeepAndLeave := by
  intro s p slot w r c k hw hr hc hk hactive
  refine ⟨?board, ?leave, fun hphase hended => ?_, ?evict⟩
  case board =>
    intro hphase hlive hnd q hq hinputs
    have hreads := State.doRiderPrepare_reads hw hr hc hk hactive hphase hlive hq hinputs
    refine ⟨fun hpoison => ?_, fun u hsound hfails => ?_, fun bs hsound hread => ⟨fun hbad => ?_, fun hgood => ?_⟩⟩
    · rw [exec_riderPrepare, hreads, if_pos hpoison]
    all_goals
      rw [exec_riderPrepare, hreads, if_neg (Bool.eq_false_iff.1 hsound)]
    · rw [hfails]
    · simp only [hread, hbad, Bool.not_false, if_true]
    · simp only [hread, hgood, Bool.not_true, Bool.false_eq_true, if_false]
      rw [State.boardRider, State.foldl_sendPart]
      rfl
  case leave =>
    intro hphase hflying hevict
    have hleft : State.leftTiles w slot := ⟨hflying, hevict⟩
    refine ⟨fun hended => ?_, ?_⟩
    · rw [exec_riderFinalMerge, State.doRiderFinalMerge_ended hw hr hc hk hactive hphase hleft hended]
    intro hlive f ty
    have hlives := State.doRiderFinalMerge_live hw hr hc hk hactive hphase hleft hlive
    have hafter : ∀ z, s.doRiderFinalMerge p slot = z → exec (.riderFinalMerge p slot) s = .next (s.after z) := fun z hz => by
      rw [exec_riderFinalMerge, hz]
    refine ⟨fun hplain => hafter _ (hlives.trans (if_pos hplain)), fun hrescore => ?_⟩
    have hrescores := hlives.trans (if_neg hrescore)
    refine ⟨fun e u hfault => ?_, fun vs u hscored => ?_⟩
    · have hfault : s.rescoreAll c k r (State.riderCandidates w slot r).1 = (.error e, u) := hfault
      exact hafter _ (by rw [hrescores, hfault])
    · have hscored : s.rescoreAll c k r (State.riderCandidates w slot r).1 = (.ok vs, u) := hscored
      exact hafter _ (by rw [hrescores, hscored]; rfl)
  case evict =>
    intro t e rest x hat hx hevict hphase y v
    refine ⟨State.keeperTake_keeper r e, State.le_keeperTake_theta r e, ?_⟩
    rw [exec_evictionArrival, State.doEvictionArrival_keeps hat hx hevict hr hc hphase]
    rfl
  · rw [exec_riderDrop, State.doRiderDrop_ended hw hr hc hactive hphase hended]

end Sys2Proof.Machine
end

section
/-! PROOFS. Background tasks (R162, R197, R300, R302, R394, R447, R449, R453, R454, R477): merges, slab copies, zeroising, scrubs, samples and
deferrals, by case of the operation behind each row. -/

namespace Sys2Proof.Machine

theorem exec_bgCorpusMerge (id : Nat) (s : State) : exec (.bgCorpusMerge id) s = .next (s.after (s.doBgCorpusMerge id)) := rfl
theorem exec_bgSlabCopy (id v n : Nat) (s : State) : exec (.bgSlabCopy id v n) s = .next (s.after (s.doBgSlabCopy id v n)) := rfl
theorem exec_bgZeroise (s : State) : exec .bgZeroise s = .next (s.after s.doBgZeroise) := rfl
theorem exec_bgHbmScrub (line : Nat) (o : EccOutcome) (s : State) :
    exec (.bgHbmScrub line o) s = .next (s.after (s.doBgHbmScrub line o)) := rfl
theorem exec_bgTmScrub (t word : Nat) (o : EccOutcome) (s : State) :
    exec (.bgTmScrub t word o) s = .next (s.after (s.doBgTmScrub t word o)) := rfl
theorem exec_bgTelemetry (x : Sample) (s : State) : exec (.bgTelemetry x) s = .next (s.after (s.doBgTelemetry x)) := rfl
theorem exec_bgSensorCal (n : Nat) (s : State) : exec (.bgSensorCal n) s = .next (s.after (s.doBgSensorCal n)) := rfl
theorem exec_bgDeferralExpiry (task slots : Nat) (s : State) :
    exec (.bgDeferralExpiry task slots) s = .next (s.after (s.doBgDeferralExpiry task slots)) := rfl

namespace State

-- Merges (R162, R412)

section
variable {id : Nat} {s : State} {k : Corpus} {c : CorpusCfg} {g : MergeRun} (hk : s.corpus? id = some k) (hc : s.corpusCfg? id = some c)
  (hmerge : k.merge = some g)
include hk hc hmerge

/-- R412: a merge waits while WHEEL is stopped or no pool carries it. -/
theorem doBgCorpusMerge_waits (hwaits : s.works fnWheel = false ∨ s.cfg.pools.any (·.has 0) = false) : s.doBgCorpusMerge id = s := by
  have hstop : (!(s.works fnWheel) || !(s.cfg.pools.any (·.has 0))) = true := by simpa only [Bool.or_eq_true, Bool.not_eq_true'] using hwaits
  simp only [doBgCorpusMerge, hk, hc, hmerge, hstop, if_true]

section
variable (hworks : s.works fnWheel = true) (hpool : s.cfg.pools.any (·.has 0) = true)
include hworks hpool

theorem doBgCorpusMerge_continues (hmore : g.next + 1 < g.last) : s.doBgCorpusMerge id = s.mergeSegment c k g := by
  simp only [doBgCorpusMerge, hk, hc, hmerge, hworks, hpool, Bool.not_true, Bool.or_self, Bool.false_eq_true, if_false,
    Nat.lt_of_succ_lt hmore, hmore, if_true]

/-- R162: the last segment completes the merge. -/
theorem doBgCorpusMerge_last {k' : Corpus} (hlast : g.next + 1 = g.last) (hk' : (s.mergeSegment c k g).corpus? id = some k') :
    s.doBgCorpusMerge id = (s.mergeSegment c k g).finishMerge c k' { g with next := g.next + 1 } := by
  simp only [doBgCorpusMerge, hk, hc, hmerge, hworks, hpool, Bool.not_true, Bool.or_self, Bool.false_eq_true, if_false,
    Nat.lt_of_succ_le hlast.le, hlast.not_lt, if_true, hk']

theorem doBgCorpusMerge_over (hover : g.last ≤ g.next) : s.doBgCorpusMerge id = s.finishMerge c k g := by
  simp only [doBgCorpusMerge, hk, hc, hmerge, hworks, hpool, Bool.not_true, Bool.or_self, Bool.false_eq_true, if_false, hover.not_gt]

end
end

-- Slab copies (R197)

/-- A write that waited behind the one that opened its version, which is gone, is applied to what is left (R197). -/
def applyWaiting (s : State) (w : Write) : State :=
  match (s.applyTableWrite w).2 with
  | some o => (s.applyTableWrite w).1.answerWrite o.2.2 o.1 o.2.1 true
  | none => (s.applyTableWrite w).1

/-- Whether a write that waited has ended or waits on. -/
theorem applyWaiting_eq (s : State) (w : Write) : s.applyWaiting w = match s.applyTableWrite w with
    | (v, some o) => v.answerWrite o.2.2 o.1 o.2.1 true
    | (v, none) => v := by
  unfold applyWaiting
  obtain ⟨v, o | _⟩ := s.applyTableWrite w <;> rfl

/-- Without memory for a copy the write that waits first is refused, and the version that it opened is gone with it (R197). -/
def refuseCopy (x : TableVer) (w : Write) (rest : List Write) (s : State) : State :=
  match x.opened with
  | none => (s.setTable { x with waiting := rest }).answerWrite w refNoMemory [] true
  | some last => rest.foldl applyWaiting ((s.unopen x last).answerWrite w refNoMemory [] true)

theorem refuseCopy_stays {x : TableVer} (hopened : x.opened = none) (w : Write) (rest : List Write) (s : State) :
    s.refuseCopy x w rest = (s.setTable { x with waiting := rest }).answerWrite w refNoMemory [] true := by
  simp only [refuseCopy, hopened]

theorem refuseCopy_unopens {x : TableVer} {last : Nat} (hopened : x.opened = some last) (w : Write) (rest : List Write) (s : State) :
    s.refuseCopy x w rest = rest.foldl applyWaiting ((s.unopen x last).answerWrite w refNoMemory [] true) := by
  simp only [refuseCopy, hopened]

section
variable {id v n : Nat} {s : State} {x : TableVer} {t : TableCfg} {w : Write} {rest : List Write} {slab : Nat × Nat × Nat}
  (hx : s.table? id v = some x) (ht : s.tableCfg? id = some t) (hwaiting : x.waiting = w :: rest)
  (hslab : x.slabs.find? (·.1 == n) = some slab) (hshared : s.sharedSlab x n = true)
include hx ht hwaiting hslab hshared

/-- R197, R448: the slab is copied without the rows of listed lines, if there is memory for it. -/
theorem doBgSlabCopy_eq : s.doBgSlabCopy id v n = match s.newSlab { x with written := s.soundRows t.stride x x.written } n slab.2.2 with
    | some r => r.2.drainTable id v (x.waiting.length + 1)
    | none => s.refuseCopy x w rest := by
  -- the version's record is spelt out, so that its waiting writes are rewritten in every field at once
  obtain ⟨⟩ := x
  subst hwaiting
  simp only [doBgSlabCopy, hx, ht, hslab, hshared, Bool.not_true, Bool.false_eq_true, if_false]
  rfl

/-- R197: the writes that waited for a copy go on. -/
theorem doBgSlabCopy_copied {y : TableVer} {u : State}
    (hnew : s.newSlab { x with written := s.soundRows t.stride x x.written } n slab.2.2 = some (y, u)) :
    s.doBgSlabCopy id v n = u.drainTable id v (x.waiting.length + 1) := by
  rw [doBgSlabCopy_eq hx ht hwaiting hslab hshared, hnew]

theorem doBgSlabCopy_noMemory (hnone : s.newSlab { x with written := s.soundRows t.stride x x.written } n slab.2.2 = none) :
    s.doBgSlabCopy id v n = s.refuseCopy x w rest := by
  rw [doBgSlabCopy_eq hx ht hwaiting hslab hshared, hnone]

end

-- Zeroising (R394)

/-- R394: one range is zero again; the removals that waited for nothing else are answered. -/
theorem doBgZeroise_clears {s : State} {a n : Nat} {rest : List (Nat × Nat)} (hzeroing : s.zeroing = (a, n) :: rest) :
    let left := s.removals.map fun x => (x.1, x.2.filter (· != (a, n)))
    s.doBgZeroise = (left.filter (·.2.isEmpty)).foldl (fun u x => u.answerWrite x.1 {} [] true)
      { s with zeroing := rest, mem := Memory.clear s.mem a n, removals := left.filter (!·.2.isEmpty) } := by
  simp only [doBgZeroise, hzeroing]

-- The HBM scrub (R300, R447, R454)

/-- The scrub goes on to its next line. -/
def passLine (s : State) : State := { s with tele := { s.tele with scrubNext := nextScrub s.tele.scrubNext } }

/-- The event of a line that the scrub corrects. -/
def scrubEvent (line : Nat) : Event := { cause := 0x08, unit := 1, unitIndex := stackOf (line * 64), addr := line * 64 }

section
variable {s : State} (hservice : s.boot.service = 1) (hon : s.boot.offPrep = false)
include hservice hon

theorem doBgHbmScrub_clean : s.doBgHbmScrub s.tele.scrubNext .clean = s.passLine := by
  simp only [doBgHbmScrub, hservice, hon, bne_self_eq_false, Bool.or_self, Bool.false_eq_true, if_false]
  rfl

section
variable (hline : s.tele.scrubNext ∉ s.errors.badLines)
include hline

theorem doBgHbmScrub_corrected :
    s.doBgHbmScrub s.tele.scrubNext .corrected = s.passLine.correctedEvent (scrubEvent s.tele.scrubNext) 0 := by
  have hnew : s.errors.badLines.contains s.tele.scrubNext = false := by simpa using hline
  simp only [doBgHbmScrub, hservice, hon, hnew, bne_self_eq_false, Bool.or_self, Bool.false_eq_true, if_false]
  rfl

/-- R447: an uncorrectable line enters the bad-line table. -/
theorem doBgHbmScrub_failed : s.doBgHbmScrub s.tele.scrubNext .failed =
    (s.passLine.containedEvent { scrubEvent s.tele.scrubNext with cause := 0x0A } 0).listLine s.tele.scrubNext := by
  have hnew : s.errors.badLines.contains s.tele.scrubNext = false := by simpa using hline
  simp only [doBgHbmScrub, hservice, hon, hnew, bne_self_eq_false, Bool.or_self, Bool.false_eq_true, if_false]
  rfl

end
end

-- The tile-memory scrub (R302, R449, R454)

/-- The function that a pool's tiles belong to. -/
def scrubFn (s : State) (p : Nat) : Nat := if ((s.poolCfg? p).map fun c => c.has 0).getD false then fnWheel else fnPools

/-- The event of a word of a tile's memory that the scrub corrects. -/
def wordEvent (t word : Nat) : Event := { cause := 0x01, unit := 0, unitIndex := t, addr := tileWindow t + 8 * word }

/-- A word of a tile has failed once since reset. -/
def noteWord (t word : Nat) (s : State) : State := { s with errors := { s.errors with tileWords := (t, word) :: s.errors.tileWords } }

/-- A word that a work item owns is left to it. -/
def leaveWord (t word : Nat) (s : State) : State := { s with errors := { s.errors with badWords := (t, word) :: s.errors.badWords } }

/-- The note of a failed word and the list of those left to their owners are written at once. -/
theorem noteWord_owned (t word a : Nat) (u : State) :
    (let owned := u.ownsWord t a
     let z : State := { u with errors := { u.errors with
      tileWords := (t, word) :: u.errors.tileWords, badWords := if owned then (t, word) :: u.errors.badWords else u.errors.badWords } }
     if owned then z else z.clearMem a 8)
      = if u.ownsWord t a then (u.noteWord t word).leaveWord t word else (u.noteWord t word).clearMem a 8 := by
  cases u.ownsWord t a <;> rfl

section
variable {t p : Nat} {s : State} (word : Nat) (hpool : s.poolOf t = some p) (hactive : s.poolActive p = true)
include hpool hactive

theorem doBgTmScrub_clean : s.doBgTmScrub t word .clean = s.chargeFree (tileCtr t 0) := by
  simp only [doBgTmScrub, hpool, hactive, Bool.not_true, Bool.false_eq_true, if_false]

theorem doBgTmScrub_corrected : s.doBgTmScrub t word .corrected =
    ((s.chargeFree (tileCtr t 0)).count (tileCtr t 0x78) 1).correctedEvent (wordEvent t word) (s.scrubFn p) := by
  simp only [doBgTmScrub, hpool, hactive, Bool.not_true, Bool.false_eq_true, if_false]
  rfl

/-- R68, R302, R449: a word that cannot be corrected fails the device the second time; else it is treated as what it holds wants. -/
theorem doBgTmScrub_failed :
    let u := (s.chargeFree (tileCtr t 0)).containedEvent { wordEvent t word with cause := 0x02 } (s.scrubFn p)
    s.doBgTmScrub t word .failed =
      if u.errors.tileWords.contains (t, word) then u.deviceEvent { wordEvent t word with cause := 0x03 }
      else if u.inCacheBanks t word then (u.noteWord t word).badCacheWord t word
      else if u.inContext t word then (u.noteWord t word).chargeFree (poolCtr p 0x18)
      else if u.ownsWord t (tileWindow t + 8 * word) then (u.noteWord t word).leaveWord t word
      else (u.noteWord t word).clearMem (tileWindow t + 8 * word) 8 := by
  intro u
  rw [← noteWord_owned]
  simp only [doBgTmScrub, hpool, hactive, Bool.not_true, Bool.false_eq_true, if_false]
  rfl

end

-- Samples and deferrals (R453, R454, R477)

section
variable {s : State} (hawake : s.awake = true)
include hawake

theorem doBgTelemetry_awake (x : Sample) : s.doBgTelemetry x = { s with tele := { s.tele with block := s.telemetryWords x } } :=
  if_pos hawake

theorem doBgSensorCal_awake {n : Nat} (hn : n < 64) : s.doBgSensorCal n = { s with tele := { s.tele with sensorOut := some n } } :=
  if_pos (by simp [hawake, hn])

theorem doBgDeferralExpiry_awake {task : Nat} (htask : task < 9) (slots : Nat) :
    s.doBgDeferralExpiry task slots = (s.count (bgLate task) 1).count (bgSlots task) slots :=
  if_pos (by simp [hawake, htask])

end

end State

/-- Settles O56: each row's cases, by the lemmas about the operation behind it. -/
theorem backgroundTasksRun : Obligations.BackgroundTasksRun := by
  refine ⟨?merge, ?copy, ?zeroise, ?lines, ?words, ?samples⟩
  case merge =>
    intro id s k c g hk hc hmerge
    refine ⟨fun hwaits => ?_, fun hworks hpool => ?_⟩
    · rw [exec_bgCorpusMerge, State.doBgCorpusMerge_waits hk hc hmerge hwaits]
    intro u
    refine ⟨fun hmore => ?_, fun hlast k' hk' => ?_, fun hover => ?_⟩
    · rw [exec_bgCorpusMerge, State.doBgCorpusMerge_continues hk hc hmerge hworks hpool hmore]
    · rw [exec_bgCorpusMerge, State.doBgCorpusMerge_last hk hc hmerge hworks hpool hlast hk']
    · rw [exec_bgCorpusMerge, State.doBgCorpusMerge_over hk hc hmerge hworks hpool hover]
  case copy =>
    intro id v n s u x y t w rest slab hx ht hwaiting hslab hshared
    refine ⟨fun hnew => ?_, fun hnone => ⟨fun hopened => ?_, fun last hopened => ?_⟩⟩
    · rw [exec_bgSlabCopy, State.doBgSlabCopy_copied hx ht hwaiting hslab hshared hnew]
    all_goals
      rw [exec_bgSlabCopy, State.doBgSlabCopy_noMemory hx ht hwaiting hslab hshared hnone]
    · rw [State.refuseCopy_stays hopened]
    · rw [State.refuseCopy_unopens hopened]
      exact congrArg (fun f => Host.Outcome.next (s.after (rest.foldl f _))) (funext₂ State.applyWaiting_eq)
  case zeroise =>
    intro s a n rest hzeroing left u
    rw [exec_bgZeroise, State.doBgZeroise_clears hzeroing]
  case lines =>
    rintro s _ rfl hservice hon
    refine ⟨?_, fun hline => ?_, fun hline => ?_⟩
    · rw [exec_bgHbmScrub, State.doBgHbmScrub_clean hservice hon]
      rfl
    · rw [exec_bgHbmScrub, State.doBgHbmScrub_corrected hservice hon hline]
      rfl
    · rw [exec_bgHbmScrub, State.doBgHbmScrub_failed hservice hon hline]
      rfl
  case words =>
    intro t word p s hpool hactive fn e y
    refine ⟨?_, ?_, ?failed⟩
    · rw [exec_bgTmScrub, State.doBgTmScrub_clean word hpool hactive]
    · rw [exec_bgTmScrub, State.doBgTmScrub_corrected word hpool hactive]
      rfl
    case failed =>
      intro u v failed
      have hfailed : ∀ x, s.doBgTmScrub t word .failed = x → failed x := fun x hx => by
        show exec (.bgTmScrub t word .failed) s = _
        rw [exec_bgTmScrub, hx]
      have htreats := State.doBgTmScrub_failed word hpool hactive
      refine ⟨fun hagain => hfailed _ (htreats.trans (if_pos (List.contains_iff_mem.2 hagain))), fun hfirst hcache => ?_,
        fun hfirst hnocache hcontext => ?_, fun hfirst hnocache hnocontext => ⟨fun hfree => ?_, fun howned => ?_⟩⟩
      all_goals
        have hnoted := htreats.trans (if_neg (mt List.contains_iff_mem.1 hfirst))
      · exact hfailed _ (hnoted.trans (if_pos hcache))
      all_goals
        have hplain := hnoted.trans (if_neg (Bool.eq_false_iff.1 hnocache))
      · exact hfailed _ (hplain.trans (if_pos hcontext))
      all_goals
        have hword := hplain.trans (if_neg (Bool.eq_false_iff.1 hnocontext))
      · exact hfailed _ (hword.trans (if_neg (Bool.eq_false_iff.1 hfree)))
      · exact hfailed _ (hword.trans (if_pos howned))
  case samples =>
    intro s hawake
    refine ⟨fun x => ?_, fun n hn => ?_, fun task slots htask => ?_⟩
    · rw [exec_bgTelemetry, State.doBgTelemetry_awake hawake]
    · rw [exec_bgSensorCal, State.doBgSensorCal_awake hawake hn]
    · rw [exec_bgDeferralExpiry, State.doBgDeferralExpiry_awake hawake htask]

end Sys2Proof.Machine
end

section
/-! PROOFS. The selection unit (R168, R170, R172, R175): candidate order, its stable sort, and what a TOPK list keeps and leaves out. -/

namespace Sys2Proof.Machine

-- Sorting by insertion

section
variable {α : Type} (le : α → α → Bool)

theorem insertBy_perm (x : α) (l : List α) : (insertBy le x l).Perm (x :: l) := by
  induction l with
  | nil => exact .refl _
  | cons y l ih =>
    unfold insertBy
    split
    · exact (ih.cons y).trans (.swap x y l)
    · exact .refl _

theorem sortBy_perm (l : List α) : (sortBy le l).Perm l := by
  have hfold : ∀ (l acc : List α), (l.foldl (fun acc x => insertBy le x acc) acc).Perm (acc ++ l) := by
    intro l
    induction l with
    | nil => intro acc; rw [List.foldl_nil, List.append_nil]
    | cons x l ih => exact fun acc => (ih _).trans (((insertBy_perm le x acc).append_right l).trans List.perm_middle.symm)
  exact hfold l []

variable {le} (htotal : ∀ a b, le a b = true ∨ le b a = true) (htrans : ∀ a b c, le a b = true → le b c = true → le a c = true)
include htotal htrans

theorem insertBy_pairwise (x : α) {l : List α} (hl : l.Pairwise fun a b => le a b = true) :
    (insertBy le x l).Pairwise fun a b => le a b = true := by
  induction l with
  | nil => exact List.pairwise_singleton _ x
  | cons y l ih =>
    obtain ⟨hy, hrest⟩ := List.pairwise_cons.1 hl
    unfold insertBy
    split
    case isTrue hyx =>
      refine List.pairwise_cons.2 ⟨fun z hz => ?_, ih hrest⟩
      rcases List.mem_cons.1 ((insertBy_perm le x l).mem_iff.1 hz) with rfl | hz
      · exact hyx
      · exact hy z hz
    case isFalse hyx =>
      have hxy : le x y = true := (htotal x y).resolve_right hyx
      refine List.pairwise_cons.2 ⟨fun z hz => ?_, hl⟩
      rcases List.mem_cons.1 hz with rfl | hz
      · exact hxy
      · exact htrans x y z hxy (hy z hz)

theorem sortBy_pairwise (l : List α) : (sortBy le l).Pairwise fun a b => le a b = true :=
  List.foldlRecOn l _ List.Pairwise.nil fun _ hacc x _ => insertBy_pairwise htotal htrans x hacc

end

-- Candidate order (R170)

theorem candLe_iff (a b : Cand) : candLe a b = true ↔ b.key < a.key ∨ (a.key = b.key ∧ a.id ≤ b.id) := by
  simp [candLe]

theorem candLe_total (a b : Cand) : candLe a b = true ∨ candLe b a = true := by
  simp only [candLe_iff]
  omega

theorem candLe_trans (a b c : Cand) (hab : candLe a b = true) (hbc : candLe b c = true) : candLe a c = true := by
  simp only [candLe_iff] at *
  omega

theorem candSort_perm (cs : List Cand) : (candSort cs).Perm cs := sortBy_perm candLe cs
theorem candSort_pairwise (cs : List Cand) : (candSort cs).Pairwise fun a b => candLe a b = true :=
  sortBy_pairwise candLe_total candLe_trans cs

-- Lists

/-- R168: a score is a candidate or a NaN. -/
theorem candidates_count (ty : Nat) (raw ids srcs : List Nat) :
    (candidates ty raw ids srcs).2 + (candidates ty raw ids srcs).1.length = raw.length := by
  have hsplit : ∀ cs : List (Option Cand), (cs.filter Option.isNone).length + (cs.filterMap id).length = cs.length := by
    intro cs
    rw [List.length_eq_length_filter_add Option.isNone (l := cs), List.length_filterMap_eq_countP, List.countP_eq_length_filter]
    simp only [id, Option.not_isNone]
  simp only [candidates, hsplit, List.length_map, List.length_zipIdx]

/-- The three flags of a TOPK list are bits of their own (R372). -/
theorem bitAt_flagSum : ∀ noTie short noNan : Bool,
    let flags := (if noTie then 0 else flTie) + (if short then flShort else 0) + (if noNan then 0 else flNan)
    bitAt flags 2 = !noTie ∧ bitAt flags 3 = short := by decide

theorem bitAt_topkFlags (k ty : Nat) (raw ids srcs : List Nat) :
    let l := topkList k ty raw ids srcs
    (bitAt l.flags 2 = true ↔ l.tieLeft ≠ 0) ∧ (bitAt l.flags 3 = true ↔ (candidates ty raw ids srcs).1.length < k) := by
  intro l
  obtain ⟨htie, hshort⟩ := bitAt_flagSum (l.tieLeft = 0) ((candidates ty raw ids srcs).1.length < k) (l.nans = 0)
  simp only [decide_eq_true_eq] at htie hshort
  have hflags : l.flags = (if l.tieLeft = 0 then 0 else flTie) + (if (candidates ty raw ids srcs).1.length < k then flShort else 0)
    + (if l.nans = 0 then 0 else flNan) := rfl
  rw [hflags, htie, hshort]
  simp

/-- R175: a TOPK list is the first part of the sorted candidates. -/
theorem topkList_cands (k ty : Nat) (raw ids srcs : List Nat) :
    (topkList k ty raw ids srcs).cands = (candSort (candidates ty raw ids srcs).1).take k := rfl

/-- R172: the ties left out have the last key of the list. -/
theorem topkList_tieLeft (k ty : Nat) (raw ids srcs : List Nat) : (topkList k ty raw ids srcs).tieLeft
    = (((candSort (candidates ty raw ids srcs).1).drop k).filter (·.key == (topkList k ty raw ids srcs).lastKey)).length := rfl

theorem topkList_nans (k ty : Nat) (raw ids srcs : List Nat) : (topkList k ty raw ids srcs).nans = (candidates ty raw ids srcs).2 := rfl

/-- Settles O43: the list is the first `k` of the sorted candidates, and what it leaves out is the rest. -/
theorem topkKeepsTheBest : Obligations.TopkKeepsTheBest := by
  intro k ty raw ids srcs _ all l
  have hperm : (candSort all).Perm all := candSort_perm all
  have hparts : l.cands ++ (candSort all).drop k = candSort all := List.take_append_drop k (candSort all)
  obtain ⟨hkept, -, hcross⟩ := List.pairwise_append.1 (hparts ▸ candSort_pairwise all)
  obtain ⟨htie, hshort⟩ := bitAt_topkFlags k ty raw ids srcs
  refine ⟨?_, hkept, (candSort all).drop k, (List.Perm.of_eq hparts).trans hperm, hcross, topkList_tieLeft k ty raw ids srcs, htie, hshort, ?_⟩
  · rw [topkList_cands, List.length_take, hperm.length_eq]
  · rw [topkList_nans, candidates_count]

end Sys2Proof.Machine
end

section
/-! PROOFS. The Bolter's work items (R175 to R180, R286): what a ready one ends with. -/

namespace Sys2Proof.Machine

theorem exec_topk (t : Nat) (s : State) : exec (.topk t) s = .next (s.after (s.doTopk t)) := rfl
theorem exec_kth (t : Nat) (s : State) : exec (.kth t) s = .next (s.after (s.doKth t)) := rfl
theorem exec_argmax (t : Nat) (s : State) : exec (.argmax t) s = .next (s.after (s.doArgmax t)) := rfl
theorem exec_sort (t : Nat) (s : State) : exec (.sort t) s = .next (s.after (s.doSort t)) := rfl
theorem exec_hist (t : Nat) (s : State) : exec (.hist t) s = .next (s.after (s.doHist t)) := rfl
theorem exec_merge (t : Nat) (s : State) : exec (.merge t) s = .next (s.after (s.doMerge t)) := rfl
theorem exec_sample (t : Nat) (s : State) : exec (.sample t) s = .next (s.after (s.doSample t)) := rfl

/-- The scores of the lists that a stream delivers. -/
def scoreLists (ty d : Nat) (b : Bytes) : List (List Nat) := (listsOf d b).map fun b => (chunks (scoreBytes ty) b).map leNat

-- The operations that can fault

/-- R175: ids or source words that do not suffice are a fault. -/
theorem topkOp_badSides {w d : Nat} {scores ids srcs : Bytes}
    (hsides : sidesOk w ((scoreLists (wImm w 1) d scores).map List.length).sum ids srcs = false) : topkOp w d scores ids srcs = .error 1 :=
  if_neg (Bool.eq_false_iff.1 hsides)

/-- A SORT's streams do not hold its records (R178). -/
def SortShort (w : Nat) (keys vals : Bytes) : Prop := keys.length < 4 * wImm w 0 ∨ (wUses w 1 = true ∧ vals.length < 8 * wImm w 0)

theorem sortOp_short {w : Nat} {keys vals : Bytes} (hshort : SortShort w keys vals) : sortOp w keys vals = .error 1 :=
  if_pos (by simpa [SortShort] using hshort)

theorem sortOp_sorts {w : Nat} {keys vals : Bytes} (hlong : ¬SortShort w keys vals) : sortOp w keys vals =
    .ok { writes := [(8, sortRecords ((((chunks 4 keys).take (wImm w 0)).map leNat).zip
      (if wUses w 1 then ((chunks 8 vals).take (wImm w 0)).map leNat else List.range (wImm w 0))))] } :=
  if_neg (by simpa [SortShort] using hlong)

/-- R180: a MERGE takes at most 131,072 entries. -/
theorem mergeOp_tooMany {w : Nat} {ins : List Bytes} (hmany : 131072 < (ins.map fun b => fld (leNat (b.take 32)) 159 128).sum) :
    mergeOp w ins = .error 1 := if_pos hmany

theorem mergeOp_merges {w : Nat} {ins : List Bytes} (hfew : (ins.map fun b => fld (leNat (b.take 32)) 159 128).sum ≤ 131072) :
    let l := mergeLists (wImm w 0) (wImm w 1) (ins.map fun b => { listRead b with cands := (listRead b).cands.take 65536 })
    mergeOp w ins = .ok { writes := [(8, listBytes l)], flags := listBits l.flags, aux := l.tieLeft } := if_neg (Nat.not_lt.2 hfew)

namespace State

variable {t : Nat} {s u : State} {x : Running} {bs : List (Nat × Bytes)}

@[simp] theorem finishOr_ok (t : Nat) (x : Running) (o : OpOut) (s : State) : s.finishOr t x (.ok o) = s.finishItem t x o := rfl
@[simp] theorem finishOr_error (t : Nat) (x : Running) (f : Nat) (s : State) : s.finishOr t x (.error f) = s.faultItem t x f := rfl

/-- R175: a TOPK of no selection group ends with its lists or its fault. -/
theorem doTopk_alone (h : s.Runs t 0x30 false x bs u) (halone : wImm x.item.wi 2 = 0) :
    s.doTopk t = u.finishOr t x (topkOp x.item.wi (slotDesc x 0) (readBytes bs 0) (readBytes bs 1) (readBytes bs 2)) :=
  (runOp_ready h _).trans (if_pos halone)

/-- R175: a TOPK of a selection group starts as one of its members. -/
theorem doTopk_member (h : s.Runs t 0x30 false x bs u) (hgroup : wImm x.item.wi 2 ≠ 0) :
    s.doTopk t = u.startMember t x (readBytes bs 0) (readBytes bs 1) (readBytes bs 2) :=
  (runOp_ready h _).trans (if_neg hgroup)

theorem doKth_ready (h : s.Runs t 0x31 false x bs u) : s.doKth t = u.finishItem t x
    (recordsOut ((scoreLists (wImm x.item.wi 1) (slotDesc x 0) (readBytes bs 0)).map (kthRecord (wImm x.item.wi 0) (wImm x.item.wi 1)))) := by
  rw [scoreLists, List.map_map]
  exact runOp_ready h _

theorem doArgmax_ready (h : s.Runs t 0x32 false x bs u) : s.doArgmax t = u.finishItem t x
    (recordsOut ((scoreLists (wImm x.item.wi 1) (slotDesc x 0) (readBytes bs 0)).map (argmaxRecord (wImm x.item.wi 1)))) := by
  rw [scoreLists, List.map_map]
  exact runOp_ready h _

theorem doSort_ready (h : s.Runs t 0x33 false x bs u) :
    s.doSort t = u.finishOr t x (sortOp x.item.wi (readBytes bs 0) (readBytes bs 1)) := runOp_ready h _

theorem doMerge_ready (h : s.Runs t 0x35 false x bs u) :
    s.doMerge t = u.finishOr t x (mergeOp x.item.wi (((List.range 4).filter (wUses x.item.wi)).map (readBytes bs))) := runOp_ready h _

/-- R286: a SAMPLE gives its own request the token and writes it. -/
def finishSample (t : Nat) (x : Running) (c : Cand) (s : State) : State :=
  (s.setReq x.item.req fun q => if q.order == x.item.reqOrder then { q with token := some c.id, tokenSeen := false } else q).finishItem
    t x { writes := [(8, leBytes 4 c.id)] }

theorem doSample_token (h : s.Runs t 0x36 false x bs u) {c : Cand} {v : State}
    (hdraw : u.sampleOf x.item.wi (listRead (readBytes bs 0)).cands = (some c, v)) : s.doSample t = v.finishSample t x c := by
  rw [doSample, runOp_ready h]
  simp only [hdraw]
  rfl

theorem doSample_none (h : s.Runs t 0x36 false x bs u) {v : State}
    (hdraw : u.sampleOf x.item.wi (listRead (readBytes bs 0)).cands = (none, v)) : s.doSample t = v.endItem t x 0 0 0 true [] [] := by
  rw [doSample, runOp_ready h]
  simp only [hdraw]

end State

/-- Settles O42: each row applies its operation to the delivered bytes; those that can fault, by the fault's condition. -/
theorem bolterItemsWriteRecords : Obligations.BolterItemsWriteRecords := by
  intro t s u x bs w d ty lists done
  refine ⟨?topk, ?kth, ?argmax, ?sort, ?hist, ?merge, ?sample⟩
  case topk =>
    intro h halone
    rw [exec_topk, State.doTopk_alone h halone]
    refine ⟨fun o ho => ?_, fun hsides => ?_⟩
    · rw [ho, State.finishOr_ok]
    · rw [topkOp_badSides hsides, State.finishOr_error]
  case kth => intro h; rw [exec_kth, State.doKth_ready h]; rfl
  case argmax => intro h; rw [exec_argmax, State.doArgmax_ready h]; rfl
  case sort =>
    intro h n short
    rw [exec_sort, State.doSort_ready h]
    refine ⟨fun hshort => ?_, fun hlong => ?_⟩
    · rw [sortOp_short hshort, State.finishOr_error]
    · rw [sortOp_sorts hlong, State.finishOr_ok]
  case hist => intro h; rw [exec_hist, State.doHist, State.runOp_ready h]
  case merge =>
    intro h ins l total
    rw [exec_merge, State.doMerge_ready h]
    refine ⟨fun hmany => ?_, fun hfew => ?_⟩
    · rw [mergeOp_tooMany hmany, State.finishOr_error]
    · rw [mergeOp_merges hfew, State.finishOr_ok]
  case sample =>
    intro h
    rw [exec_sample]
    rcases hdraw : u.sampleOf w (listRead (readBytes bs 0)).cands with ⟨_ | c, v⟩
    · rw [State.doSample_none h hdraw]
    · rw [State.doSample_token h hdraw]
      rfl

end Sys2Proof.Machine
end

section
/-! PROOFS. Selection groups (R187 to R189): how a member starts, what the root does with a round, and what a decision makes a member do. -/

namespace Sys2Proof.Machine

theorem exec_selectRoundCombine (p i : Nat) (s : State) :
    exec (.selectRoundCombine p i) s = .next (s.after (s.doSelectRoundCombine p i)) := rfl
theorem exec_selectDecisionArrival (t : Nat) (s : State) :
    exec (.selectDecisionArrival t) s = .next (s.after (s.doSelectDecisionArrival t)) := rfl

namespace State

-- The start of a member (R187)

/-- The scores of a member's stream, and its candidates with their number of NaNs. -/
def memberScores (x : Running) (scores : Bytes) : List Nat := (chunks (scoreBytes (wImm x.item.wi 1)) scores).map leNat
def memberStream (x : Running) (scores ids srcs : Bytes) : List Cand × Nat :=
  candidates (wImm x.item.wi 1) (memberScores x scores) ((chunks 8 ids).map leNat) ((chunks 8 srcs).map leNat)

/-- A member that keeps its candidates between the rounds. -/
def waitingMember (x : Running) (c : List Cand × Nat) : Running := { x with bytes := c.1.flatMap candEncode, store := [c.2], waits := 2 }

section
variable {t i : Nat} {s : State} {x : Running} {scores ids srcs : Bytes} (hat : s.selectAt x.item (fld (wImm x.item.wi 2) 31 16) = some i)
include hat

/-- R175: ids or source words that do not suffice are a fault of the member. -/
theorem startMember_badSides (hbad : sidesOk x.item.wi (memberScores x scores).length ids srcs = false) :
    s.startMember t x scores ids srcs = s.faultItem t x 1 := by
  unfold memberScores at hbad
  simp only [startMember, hat, hbad, Bool.not_false, if_true]

/-- R189: a member in its group keeps its candidates and counts the first round. -/
theorem startMember_counts (hgood : sidesOk x.item.wi (memberScores x scores).length ids srcs = true) :
    let y := waitingMember x (memberStream x scores ids srcs)
    s.startMember t x scores ids srcs = (s.setRunning t fun _ => y).memberCounts t x.item.pool i y := by
  unfold memberScores at hgood
  simp only [startMember, hat, hgood, Bool.not_true, Bool.false_eq_true, if_false]
  rfl

end

-- The root (R189)

section
variable {p i : Nat} {s : State} {g : SelectSlot} (hslot : (s.pool p).selects[i]? = some g)
  (hgroup : g.group < 65536) (hsize : 0 < g.size)
include hslot

theorem doSelectRoundCombine_incomplete (hmore : g.arrived.length ≠ g.size) : s.doSelectRoundCombine p i = s := by
  simp [doSelectRoundCombine, hslot, hmore]

include hgroup hsize

/-- R189: with every member's counts there, the root of a group of this device alone decides. -/
theorem doSelectRoundCombine_decides (hall : g.arrived.length = g.size) (halone : s.groupColl g = none) :
    let d := decide' g.k g.decision g.bins g.valid g.certain
    s.doSelectRoundCombine p i = s.releaseDecision p i d.1 d.2 := by
  simp [doSelectRoundCombine, hslot, hall, halone, Nat.not_le.2 hgroup, hsize.ne']

end

-- A decision at a member (R189)

/-- The decision has reached a member of a group. -/
def reachMember (t p i : Nat) (s : State) : State := s.setSelect p i fun g => { g with flying := g.flying.erase t }

/-- The entries of a group's members so far, with those that the final decision selects at one more. -/
def gatheredWith (g : SelectSlot) (x : Running) : List (Nat × List Cand) :=
  g.gathered ++ [(wImm x.item.wi 3, decided g.decision (memberCands x))]

/-- A group has gathered its members' entries. -/
def gather (p i : Nat) (mine : List (Nat × List Cand)) (s : State) : State := s.setSelect p i fun g => { g with gathered := mine }

/-- The list of a group of this device alone, from its members' entries. -/
def gatheredList (g : SelectSlot) (x : Running) : SelList :=
  groupList g.k (wImm x.item.wi 1) g.decision g.nans false
    ((sortBy (fun (a b : Nat × List Cand) => decide (a.1 ≤ b.1)) (gatheredWith g x)).flatMap Prod.snd)

/-- A TOPK that waits in its group takes the decision that is on its way to its tile. -/
theorem awaitsDecision {t : Nat} {x : Running} {g : SelectSlot} (hop : wOpcode x.item.wi = 0x30) (hwait : x.waits = 2) (hflying : t ∈ g.flying) :
    (wOpcode x.item.wi != opTopk || x.waits != 2 || !(g.flying.contains t)) = false := by
  simp [hop, opTopk, hwait, hflying]

section
variable {t i : Nat} {s : State} {x : Running} {g : SelectSlot} (hrun : (s.tile t).running = some x) (hop : wOpcode x.item.wi = 0x30)
  (hwait : x.waits = 2) (hat : s.selectAt x.item (fld (wImm x.item.wi 2) 31 16) = some i)
  (hslot : (s.pool x.item.pool).selects[i]? = some g) (hflying : t ∈ g.flying)
include hrun hop hwait hat hslot hflying

theorem doSelectDecisionArrival_round (hagain : g.decision.kind = 0) :
    s.doSelectDecisionArrival t = (s.reachMember t x.item.pool i).memberCounts t x.item.pool i x := by
  simp only [doSelectDecisionArrival, hrun, hat, hslot, awaitsDecision hop hwait hflying, hagain, Bool.false_eq_true, if_false, if_true]
  rfl

variable (hfinal : g.decision.kind ≠ 0)
include hfinal

theorem doSelectDecisionArrival_handsOver (hmore : (gatheredWith g x).length ≠ g.size) :
    s.doSelectDecisionArrival t = (s.reachMember t x.item.pool i).gather x.item.pool i (gatheredWith g x) := by
  have hwaits : ((gatheredWith g x).length != g.size) = true := bne_iff_ne.2 hmore
  unfold gatheredWith at hwaits
  simp only [doSelectDecisionArrival, hrun, hat, hslot, awaitsDecision hop hwait hflying, hfinal, hwaits, Bool.false_eq_true, if_false, if_true]
  rfl

/-- R188, R189: the last member's entries end a group of this device alone with its list. -/
theorem doSelectDecisionArrival_last (hall : (gatheredWith g x).length = g.size) (hnone : s.collectives = []) :
    s.doSelectDecisionArrival t
      = ((s.reachMember t x.item.pool i).gather x.item.pool i (gatheredWith g x)).finishGroup x.item.pool i (some (gatheredList g x)) := by
  have hcomplete : ((gatheredWith g x).length != g.size) = false := bne_eq_false_iff_eq.2 hall
  have hnone' : ∀ f f', ((s.setSelect x.item.pool i f).setSelect x.item.pool i f').collectives = [] := fun _ _ => hnone
  unfold gatheredWith at hcomplete
  simp only [doSelectDecisionArrival, hrun, hat, hslot, awaitsDecision hop hwait hflying, hfinal, hcomplete, hnone', List.find?_nil,
    Bool.false_eq_true, if_false]
  rfl

end

end State

/-- Settles O44: the three rows by the lemmas about the operation behind each. -/
theorem selectionGroupsDecide : Obligations.SelectionGroupsDecide := by
  refine ⟨?start, ?round, ?decision⟩
  case start =>
    intro t s u x bs i h hgroup hat raw c y
    refine ⟨fun hbad => ?_, fun hgood => ?_⟩
    · rw [exec_topk, State.doTopk_member h hgroup, State.startMember_badSides hat hbad]
    · rw [exec_topk, State.doTopk_member h hgroup, State.startMember_counts hat hgood]
      rfl
  case round =>
    intro p i s g hslot hgroup hsize
    refine ⟨fun hmore => ?_, fun hall halone => ?_⟩
    · rw [exec_selectRoundCombine, State.doSelectRoundCombine_incomplete hslot hmore]
    · rw [exec_selectRoundCombine, State.doSelectRoundCombine_decides hslot hgroup hsize hall halone]
  case decision =>
    intro t s x i g hrun hop hwait hat hslot hflying u mine
    refine ⟨fun hagain => ?_, fun hfinal hmore => ?_, fun hfinal hall hnone => ?_⟩
    · rw [exec_selectDecisionArrival, State.doSelectDecisionArrival_round hrun hop hwait hat hslot hflying hagain]
      rfl
    · rw [exec_selectDecisionArrival, State.doSelectDecisionArrival_handsOver hrun hop hwait hat hslot hflying hfinal hmore]
      rfl
    · rw [exec_selectDecisionArrival, State.doSelectDecisionArrival_last hrun hop hwait hat hslot hflying hfinal hall hnone]
      rfl

end Sys2Proof.Machine
end

section
/-! PROOFS. Collectives over devices (R184, R185, R189, R191, R369): what a merge and a selection do with the messages that reach them. -/

namespace Sys2Proof.Machine

theorem exec_mergeStart (m : Msg) (s : State) : exec (.mergeStart m) s = .next (s.after (s.doMergeStart m)) := rfl
theorem exec_mergeList (m : Msg) (s : State) : exec (.mergeList m) s = .next (s.after (s.doMergeList m)) := rfl
theorem exec_selBins (m : Msg) (s : State) : exec (.selBins m) s = .next (s.after (s.doSelBins m)) := rfl
theorem exec_selGather (m : Msg) (s : State) : exec (.selGather m) s = .next (s.after (s.doSelGather m)) := rfl
theorem exec_selDecision (m : Msg) (s : State) : exec (.selDecision m) s = .next (s.after (s.doSelDecision m)) := rfl

/-- The header and the body of a delivered COLL message (R369). -/
def collHead (d : Delivered) : CollHead := CollHead.decode d.frags.flatten
def collBody (d : Delivered) : Bytes := d.frags.flatten.drop 64

namespace State

variable {m : Msg} {s : State} {d : Delivered} {q : Session}

-- MERGE_START (R369)

/-- The devices of a merge by rank: its origin, then the others of its coverage. -/
def mergeMembers (h : CollHead) : List Nat := h.origin :: (maskBits h.coverage).filter (· != h.origin)

/-- A merge that this device has done its part in makes way for the next of its number. -/
def makeWay (old : Option Collective) (s : State) : State :=
  match old with
  | some c => s.dropColl c
  | none => s

/-- A MERGE_START goes on to the children of a rank (R184). -/
def forwardStart (rank : Nat) (d : Delivered) (s : State) : State :=
  let h := collHead d
  (rankKids (mergeMembers h).length rank).foldl (fun (s : State) kid =>
    match ((mergeMembers h)[kid]?).bind s.ownerSession with
    | some sid => s.sendColl sid { op := 5, level := rankLevel kid, rank, origin := h.origin, number := h.number, req := h.req
                                   budget := h.budget, coverage := h.coverage } (collBody d)
    | none => s) s

/-- A MERGE_START is taken and the way made for its merge. -/
def startMade (d : Delivered) (s : State) : State := (s.untake d).makeWay (s.coll? 0 (collHead d).number (collHead d).origin)

/-- This device's part of a started merge, done by the request of an entry and order. -/
def mergePart (rank : Nat) (d : Delivered) (req order : Nat) (s : State) : Collective :=
  { number := (collHead d).number, origin := (collHead d).origin, originReq := (collHead d).req, kind := 0
    members := mergeMembers (collHead d), rank, req, reqOrder := order, k := uAt (collBody d) 4 4
    limit := if (collHead d).budget = 0 then none else some (s.meshCount + countsOf (collHead d).budget) }

/-- Making way leaves the mesh clock, and so the budget's end, as it was. -/
theorem mergePart_startMade (rank : Nat) (d : Delivered) (req order : Nat) (s : State) :
    (s.startMade d).mergePart rank d req order = s.mergePart rank d req order := by
  have hclock : (s.startMade d).meshCount = s.meshCount := by
    unfold startMade makeWay
    split <;> rfl
  rw [mergePart, mergePart, hclock]

/-- A started merge joins the collectives. -/
def addColl (c : Collective) (s : State) : State := { s with collectives := s.collectives ++ [c] }

/-- R369: a started merge of another device is admitted or refused here once the children of this rank have it, unless this device's part in
one of its number is still to do. -/
theorem doMergeStart_joins (hj : s.Joins 5 m d q) : s.doMergeStart m =
    match (mergeMembers (collHead d)).findIdx? s.ownIndex with
    | none => s.untake d
    | some rank =>
      if rank = 0 || (s.coll? 0 (collHead d).number (collHead d).origin).any (·.upward.isNone) then s.untake d
      else match ((s.startMade d).forwardStart rank d).admitMerge (collHead d) (collBody d) with
        | some (x, w) => w.addColl ((s.startMade d).mergePart rank d x.1 x.2)
        | none => ((s.startMade d).forwardStart rank d).addColl ((s.startMade d).mergePart rank d 4096 0) := by
  rw [doMergeStart, onColl_passes hj]
  rfl

/-- A MERGE_START of a merge that this device takes no part in, or leads, or has an earlier one of still to do. -/
def StartsNothing (h : CollHead) (s : State) : Prop :=
  (mergeMembers h).findIdx? s.ownIndex = none ∨ (mergeMembers h).findIdx? s.ownIndex = some 0
    ∨ ∃ c, s.coll? 0 h.number h.origin = some c ∧ c.upward = none

theorem doMergeStart_nothing (hj : s.Joins 5 m d q) (hidle : s.StartsNothing (collHead d)) : s.doMergeStart m = s.untake d := by
  rw [doMergeStart_joins hj]
  rcases hidle with hnone | hzero | ⟨c, hc, hbusy⟩
  · rw [hnone]
  · simp only [hzero, decide_true, Bool.true_or, if_true]
  · split
    · rfl
    · exact if_pos (by simp [hc, hbusy])

section
variable {rank : Nat} (hbelow : rank ≠ 0) (hdone : ∀ c, s.coll? 0 (collHead d).number (collHead d).origin = some c → c.upward ≠ none)
include hbelow hdone

/-- A rank below the origin, with no earlier merge of its number still to do, takes the start up. -/
theorem startGoes : (decide (rank = 0) || (s.coll? 0 (collHead d).number (collHead d).origin).any (·.upward.isNone)) = false := by
  simp only [hbelow, decide_false, Bool.false_or]
  rcases hold : s.coll? 0 (collHead d).number (collHead d).origin with _ | c
  · rfl
  · exact Option.isNone_eq_false_iff.2 (Option.isSome_iff_ne_none.2 (hdone c hold))

variable (hj : s.Joins 5 m d q) (hrank : (mergeMembers (collHead d)).findIdx? s.ownIndex = some rank)
include hj hrank

/-- R369: a merge that is admitted is done by its new request. -/
theorem doMergeStart_admitted {x : Nat × Nat} {w : State}
    (hadmit : ((s.startMade d).forwardStart rank d).admitMerge (collHead d) (collBody d) = some (x, w)) :
    s.doMergeStart m = w.addColl (s.mergePart rank d x.1 x.2) := by
  simp only [doMergeStart_joins hj, hrank, startGoes hbelow hdone, Bool.false_eq_true, if_false, mergePart_startMade, hadmit]

/-- R369: a merge that is refused is kept without a request. -/
theorem doMergeStart_refused (hadmit : ((s.startMade d).forwardStart rank d).admitMerge (collHead d) (collBody d) = none) :
    s.doMergeStart m = ((s.startMade d).forwardStart rank d).addColl (s.mergePart rank d 4096 0) := by
  simp only [doMergeStart_joins hj, hrank, startGoes hbelow hdone, Bool.false_eq_true, if_false, mergePart_startMade, hadmit]

end

-- MERGE_LIST (R185)

/-- A list without coverage, or one that is not whole, says that its rank refused. -/
def listRefuses (d : Delivered) : Bool := (collHead d).coverage == 0 || !(listWhole (collBody d))

theorem listRefuses_iff (d : Delivered) : listRefuses d = true ↔ (collHead d).coverage = 0 ∨ listWhole (collBody d) = false := by
  simp [listRefuses]

/-- A merge with a rank's refusal, and with its list. -/
def refusedBy (d : Delivered) (c : Collective) : Collective := { c with arrived := c.arrived ++ [(collHead d).rank] }
def listedBy (d : Delivered) (c : Collective) : Collective :=
  { c with waiting := c.waiting ++ [((collHead d).rank, (collHead d).coverage, collBody d)] }

/-- A list goes on to rank 0 of its merge (R185). -/
def passList (d : Delivered) (c : Collective) (s : State) : State :=
  match (c.members[0]?).bind s.ownerSession with
  | some sid => s.sendColl sid (collHead d) (collBody d)
  | none => s

section
variable (hj : s.Joins 6 m d q)
include hj

theorem doMergeList_unknown (hnone : s.coll? 0 (collHead d).number (collHead d).origin = none) : s.doMergeList m = s.untake d := by
  have hnone' : (s.untake d).coll? 0 (CollHead.decode d.frags.flatten).number (CollHead.decode d.frags.flatten).origin = none := hnone
  rw [doMergeList, onColl_passes hj]
  simp only [hnone']

variable {c : Collective} (hc : s.coll? 0 (collHead d).number (collHead d).origin = some c)
include hc

/-- R185: what a merge does with a list, by this device's rank in it. -/
theorem doMergeList_known : s.doMergeList m =
    if c.rank = 0 then
      if listRefuses d then (s.untake d).setColl (refusedBy d c)
      else if (collHead d).coverage &&& c.covered ≠ 0 then s.untake d
      else (s.untake d).setColl { listedBy d c with covered := c.covered ||| (collHead d).coverage }
    else if listRefuses d || c.sent then ((s.untake d).setColl (refusedBy d c)).passList d c
    else (s.untake d).setColl (listedBy d c) := by
  have hc' : (s.untake d).coll? 0 (CollHead.decode d.frags.flatten).number (CollHead.decode d.frags.flatten).origin = some c := hc
  have hrefuses : ((CollHead.decode d.frags.flatten).coverage == 0 || !(listWhole (d.frags.flatten.drop 64))) = listRefuses d := rfl
  rw [doMergeList, onColl_passes hj]
  simp only [hc', hrefuses]
  cases listRefuses d
  case false => simp only [Bool.not_false, Bool.true_and, Bool.false_or, bne_iff_ne, Bool.false_eq_true, if_false]; rfl
  case true => simp only [Bool.not_true, Bool.false_and, Bool.true_or, Bool.false_eq_true, if_false, if_true]; rfl

end

-- SEL_BINS and SEL_GATHER (R189, R191)

theorem mem_setColl {c c' : Collective} {s : State} (hc : c ∈ s.collectives) (hkind : c'.kind = c.kind) (hnumber : c'.number = c.number)
    (horigin : c'.origin = c.origin) : c' ∈ (s.setColl c').collectives :=
  List.mem_map.2 ⟨c, hc, if_pos (by simp [hkind, hnumber, horigin])⟩

/-- The selection of a number, or a blank one for messages that come before it. -/
def selection (n : Nat) (s : State) : Collective :=
  (s.collectives.find? fun x => x.kind == 1 && x.number == n).getD
    { number := n, origin := 0, originReq := 0, kind := 1, members := [], rank := 0, req := 4096, reqOrder := 0, k := 0 }

theorem selection_key (n : Nat) (s : State) : (s.selection n).kind = 1 ∧ (s.selection n).number = n := by
  rcases hfind : s.collectives.find? fun x => x.kind == 1 && x.number == n with _ | c
  · simp [selection, hfind]
  · have hkey := List.find?_some hfind
    simpa [selection, hfind] using hkey

/-- A selection with a message kept by its sender and round, in place of an earlier one. -/
def keeping (dev round : Nat) (body : Bytes) (c : Collective) : Collective :=
  { c with waiting := c.waiting.filter (fun x => !(x.1 == dev && x.2.1 == round)) ++ [(dev, round, body)] }

/-- The device that sent a selection's message: the member at the other end of the session, where it has one. -/
def selSender (q : Session) (c : Collective) (s : State) : Nat :=
  match s.rankOf c q with
  | some r => c.members.getD r q.dev
  | none => q.dev

theorem keepSel_eq (q : Session) (n round : Nat) (body : Bytes) (s : State) :
    let c := keeping (s.selSender q (s.selection n)) round body (s.selection n)
    s.keepSel q n round body = if s.collectives.contains (s.selection n) then s.setColl c else s.addColl c := rfl

theorem keepSel_keeps (q : Session) (n round : Nat) (body : Bytes) (s : State) :
    keeping (s.selSender q (s.selection n)) round body (s.selection n) ∈ (s.keepSel q n round body).collectives := by
  rw [keepSel_eq]
  split
  case isTrue hthere => exact mem_setColl (List.contains_iff_mem.1 hthere) rfl rfl rfl
  case isFalse => exact List.mem_append_right _ (List.mem_singleton.2 rfl)

/-- R191: a kept message waits in the selection of its number. -/
theorem keepSel_waits (q : Session) (n round : Nat) (body : Bytes) (s : State) :
    ∃ c ∈ (s.keepSel q n round body).collectives, c.kind = 1 ∧ c.number = n ∧ ∃ dev, (dev, round, body) ∈ c.waiting := by
  obtain ⟨hkind, hnumber⟩ := selection_key n s
  exact ⟨_, keepSel_keeps q n round body s, hkind, hnumber, _, List.mem_append_right _ (List.mem_singleton.2 rfl)⟩

section
variable (hj : s.Joins 7 m d q)
include hj

theorem doSelBins_whole (hlen : (collBody d).length = 1044) :
    s.doSelBins m = (s.untake d).keepSel q (collHead d).number (uAt (collBody d) 0 4) (collBody d) := by
  rw [doSelBins, onColl_passes hj]
  exact if_pos hlen

theorem doSelBins_other (hlen : (collBody d).length ≠ 1044) : s.doSelBins m = s.untake d := by
  rw [doSelBins, onColl_passes hj]
  exact if_neg hlen

end

section
variable (hj : s.Joins 9 m d q)
include hj

theorem doSelGather_whole (hwhole : listWhole (collBody d) = true) :
    s.doSelGather m = (s.untake d).keepSel q (collHead d).number 13 (collBody d) := by
  rw [doSelGather, onColl_passes hj]
  exact if_pos hwhole

theorem doSelGather_other (hbad : listWhole (collBody d) = false) : s.doSelGather m = s.untake d := by
  rw [doSelGather, onColl_passes hj]
  exact if_neg (Bool.eq_false_iff.1 hbad)

end

-- SEL_DECISION (R191)

/-- The selection of a number that is under way on this device. -/
def selectionUnderWay (n : Nat) (s : State) : Option Collective :=
  s.collectives.find? fun x => x.kind == 1 && x.number == n && !x.members.isEmpty

/-- The decision that a SEL_DECISION carries. -/
def collDecision (d : Delivered) : Decision := Decision.decode (collBody d)

/-- A selection without the participants that its restart left out. -/
def restartedBy (d : Delivered) (rank : Nat) (c : Collective) : Collective :=
  { c with
    members := maskBits (collHead d).coverage, rank
    missing := c.missing || decide ((maskBits (collHead d).coverage).length < c.members.length)
    waiting := c.waiting.filter fun x => x.2.1 == 13 }

section
variable (hj : s.Joins 8 m d q)
include hj

theorem doSelDecision_unknown (hnone : s.selectionUnderWay (collHead d).number = none) : s.doSelDecision m = s.untake d := by
  have hnone' : (s.untake d).selectionUnderWay (CollHead.decode d.frags.flatten).number = none := hnone
  unfold selectionUnderWay at hnone'
  rw [doSelDecision, onColl_passes hj]
  simp only [hnone']

variable {c : Collective} (hc : s.selectionUnderWay (collHead d).number = some c)
include hc

/-- R191: a decision of a round, below the selection's root, is taken and goes on down the tree; a restart names who takes part from now on. -/
theorem doSelDecision_known : s.doSelDecision m =
    if (collBody d).length != 32 || c.rank = 0 || !(inRange 1 13 (collDecision d).round) then s.untake d
    else if (collDecision d).kind = 0 && (collDecision d).round = 1 && (collHead d).coverage != 0 then
      match (maskBits (collHead d).coverage).findIdx? s.ownIndex with
      | some rank => (s.untake d).takeDecision (restartedBy d rank c) (collDecision d) 0
      | none => s.untake d
    else (s.untake d).takeDecision c (collDecision d) 0 := by
  have hc' : (s.untake d).selectionUnderWay (CollHead.decode d.frags.flatten).number = some c := hc
  unfold selectionUnderWay at hc'
  rw [doSelDecision, onColl_passes hj]
  simp only [hc']
  rfl

theorem doSelDecision_unfit (hunfit : c.rank = 0 ∨ (collBody d).length ≠ 32 ∨ (collDecision d).round = 0 ∨ 13 < (collDecision d).round) :
    s.doSelDecision m = s.untake d := by
  rw [doSelDecision_known hj hc, if_pos]
  simp only [inRange, Bool.or_eq_true, bne_iff_ne, decide_eq_true_eq, Bool.not_eq_true', Bool.and_eq_false_iff, decide_eq_false_iff_not]
  omega

variable (hbelow : c.rank ≠ 0) (hlen : (collBody d).length = 32) (hfirst : 1 ≤ (collDecision d).round)
  (hlast : (collDecision d).round ≤ 13)
include hbelow hlen hfirst hlast

theorem doSelDecision_takes (hplain : (collDecision d).kind ≠ 0 ∨ (collDecision d).round ≠ 1 ∨ (collHead d).coverage = 0) :
    s.doSelDecision m = (s.untake d).takeDecision c (collDecision d) 0 := by
  rw [doSelDecision_known hj hc, if_neg (by simp [inRange, hbelow, hlen, hfirst, hlast]), if_neg]
  simp only [Bool.and_eq_true, decide_eq_true_eq, bne_iff_ne]
  omega

theorem doSelDecision_restarts {rank : Nat} (hkind : (collDecision d).kind = 0) (hround : (collDecision d).round = 1)
    (hcover : (collHead d).coverage ≠ 0) (hrank : (maskBits (collHead d).coverage).findIdx? s.ownIndex = some rank) :
    s.doSelDecision m = (s.untake d).takeDecision (restartedBy d rank c) (collDecision d) 0 := by
  rw [doSelDecision_known hj hc, if_neg (by simp [inRange, hbelow, hlen, hfirst, hlast]), if_pos (by simp [hkind, hround, hcover]), hrank]

end
end State

/-- Settles O53: the five rows by the lemmas about the operation behind each. -/
theorem collectivesTakeTheirMessages : Obligations.CollectivesTakeTheirMessages := by
  intro m s d q p h body u done members old
  refine ⟨fun hj => ?start, fun hj => ?list, fun hj => ⟨fun hlen => ?_, fun hlen => ?_⟩, fun hj => ⟨fun hwhole => ?_, fun hbad => ?_⟩,
    fun n round => State.keepSel_waits q n round body u, fun hj => ?decision⟩
  case start =>
    refine ⟨fun hidle => ?_, fun rank hrank hbelow hdone => ⟨fun x w hadmit => ?_, fun hadmit => ?_⟩⟩
    · rw [exec_mergeStart, State.doMergeStart_nothing hj hidle]
    · rw [exec_mergeStart, State.doMergeStart_admitted hbelow hdone hj hrank hadmit]
      rfl
    · rw [exec_mergeStart, State.doMergeStart_refused hbelow hdone hj hrank hadmit]
      rfl
  case list =>
    refine ⟨fun hnone => ?_, fun c hc => ?_⟩
    · rw [exec_mergeList, State.doMergeList_unknown hj hnone]
    intro refusal
    have hrefuses : State.listRefuses d = true ↔ refusal := State.listRefuses_iff d
    rw [exec_mergeList, State.doMergeList_known hj hc]
    refine ⟨fun hroot href => ?_, fun hroot hlist hover => ?_, fun hroot hlist hapart => ?_, fun hbelow hlist hheld => ?_, fun hbelow hpast => ?_⟩
    · rw [if_pos hroot, if_pos (hrefuses.2 href)]
      rfl
    · rw [if_pos hroot, if_neg (mt hrefuses.1 hlist), if_pos (show (collHead d).coverage &&& c.covered ≠ 0 from hover)]
    · rw [if_pos hroot, if_neg (mt hrefuses.1 hlist),
        if_neg (show ¬(collHead d).coverage &&& c.covered ≠ 0 from not_not.2 hapart)]
      rfl
    · rw [if_neg hbelow, if_neg (by simp [hheld, mt hrefuses.1 hlist])]
      rfl
    · rw [if_neg hbelow, if_pos (by simpa [hrefuses] using hpast)]
      rfl
  case decision =>
    intro found b left
    refine ⟨fun hnone => ?_, fun c hc => ⟨fun hunfit => ?_, fun hbelow hlen hfirst hlast => ⟨fun hplain => ?_,
      fun rank hkind hround hcover hrank => ?_⟩⟩⟩
    · rw [exec_selDecision, State.doSelDecision_unknown hj hnone]
    · rw [exec_selDecision, State.doSelDecision_unfit hj hc hunfit]
    · rw [exec_selDecision, State.doSelDecision_takes hj hc hbelow hlen hfirst hlast hplain]
      rfl
    · rw [exec_selDecision, State.doSelDecision_restarts hj hc hbelow hlen hfirst hlast hkind hround hcover hrank]
      rfl
  · rw [exec_selBins, State.doSelBins_whole hj hlen]; rfl
  · rw [exec_selBins, State.doSelBins_other hj hlen]
  · rw [exec_selGather, State.doSelGather_whole hj hwhole]; rfl
  · rw [exec_selGather, State.doSelGather_other hj hbad]

end Sys2Proof.Machine
end

section
/-! PROOFS. Versions of tables and passage stores (R196 to R198, R200, R249): what a refused TABLE_WRITE leaves, and how TABLE_SWITCH and
TABLE_RELEASE change a version's state. -/

namespace Sys2Proof.Machine

/-- A write ended by a refusal, with the state as it was. -/
def Refuses (s : State) (r : State × Option Outcome) : Prop := ∃ o, r = (s, some o) ∧ o ≠ {}

/-- Unless a write waits or is done, the state is as it was. -/
def KeepsOnRefusal (s : State) (r : State × Option Outcome) : Prop := ∀ o, r.2 = some o → o ≠ {} → r.1 = s

theorem keepsOnRefusal_refused (s : State) (o : Option Outcome) : KeepsOnRefusal s (s, o) := fun _ _ _ => rfl
theorem keepsOnRefusal_waits (s t : State) : KeepsOnRefusal s (t, none) := fun _ h => nomatch h
theorem keepsOnRefusal_done (s t : State) : KeepsOnRefusal s (t, some {}) := fun _ h hne => absurd (Option.some.inj h).symm hne

theorem keepsOnRefusal_ite {p : Prop} [Decidable p] {s : State} {a b : State × Option Outcome} (ha : KeepsOnRefusal s a)
    (hb : KeepsOnRefusal s b) : KeepsOnRefusal s (if p then a else b) := by
  split
  · exact ha
  · exact hb

/-- A check that comes before anything changes. -/
theorem keepsOnRefusal_guard {p : Prop} [Decidable p] {s : State} {o : Option Outcome} {r : State × Option Outcome} (h : KeepsOnRefusal s r) :
    KeepsOnRefusal s (if p then (s, o) else r) := keepsOnRefusal_ite (keepsOnRefusal_refused s o) h

theorem refuses_guard {p : Prop} [Decidable p] {s : State} {o : Outcome} {r : State × Option Outcome} (ho : o ≠ {}) (h : Refuses s r) :
    Refuses s (if p then (s, some o) else r) := by
  split
  · exact ⟨o, rfl, ho⟩
  · exact h

namespace State

variable {s : State} {m : TableMsg}

-- TABLE_WRITE of a table (R197)

theorem writeTable_keepsOnRefusal (t : TableCfg) (m : TableMsg) (body : Bytes) (s : State) :
    KeepsOnRefusal s (s.writeTable t m body) := by
  unfold writeTable
  refine keepsOnRefusal_guard ?_
  extract_lets
  split
  case h_1 | h_2 | h_3 => exact keepsOnRefusal_refused s _
  refine keepsOnRefusal_guard (keepsOnRefusal_guard ?_)
  split
  case h_1 noMemory => exact keepsOnRefusal_refused s _
  exact keepsOnRefusal_ite (keepsOnRefusal_waits s _) (keepsOnRefusal_ite (keepsOnRefusal_done s _) (keepsOnRefusal_done s _))

/-- R196: only a version that is filling takes a write. -/
theorem tableTarget_notFilling {t : TableCfg} {v : TableVer} (hv : s.table? t.id m.version = some v) (hpast : v.state ≠ 0 ∨ v.released = true) :
    s.tableTarget t m = .error refWrongState := by
  simp only [tableTarget, hv]
  exact if_pos (by simpa using hpast)

theorem writeTable_badTarget {t : TableCfg} {e : Outcome} (htarget : s.tableTarget t m = .error e) (he : e ≠ {}) (body : Bytes) :
    Refuses s (s.writeTable t m body) := by
  unfold writeTable
  refine refuses_guard (by decide) ?_
  simp only [htarget]
  generalize (if m.hasMap then _ else _ : Except Outcome (Option ShardMap)) = map
  rcases map with o | _
  · refine ⟨_, rfl, ?_⟩
    split
    case isTrue hlayout => rw [eq_of_beq hlayout]; decide
    case isFalse => exact he
  · exact ⟨_, rfl, he⟩

-- TABLE_WRITE of a passage store (R249)

theorem writeStore_keepsOnRefusal (c : StoreCfg) (m : TableMsg) (body : Bytes) (s : State) :
    KeepsOnRefusal s (s.writeStore c m body) := by
  unfold writeStore
  refine keepsOnRefusal_guard ?_
  split
  case h_1 notWhole => exact keepsOnRefusal_refused s _
  refine keepsOnRefusal_guard (keepsOnRefusal_guard ?_)
  split
  case h_1 badTarget => exact keepsOnRefusal_refused s _
  refine keepsOnRefusal_guard (keepsOnRefusal_guard ?_)
  split
  case h_1 noMemory => exact keepsOnRefusal_refused s _
  exact keepsOnRefusal_ite (keepsOnRefusal_done s _) (keepsOnRefusal_done s _)

theorem storeTarget_notFilling {c : StoreCfg} {v : StoreVer} (hv : s.store? c.id m.version = some v) (hpast : v.state ≠ 0 ∨ v.released = true) :
    s.storeTarget c m = .error refWrongState := by
  simp only [storeTarget, hv]
  exact if_pos (by simpa using hpast)

theorem writeStore_badTarget {c : StoreCfg} {e : Outcome} (htarget : s.storeTarget c m = .error e) (he : e ≠ {}) (body : Bytes) :
    Refuses s (s.writeStore c m body) := by
  unfold writeStore
  refine refuses_guard (by decide) ?_
  split
  case h_1 notWhole => exact ⟨_, rfl, by decide⟩
  refine refuses_guard (by decide) (refuses_guard (by decide) ?_)
  rw [htarget]
  exact ⟨_, rfl, he⟩

-- TABLE_SWITCH and TABLE_RELEASE (R198, R200, R249)

/-- The object that a TABLE_SWITCH or TABLE_RELEASE names, and its version. -/
def switchObject (w : Write) : Nat := fld (uAt w.payload 12 4) 8 0
def switchVersion (w : Write) : Nat := uAt w.payload 8 4

/-- A version becomes its table's current one, and what was current is retired (R198); and the same of a passage store (R249). -/
def tablesSwitched (id ver : Nat) (s : State) : State :=
  { s with tables := s.tables.map fun x =>
      if x.table == id && x.version == ver then { x with state := 2 } else if x.table == id && x.state == 2 then { x with state := 3 } else x }
def storesSwitched (id ver : Nat) (s : State) : State :=
  { s with stores := s.stores.map fun x =>
      if x.store == id && x.version == ver then { x with state := 2 } else if x.store == id && x.state == 2 then { x with state := 3 } else x }

/-- The payload has the layout of R364: its length, and its reserved bits 0. -/
def SwitchWhole (w : Write) : Prop := w.payload.length = 16 ∧ fld (uAt w.payload 12 4) 31 10 = 0

theorem SwitchWhole.check {w : Write} (hw : SwitchWhole w) : (w.payload.length != 16 || fld (uAt w.payload 12 4) 31 10 != 0) = false := by
  simp [hw.1, hw.2]

section
variable {w : Write} (hw : SwitchWhole w)
include hw

section
variable {v : TableVer} (htable : bitAt (uAt w.payload 12 4) 9 = false) (hv : s.table? (switchObject w) (switchVersion w) = some v)
include htable hv

/-- R198: a READY or retired version that is not released takes a switch, and no other does. -/
theorem applyTableSwitch_table : s.applyTableSwitch w =
    if v.released || !(v.state == 1 || v.state == 3) then refused s w refWrongState
    else ((s.tablesSwitched (switchObject w) (switchVersion w)).bumpObjects, some ({}, [], w)) := by
  unfold switchObject switchVersion at hv
  simp only [applyTableSwitch, hw.check, htable, hv, Bool.false_eq_true, if_false]
  rfl

/-- R200: a version that is not current is released, and the writes that waited for its slabs are refused. -/
theorem applyTableRelease_table : s.applyTableRelease w =
    if v.state == 2 then refused s w refWrongState
    else ((v.waiting.foldl (fun s x => s.answerWrite x refWrongState [] true)
      (s.setTable { v with released := true, waiting := [] }).bumpObjects).reapStores, some ({}, [], w)) := by
  unfold switchObject switchVersion at hv
  simp only [applyTableRelease, hw.check, htable, hv, Bool.false_eq_true, if_false]

end

section
variable {v : StoreVer} (hstore : bitAt (uAt w.payload 12 4) 9 = true) (hv : s.store? (switchObject w) (switchVersion w) = some v)
include hstore hv

theorem applyTableSwitch_store : s.applyTableSwitch w =
    if v.released || !(v.state == 1 || v.state == 3) then refused s w refWrongState
    else ((s.storesSwitched (switchObject w) (switchVersion w)).bumpObjects, some ({}, [], w)) := by
  unfold switchObject switchVersion at hv
  simp only [applyTableSwitch, hw.check, hstore, hv, Bool.false_eq_true, if_false, if_true]
  rfl

theorem applyTableRelease_store : s.applyTableRelease w =
    if v.state == 2 then refused s w refWrongState
    else (((s.setStore { v with released := true }).bumpObjects).reapStores, some ({}, [], w)) := by
  unfold switchObject switchVersion at hv
  simp only [applyTableRelease, hw.check, hstore, hv, Bool.false_eq_true, if_false, if_true]

end
end

end State

/-- Settles O28: of a table and of a store, a refusal comes before anything changes, and a version past its filling is refused as target. -/
theorem refusedTableWriteChangesNothing : Obligations.RefusedTableWriteChangesNothing := by
  intro s t c m body _
  have hwrong : refWrongState ≠ {} := by decide
  refine ⟨fun hend hne => ?_, fun hend hne => ?_, fun v hv hpast => ?_, fun v hv hpast => ?_⟩
  · exact State.writeTable_keepsOnRefusal t m body s _ hend hne
  · exact State.writeStore_keepsOnRefusal c m body s _ hend hne
  · exact State.writeTable_badTarget (State.tableTarget_notFilling hv hpast) hwrong body
  · exact State.writeStore_badTarget (State.storeTarget_notFilling hv hpast) hwrong body

/-- Settles O27: for a table and for a store, what a switch and a release do by the version's state. -/
theorem switchAndReleaseVersions : Obligations.SwitchAndReleaseVersions := by
  intro s w v y hlen hres id ver
  have hw : State.SwitchWhole w := ⟨hlen, hres⟩
  refine ⟨fun htable hv => ⟨fun hlive hready => ?_, fun hpast => ?_, fun hcurrent => ?_, fun hother hidle => ?_⟩,
    fun hstore hy => ⟨fun hlive hready => ?_, fun hcurrent => ?_, fun hother => ?_⟩⟩
  · rw [State.applyTableSwitch_table hw htable hv, if_neg (by simpa [hlive, or_iff_not_imp_left] using hready)]
    rfl
  · rw [State.applyTableSwitch_table hw htable hv, if_pos (by rcases hpast with h | h | h <;> simp [h])]
    rfl
  · rw [State.applyTableRelease_table hw htable hv, if_pos (beq_iff_eq.2 hcurrent)]
    rfl
  · rw [State.applyTableRelease_table hw htable hv, if_neg (mt beq_iff_eq.1 hother), hidle]
    rfl
  · rw [State.applyTableSwitch_store hw hstore hy, if_neg (by simpa [hlive, or_iff_not_imp_left] using hready)]
    rfl
  · rw [State.applyTableRelease_store hw hstore hy, if_pos (beq_iff_eq.2 hcurrent)]
    rfl
  · rw [State.applyTableRelease_store hw hstore hy, if_neg (mt beq_iff_eq.1 hother)]

end Sys2Proof.Machine
end

section
/-! PROOFS. Pooled look-ups (R201 to R206, R212): how a member joins its coalescing group, and what a pooling work item writes and hands on. -/

namespace Sys2Proof.Machine

theorem exec_coalesce (t : Nat) (s : State) : exec (.coalesce t) s = .next (s.after (s.doCoalesce t)) := rfl
theorem exec_poolSum (t : Nat) (s : State) : exec (.poolSum t) s = .next (s.after (s.poolItem t 0x51 0)) := rfl
theorem exec_poolMean (t : Nat) (s : State) : exec (.poolMean t) s = .next (s.after (s.poolItem t 0x52 1)) := rfl
theorem exec_poolWsum (t : Nat) (s : State) : exec (.poolWsum t) s = .next (s.after (s.poolItem t 0x53 2)) := rfl

/-- The three pooling rows are one operation in its three modes (R212). -/
theorem exec_pool {mode : Nat} (hmode : mode < 3) (t : Nat) (s : State) :
    exec (if mode = 0 then .poolSum t else if mode = 1 then .poolMean t else .poolWsum t) s
      = .next (s.after (s.poolItem t (0x51 + mode) mode)) := by
  have hmodes : mode = 0 ∨ mode = 1 ∨ mode = 2 := by omega
  rcases hmodes with rfl | rfl | rfl
  · exact exec_poolSum t s
  · exact exec_poolMean t s
  · exact exec_poolWsum t s

namespace State

-- COALESCE (R201 to R203)

/-- The look-up batch that a member has read, checked against the tables of the configuration (R202). -/
def memberBatch (bs : List (Nat × Bytes)) (s : State) : Except Nat Batch :=
  readBatch (fun i => (s.tableCfg? i).map (·.rows)) (readBytes bs 0)

/-- The bags that a group covers are of tables of one format and width. -/
def groupUniform (x : Running) (b : Batch) (s : State) : Bool :=
  let shape := fun (bag : Nat × Nat × Nat) => (s.tableCfg? bag.1).map fun c => (c.format, c.width)
  wImm x.item.wi 0 != 0xFFFF || b.bags.all fun bag => shape bag == shape (b.bags.getD 0 (0, 0, 0))

/-- A member keeps its batch and waits in its group. -/
def joinGroup (t i : Nat) (x : Running) (bs : List (Nat × Bytes)) (s : State) : State :=
  (s.setRunning t fun y => { y with waits := 3, bytes := readBytes bs 0
                                    store := [0, 0, 0] ++ List.replicate (fld (wImm x.item.wi 2) 15 0) 0 }).setSelect
    x.item.pool i fun g => { g with arrived := g.arrived ++ [t] }

/-- The stride of the rows that a group looks up. -/
def groupStride (x : Running) (b : Batch) (s : State) : Nat :=
  ((s.tableCfg? (if wImm x.item.wi 0 = 0xFFFF then (b.bags.getD 0 (0, 0, 0)).1 else wImm x.item.wi 0)).map TableCfg.stride).getD 32

section
variable {t : Nat} {s u : State} {x : Running} {bs : List (Nat × Bytes)} (h : s.Runs t 0x50 false x bs u)
include h

theorem doCoalesce_badBatch {f : Nat} (hbatch : u.memberBatch bs = .error f) : s.doCoalesce t = u.faultItem t x f := by
  unfold memberBatch at hbatch
  rw [doCoalesce, opCoalesce, runOp_ready h]
  simp only [hbatch]

variable {b : Batch} {i : Nat} (hbatch : u.memberBatch bs = .ok b)
  (hat : u.selectAt x.item (65536 + fld (wImm x.item.wi 2) 31 16) = some i)
include hbatch hat

/-- R201: a member with a well-formed batch joins its group, and the last one lets the group's work begin. -/
theorem doCoalesce_member : s.doCoalesce t =
    if !(u.groupUniform x b) then u.faultItem t x 1
    else if ((u.joinGroup t i x bs).coalesceMembers x.item.pool i).length < fld (wImm x.item.wi 2) 15 0 then u.joinGroup t i x bs
    else if areasOk ((u.joinGroup t i x bs).coalesceMembers x.item.pool i) b (u.groupStride x b) then
      (u.joinGroup t i x bs).coalesceLoop t (2 * b.bags.size + 2) false
    else (u.joinGroup t i x bs).coalesceFails t 1 := by
  unfold memberBatch at hbatch
  rw [doCoalesce, opCoalesce, runOp_ready h]
  simp only [hbatch, hat]
  rfl

theorem doCoalesce_mixed (hmixed : u.groupUniform x b = false) : s.doCoalesce t = u.faultItem t x 1 := by
  rw [doCoalesce_member h hbatch hat, hmixed]
  rfl

variable (huniform : u.groupUniform x b = true)
include huniform

/-- R201: a member that is not the last waits with what it read. -/
theorem doCoalesce_waits (hmore : ((u.joinGroup t i x bs).coalesceMembers x.item.pool i).length < fld (wImm x.item.wi 2) 15 0) :
    s.doCoalesce t = u.joinGroup t i x bs := by
  rw [doCoalesce_member h hbatch hat, huniform]
  exact if_pos hmore

/-- R201, R203: with the last member the group's work begins, where the members' areas hold it. -/
theorem doCoalesce_last (hlast : fld (wImm x.item.wi 2) 15 0 ≤ ((u.joinGroup t i x bs).coalesceMembers x.item.pool i).length) :
    s.doCoalesce t =
      if areasOk ((u.joinGroup t i x bs).coalesceMembers x.item.pool i) b (u.groupStride x b) then
        (u.joinGroup t i x bs).coalesceLoop t (2 * b.bags.size + 2) false
      else (u.joinGroup t i x bs).coalesceFails t 1 := by
  rw [doCoalesce_member h hbatch hat, huniform]
  exact if_neg (Nat.not_lt.2 hlast)

end

-- POOL_SUM, POOL_MEAN and POOL_WSUM (R212)

/-- Where the span of the vectors written starts and ends: at the lowest of them, and at the end of the highest. -/
def spanLow (p : Nat × Nat) (ps : List (Nat × Nat)) : Nat := (ps.map Prod.fst).foldl min p.1
def spanHigh (ps : List (Nat × Nat)) : Nat := (ps.map fun y => y.1 + y.2).foldl max 0

/-- The handles for the span of the vectors written, from a 128-byte boundary (R83). -/
def spanHandles (w lo hi : Nat) (s : State) : List Nat :=
  if inHbm lo then (List.range (ceilDiv (hi - lo / 128 * 128) 4194176)).map fun i =>
    hbmHandle (lo / 128 * 128 + 4194176 * i) (min 4194176 (hi - lo / 128 * 128 - 4194176 * i)) (wOutTag w)
  else ((tileOf lo).map fun y => tileHandle y.1 y.2 (hi - lo) (s.gen y.1 (y.2 / 4096)) (wOutTag w)).toList

/-- A pooling work item with its vectors written ends with their handles sent and its empty bags counted. -/
theorem poolItem_written {t code mode h : Nat} {s u v : State} {x : Running} {bs : Bytes} {p : Nat × Nat} {ps : List (Nat × Nat)}
    (hrun : s.running? t code = some x) (hhead : x.handles.head? = some h) (hshape : s.shapeOk x.item h = true)
    (hread : s.ioRead (s.ioFor t x.item) 0 (targetOf (handleAddr h)) (handleAddr h) (handleBytes h) = (.ok bs, u))
    (hpool : poolBags (s.ioFor t x.item) t x mode (poolStride (wAFmt x.item.wi) (wImm x.item.wi 0))
      (readChunk ((chunks 16 bs).map leNat)) u = (.ok (p :: ps), v)) :
    let empty := ((readChunk ((chunks 16 bs).map leNat)).filter fun b => b.2.1 == 0).length
    s.poolItem t code mode = (v.sendHandles t x (v.spanHandles x.item.wi (spanLow p ps) (spanHigh (p :: ps))) false).endItem t x 0
      (if empty = 0 then 0 else cbEmpty) (satTo 16 empty) false [] [] := by
  simp only [poolItem, hrun, hhead, hshape, Bool.not_true, Bool.false_eq_true, if_false, hread, hpool, spanHandles]
  unfold spanLow
  rcases tileOf ((ps.map Prod.fst).foldl min p.1) with _ | _
  · rfl
  · rfl

end State

/-- Settles O45: a member's batch decides whether it joins, and the three pooling rows end as their one operation does. -/
theorem lookupItemsGatherAndPool : Obligations.LookupItemsGatherAndPool := by
  refine ⟨?coalesce, ?pool⟩
  case coalesce =>
    intro t s u x bs h w batch
    refine ⟨fun f hbatch => ?_, ?_⟩
    · rw [exec_coalesce, State.doCoalesce_badBatch h hbatch]
    intro b i hbatch hat shape uniform v id
    refine ⟨fun hmixed => ?_, fun huniform hmore => ?_, fun huniform hlast => ?_⟩
    · rw [exec_coalesce, State.doCoalesce_mixed h hbatch hat hmixed]
    · rw [exec_coalesce, State.doCoalesce_waits h hbatch hat huniform hmore]
      rfl
    · rw [exec_coalesce, State.doCoalesce_last h hbatch hat huniform hlast]
      rfl
  case pool =>
    intro t mode s u v x h bs p ps hmode hrun hhead hshape hread bags hpool
    rw [exec_pool hmode, State.poolItem_written hrun hhead hshape hread hpool]
    rfl

end Sys2Proof.Machine
end

section
/-! PROOFS. Rows and passages between devices (R209 to R211, R252, R253, R369, R430): what an owner answers, and what a reply does for the
exchange that awaits it. -/

namespace Sys2Proof.Machine

theorem exec_rowRequest (m : Msg) (s : State) : exec (.rowRequest m) s = .next (s.after (s.doRowRequest m)) := rfl
theorem exec_rowReply (m : Msg) (s : State) : exec (.rowReply m) s = .next (s.after (s.doRowReply m)) := rfl
theorem exec_passageRequest (m : Msg) (s : State) : exec (.passageRequest m) s = .next (s.after (s.doPassageRequest m)) := rfl
theorem exec_passageReply (m : Msg) (s : State) : exec (.passageReply m) s = .next (s.after (s.doPassageReply m)) := rfl

/-- The record header at the start of a COLL body (R209, R252). -/
def recordHead (d : Delivered) : Nat := uAt (collBody d) 0 32

/-- A reply is whole, of its kind, and for the object and the exchange that it is taken for (R209). -/
def ReplyFits (magic object : Nat) (e : Exchange) (d : Delivered) : Prop :=
  replyWhole (recordHead d) = true ∧ fld (recordHead d) 31 0 = magic ∧ fld (recordHead d) 56 48 = object
    ∧ fld (recordHead d) 47 32 = e.xid % 65536

theorem replyFits_check (magic object : Nat) (e : Exchange) (d : Delivered) :
    (!(replyWhole (recordHead d)) || fld (recordHead d) 31 0 != magic || fld (recordHead d) 56 48 != object
      || fld (recordHead d) 47 32 != e.xid % 65536) = true ↔ ¬ReplyFits magic object e d := by
  simp only [ReplyFits, Bool.or_eq_true, Bool.not_eq_true', bne_iff_ne, not_and_or, Bool.not_eq_true, or_assoc, ne_eq]

/-- The status of a reply. -/
def replyStatus (d : Delivered) : Nat := fld (recordHead d) 71 64

namespace State

variable {m : Msg} {s : State} {d : Delivered} {q : Session} {e : Exchange}

/-- An answer to a request goes back on its session with the request's origin and number. -/
def answers (q : Session) (d : Delivered) (op : Nat) (bs : Bytes) (s : State) : State :=
  s.sendColl q.id { op, origin := (collHead d).origin, number := (collHead d).number, req := (collHead d).req } bs

-- ROW_REQUEST (R209, R210, R430)

/-- The rows of an owner are not to be had: LOOKUP does not run, or no ungated pool serves them (R430). -/
def RowsNotReady (s : State) : Prop := s.runs fnLookup = false ∨ ∀ pool, s.hotPool = some pool → bitAt s.power.gate pool = true

/-- What an owner finds for a row request: its status, the stride of the rows, and the rows. -/
def rowsFound (d : Delivered) (s : State) : Nat × Nat × Bytes :=
  if s.runs fnLookup && !((s.hotPool.map (bitAt s.power.gate)).getD true) then s.serveRows (collBody d) else (2, 0, [])

theorem rowsFound_notReady (hnot : s.RowsNotReady) : s.rowsFound d = (2, 0, []) := by
  refine if_neg ?_
  rcases hnot with hstopped | hgated
  · simp [hstopped]
  · rcases hpool : s.hotPool with _ | pool
    · simp
    · simp [hgated pool hpool]

theorem rowsFound_ready {pool : Nat} (hpool : s.hotPool = some pool) (hopen : bitAt s.power.gate pool = false) (hruns : s.runs fnLookup = true) :
    s.rowsFound d = s.serveRows (collBody d) := if_pos (by simp [hpool, hopen, hruns])

/-- The reply record of a row request, and the rows. -/
def rowReplyBytes (d : Delivered) (status stride : Nat) (rows : Bytes) : Bytes :=
  replyHeader 0x53574F52 ((collHead d).number % 65536) (fld (recordHead d) 56 48) status
    (if status = 0 then fld (recordHead d) 159 128 else 0) stride ++ rows

/-- Rows that are served are charged to their share of the pool that serves them (R210). -/
def chargeServed (d : Delivered) (status : Nat) (s : State) : State :=
  match s.hotPool with
  | some pool => if status = 0 then s.chargeShare pool (fld (recordHead d) 165 160) else s
  | none => s

theorem chargeServed_refused {status : Nat} (hstatus : status ≠ 0) : s.chargeServed d status = s := by
  unfold chargeServed
  split
  · exact if_neg hstatus
  · rfl

theorem chargeServed_served {pool : Nat} (hpool : s.hotPool = some pool) :
    s.chargeServed d 0 = s.chargeShare pool (fld (recordHead d) 165 160) := by
  simp only [chargeServed, hpool, if_true]

section
variable (hj : s.Joins 1 m d q)
include hj

theorem doRowRequest_answers : s.doRowRequest m = ((s.untake d).chargeServed d ((s.untake d).rowsFound d).1).answers q d 2
    (rowReplyBytes d ((s.untake d).rowsFound d).1 ((s.untake d).rowsFound d).2.1 ((s.untake d).rowsFound d).2.2) := by
  rw [doRowRequest, onColl_passes hj]
  rfl

/-- R430: an owner that is not ready says so, and charges nothing. -/
theorem doRowRequest_notReady (hnot : s.RowsNotReady) : s.doRowRequest m = (s.untake d).answers q d 2 (rowReplyBytes d 2 0 []) := by
  rw [doRowRequest_answers hj, rowsFound_notReady (s := s.untake d) hnot, chargeServed_refused (by decide)]

theorem doRowRequest_serves {pool status stride : Nat} {rows : Bytes} (hpool : s.hotPool = some pool) (hopen : bitAt s.power.gate pool = false)
    (hruns : s.runs fnLookup = true) (hserve : (s.untake d).serveRows (collBody d) = (status, stride, rows)) :
    s.doRowRequest m = ((s.untake d).chargeServed d status).answers q d 2 (rowReplyBytes d status stride rows) := by
  rw [doRowRequest_answers hj, rowsFound_ready (s := s.untake d) hpool hopen hruns, hserve]

end

-- PASSAGE_REQUEST (R252)

/-- What an owner finds for a passage request: its status, the number of passages, and the passages. -/
def passagesFound (d : Delivered) (s : State) : Nat × Nat × Bytes := if s.runs fnServe then s.servePassages (collBody d) else (2, 0, [])

theorem doPassageRequest_answers (hj : s.Joins 3 m d q) : s.doPassageRequest m = (s.untake d).answers q d 4
    (replyHeader 0x53505350 ((collHead d).number % 65536) 0 ((s.untake d).passagesFound d).1 ((s.untake d).passagesFound d).2.1 0
      ++ ((s.untake d).passagesFound d).2.2) := by
  rw [doPassageRequest, onColl_passes hj]
  rfl

-- ROW_REPLY (R209, R211)

/-- The exchange that a reply answers is over. -/
def exchangeOver (d : Delivered) (e : Exchange) (s : State) : State := (s.untake d).dropExchange e

/-- The stride that a reply states, and the rows or passages that it carries. -/
def repliedStride (d : Delivered) : Nat := fld (recordHead d) 175 160
def repliedRows (d : Delivered) : Bytes := (collBody d).drop 32

section
variable (hj : s.Joins 2 m d q)
include hj

theorem doRowReply_stray (hnone : (s.untake d).exchangeOf q [0, 2] (collHead d).number = none) : s.doRowReply m = s.untake d := by
  unfold collHead at hnone
  rw [doRowReply, onColl_passes hj]
  simp only [hnone]

variable (he : (s.untake d).exchangeOf q [0, 2] (collHead d).number = some e)
include he

/-- A reply that an exchange awaits is checked, and moves the exchange on by its kind. -/
theorem doRowReply_awaited : s.doRowReply m =
    if !(replyWhole (recordHead d)) || fld (recordHead d) 31 0 != 0x53574F52 || fld (recordHead d) 56 48 != e.object
        || fld (recordHead d) 47 32 != e.xid % 65536 then (s.exchangeOver d e).exchangeFails e stContained
    else if replyStatus d != 0 then (s.exchangeOver d e).exchangeFails e (replyEnds (replyStatus d))
    else if fld (recordHead d) 159 128 != e.ids.length || (repliedRows d).length != e.ids.length * repliedStride d
        || ((s.tableCfg? e.object).map (·.stride)) != some (repliedStride d) then (s.exchangeOver d e).exchangeFails e stContained
    else if e.kind = 2 then (s.exchangeOver d e).hotRows e (repliedStride d) (repliedRows d)
    else match s.live? e.req e.reqOrder with
      | some _ => (s.exchangeOver d e).lookupRows e (repliedStride d) (repliedRows d)
      | none => s.exchangeOver d e := by
  unfold collHead at he
  rw [doRowReply, onColl_passes hj]
  simp only [he]
  rfl

theorem doRowReply_unfit (hunfit : ¬ReplyFits 0x53574F52 e.object e d) :
    s.doRowReply m = (s.exchangeOver d e).exchangeFails e stContained := by
  rw [doRowReply_awaited hj he, if_pos ((replyFits_check ..).2 hunfit)]

variable (hfits : ReplyFits 0x53574F52 e.object e d)
include hfits

theorem doRowReply_refused (hstatus : replyStatus d ≠ 0) :
    s.doRowReply m = (s.exchangeOver d e).exchangeFails e (replyEnds (replyStatus d)) := by
  rw [doRowReply_awaited hj he, if_neg (mt (replyFits_check ..).1 (not_not.2 hfits)), if_pos (bne_iff_ne.2 hstatus)]

variable (hstatus : replyStatus d = 0) (hcount : fld (recordHead d) 159 128 = e.ids.length)
  (hlen : (repliedRows d).length = e.ids.length * repliedStride d) (hstride : (s.tableCfg? e.object).map (·.stride) = some (repliedStride d))
include hstatus hcount hlen hstride

theorem doRowReply_rows : s.doRowReply m =
    if e.kind = 2 then (s.exchangeOver d e).hotRows e (repliedStride d) (repliedRows d)
    else match s.live? e.req e.reqOrder with
      | some _ => (s.exchangeOver d e).lookupRows e (repliedStride d) (repliedRows d)
      | none => s.exchangeOver d e := by
  rw [doRowReply_awaited hj he, if_neg (mt (replyFits_check ..).1 (not_not.2 hfits)), if_neg (by simp [hstatus]),
    if_neg (by simp [hcount, hlen, hstride])]

/-- R216: the rows of an install land in the hot set. -/
theorem doRowReply_installs (hkind : e.kind = 2) :
    s.doRowReply m = (s.exchangeOver d e).hotRows e (repliedStride d) (repliedRows d) := by
  rw [doRowReply_rows hj he hfits hstatus hcount hlen hstride, if_pos hkind]

/-- R208, R211: the rows of a look-up land for the request that is still live. -/
theorem doRowReply_looksUp (hkind : e.kind ≠ 2) (hlive : (s.live? e.req e.reqOrder).isSome = true) :
    s.doRowReply m = (s.exchangeOver d e).lookupRows e (repliedStride d) (repliedRows d) := by
  obtain ⟨r, hr⟩ := Option.isSome_iff_exists.1 hlive
  rw [doRowReply_rows hj he hfits hstatus hcount hlen hstride, if_neg hkind, hr]

end

-- PASSAGE_REPLY (R252, R253)

/-- A passage of a reply is longer than its store allows. -/
def passageTooLong (s : State) (store : Nat) (ps : List (Nat × Bytes)) : Bool :=
  ps.any fun p => decide (4 * ((s.storeCfg? store).map (·.maxTokens)).getD 0 < p.2.length)

section
variable (hj : s.Joins 4 m d q)
include hj

theorem doPassageReply_stray (hnone : (s.untake d).exchangeOf q [1] (collHead d).number = none) : s.doPassageReply m = s.untake d := by
  unfold collHead at hnone
  rw [doPassageReply, onColl_passes hj]
  simp only [hnone]

variable (he : (s.untake d).exchangeOf q [1] (collHead d).number = some e) (hlive : (s.live? e.req e.reqOrder).isSome = true)
include he hlive

theorem doPassageReply_awaited : s.doPassageReply m =
    if !(replyWhole (recordHead d)) || fld (recordHead d) 31 0 != 0x53505350 || fld (recordHead d) 56 48 != 0
        || fld (recordHead d) 47 32 != e.xid % 65536 then (s.exchangeOver d e).exchangeFails e stContained
    else if replyStatus d != 0 then (s.exchangeOver d e).exchangeFails e (replyEnds (replyStatus d))
    else match replyPassages e.ids (repliedRows d) with
      | none => (s.exchangeOver d e).exchangeFails e stContained
      | some ps => if s.passageTooLong e.object ps then (s.exchangeOver d e).exchangeFails e stContained
        else (s.exchangeOver d e).passagesLand e ps := by
  obtain ⟨r, hr⟩ := Option.isSome_iff_exists.1 hlive
  have hr' : (s.exchangeOver d e).live? e.req e.reqOrder = some r := hr
  unfold collHead at he
  unfold exchangeOver at hr'
  rw [doPassageReply, onColl_passes hj]
  simp only [he, hr']
  rfl

theorem doPassageReply_unfit (hunfit : ¬ReplyFits 0x53505350 0 e d) :
    s.doPassageReply m = (s.exchangeOver d e).exchangeFails e stContained := by
  rw [doPassageReply_awaited hj he hlive, if_pos ((replyFits_check ..).2 hunfit)]

variable (hfits : ReplyFits 0x53505350 0 e d)
include hfits

theorem doPassageReply_refused (hstatus : replyStatus d ≠ 0) :
    s.doPassageReply m = (s.exchangeOver d e).exchangeFails e (replyEnds (replyStatus d)) := by
  rw [doPassageReply_awaited hj he hlive, if_neg (mt (replyFits_check ..).1 (not_not.2 hfits)), if_pos (bne_iff_ne.2 hstatus)]

variable (hstatus : replyStatus d = 0)
include hstatus

theorem doPassageReply_passages {ps : List (Nat × Bytes)} (hps : replyPassages e.ids (repliedRows d) = some ps)
    (hshort : s.passageTooLong e.object ps = false) : s.doPassageReply m = (s.exchangeOver d e).passagesLand e ps := by
  rw [doPassageReply_awaited hj he hlive, if_neg (mt (replyFits_check ..).1 (not_not.2 hfits)), if_neg (by simp [hstatus]), hps]
  exact if_neg (Bool.eq_false_iff.1 hshort)

theorem doPassageReply_notWhole (hnone : replyPassages e.ids (repliedRows d) = none) :
    s.doPassageReply m = (s.exchangeOver d e).exchangeFails e stContained := by
  rw [doPassageReply_awaited hj he hlive, if_neg (mt (replyFits_check ..).1 (not_not.2 hfits)), if_neg (by simp [hstatus]), hnone]

end
end State

/-- Settles O52: requests and replies by the lemmas about the operation behind each. -/
theorem ownersServeRowsAndPassages : Obligations.OwnersServeRowsAndPassages := by
  intro m s d q p h body u answer
  refine ⟨fun hj => ⟨fun hnot => ?_, ?serves⟩, fun hj => ?passages, fun hj hnone => ?_, fun hj e he => ?row, fun hj hnone => ?_,
    fun hj e he hlive => ?passage⟩
  · rw [exec_rowRequest, State.doRowRequest_notReady hj hnot, State.rowReplyBytes, List.append_nil]
    rfl
  case serves =>
    intro pool status stride rows hpool hopen hruns hserve
    refine ⟨fun hbad => ?_, fun hgood => ?_⟩
    · rw [exec_rowRequest, State.doRowRequest_serves hj hpool hopen hruns hserve, State.chargeServed_refused hbad, State.rowReplyBytes,
        if_neg hbad]
      rfl
    · subst hgood
      rw [exec_rowRequest, State.doRowRequest_serves hj hpool hopen hruns hserve, State.chargeServed_served (s := s.untake d) hpool]
      rfl
  case passages =>
    rw [exec_passageRequest, State.doPassageRequest_answers hj]
    rfl
  · rw [exec_rowReply, State.doRowReply_stray hj hnone]
  case row =>
    intro r stride v ok
    refine ⟨fun hunfit => ?_, fun hfits hstatus => ?_, fun hfits hstatus hcount hlen hstride => ⟨fun hkind => ?_, fun hkind hlive => ?_⟩⟩
    · rw [exec_rowReply, State.doRowReply_unfit hj he hunfit]
      rfl
    · rw [exec_rowReply, State.doRowReply_refused hj he hfits hstatus]
      rfl
    · rw [exec_rowReply, State.doRowReply_installs hj he hfits hstatus hcount hlen hstride hkind]
      rfl
    · rw [exec_rowReply, State.doRowReply_looksUp hj he hfits hstatus hcount hlen hstride hkind hlive]
      rfl
  · rw [exec_passageReply, State.doPassageReply_stray hj hnone]
  case passage =>
    intro r v ok
    refine ⟨fun hunfit => ?_, fun hfits hstatus => ?_, fun hfits hstatus ps hps hshort => ?_, fun hfits hstatus hnone => ?_⟩
    · rw [exec_passageReply, State.doPassageReply_unfit hj he hlive hunfit]
      rfl
    · rw [exec_passageReply, State.doPassageReply_refused hj he hlive hfits hstatus]
      rfl
    · have hfit : s.passageTooLong e.object ps = false := by simpa [State.passageTooLong] using hshort
      rw [exec_passageReply, State.doPassageReply_passages hj he hlive hfits hstatus hps hfit]
      rfl
    · rw [exec_passageReply, State.doPassageReply_notWhole hj he hlive hfits hstatus hnone]
      rfl

end Sys2Proof.Machine
end

section
/-! PROOFS. The text work items (R222 to R244) and the packer (R259 to R262): how a field is taken handle by handle, and what a ready work
item writes. -/

namespace Sys2Proof.Machine

theorem exec_normalise (t : Nat) (s : State) : exec (.normalise t) s = .next (s.after (s.doNormalise t)) := rfl
theorem exec_trieWalk (t : Nat) (s : State) : exec (.trieWalk t) s = .next (s.after (s.doTrieWalk t)) := rfl
theorem exec_latticeStep (t : Nat) (s : State) : exec (.latticeStep t) s = .next (s.after (s.doLatticeStep t)) := rfl
theorem exec_detok (t : Nat) (s : State) : exec (.detok t) s = .next (s.after (s.doDetok t)) := rfl
theorem exec_stopMatch (t : Nat) (s : State) : exec (.stopMatch t) s = .next (s.after (s.doStopMatch t)) := rfl
theorem exec_maskApply (t : Nat) (s : State) : exec (.maskApply t) s = .next (s.after (s.doMaskApply t)) := rfl
theorem exec_pack (t : Nat) (s : State) : exec (.pack t) s = .next (s.after (s.doPack t)) := rfl

namespace State

-- Random reads of a table (R99)

/-- The random reads that a work item makes of the table that a slot names. -/
def touchSlot (t : Nat) (x : Running) (slot : Nat) (reads : List (Nat × Nat)) (s : State) : Option Nat × State :=
  touchTable (s.ioFor t x.item) (dHint (slotDesc x slot)) (dBase (slotDesc x slot)) reads.eraseDups s

theorem withTable_touched {t slot : Nat} {x : Running} {reads : List (Nat × Nat)} {s v : State}
    (htouch : s.touchSlot t x slot reads = (none, v)) (f : State → State) : s.withTable t x slot reads f = f v := by
  unfold touchSlot at htouch
  simp only [withTable, htouch]

-- NORMALISE (R222 to R227)

/-- A field as code points, its ill-formed subparts replaced (R225). -/
def fieldChars (bs : Bytes) : List (Nat × Bool) := (utf8Scan true bs.length bs).1

/-- An ill-formed subpart rejects the field: by the work item's own mode, else by its tokeniser's (R225). -/
def rejectsText (x : Running) (s : State) : Bool :=
  wImm x.item.wi 0 == 2 || (wImm x.item.wi 0 == 0 && ((s.itemTok x.item).map (·.invalid)).getD 0 == 1)

theorem endField_rejects {t : Nat} {x : Running} {bs : Bytes} {s : State} (hill : replacedIn (fieldChars bs) ≠ 0) :
    s.endField t x bs true = s.endItem t x 0 cbText 0 true [] [] :=
  if_pos (by simpa [fieldChars] using hill)

/-- R225 to R227: a field that is not rejected is recorded and written through the character map. -/
theorem endField_maps {t : Nat} {x : Running} {bs : Bytes} {reject : Bool} {s v : State}
    (hkept : reject = false ∨ replacedIn (fieldChars bs) = 0)
    (htouch : s.touchSlot t x 1 ((fieldChars bs).flatMap fun c => charMapReads (s.tableRd x 1) c.1) = (none, v)) :
    let n := replacedIn (fieldChars bs)
    let text := (fieldChars bs).flatMap fun c => charMappedAt (v.tableRd x 1) c.1
    s.endField t x bs reject = (v.setField x.item bs.length text).finishText t x text (if n = 0 then 0 else cbText) n :=
  (if_neg (by simpa [fieldChars, or_iff_not_imp_left] using hkept)).trans (withTable_touched htouch _)

/-- A handle's bytes have joined those of its field. -/
def joinField (t : Nat) (all : Bytes) (s : State) : State := s.setRunning t fun y => { y with bytes := all, round := y.round + 1 }

section
variable {t h : Nat} {s u : State} {x : Running} {bs : Bytes} (hrun : s.running? t opNormalise = some x)
include hrun

theorem doNormalise_takes : ∃ k, s.doNormalise t = s.takeField t (k + 1) := by
  simp only [doNormalise, hrun]
  exact ⟨_, rfl⟩

/-- R222: with no handle left to read and its request live, the field waits for the next. -/
theorem takeField_waits (hread : x.handles[x.round]? = none)
    (hlive : (s.live? x.item.req x.item.reqOrder).isSome = true ∨ x.item.isShared = true)
    (hnone : s.dequeue t x.item = none ∨ s.dequeue t x.item = some []) (k : Nat) : s.takeField t (k + 1) = s := by
  have hopen : ((s.live? x.item.req x.item.reqOrder).isNone && !x.item.isShared) = false := by
    rcases hlive with hlive | hshared
    · simp [Option.isNone_eq_false_iff.2 hlive]
    · simp [hshared]
  rcases hnone with hnone | hnone
  · simp only [takeField, hrun, hread, hopen, hnone, Bool.false_eq_true, if_false]
  · simp only [takeField, hrun, hread, hopen, hnone, Bool.false_eq_true, if_false]

variable (hh : x.handles[x.round]? = some h) (hpoison : handlePoison h = false) (hfault : s.handleFault h = none)
  (hroom : x.bytes.length + handleBytes h ≤ 1048576) (hbytes : x.round ≠ 0 ∨ handleTag h ≠ 1)
  (hread : s.ioRead (s.ioFor t x.item) (dHint (slotDesc x 0)) (targetOf (handleAddr h)) (handleAddr h) (handleBytes h) = (.ok bs, u))
include hh hpoison hfault hroom hbytes hread

/-- R222, R224, R225: a handle's bytes join those before; with the last, or with an ill-formed subpart that rejects, the field ends. -/
theorem takeField_reads (k : Nat) : s.takeField t (k + 1) =
    if handleLast h || (s.rejectsText x && replacedIn (utf8Scan false (x.bytes ++ bs).length (x.bytes ++ bs)).1 != 0) then
      u.endField t x (x.bytes ++ bs) (s.rejectsText x)
    else takeField t k (u.joinField t (x.bytes ++ bs)) := by
  have hnotEmpty : (x.round == 0 && handleLast h && handleTag h == 1 && handleBytes h == 1) = false := by
    rcases hbytes with hround | htag
    · simp [hround]
    · simp [htag]
  simp only [takeField, hrun, hh, hnotEmpty, hpoison, hfault, hread, Bool.false_eq_true, if_false, if_neg (Nat.not_lt.2 hroom)]
  rfl

theorem doNormalise_last (hlast : handleLast h = true) : s.doNormalise t = u.endField t x (x.bytes ++ bs) (s.rejectsText x) := by
  obtain ⟨k, hk⟩ := doNormalise_takes hrun
  rw [hk, takeField_reads hrun hh hpoison hfault hroom hbytes hread, hlast]
  rfl

theorem doNormalise_awaits {y : Running} (hmore : handleLast h = false) (haccepts : s.rejectsText x = false)
    (hrun' : (u.joinField t (x.bytes ++ bs)).running? t opNormalise = some y) (hnext : y.handles[y.round]? = none)
    (hlive : ((u.joinField t (x.bytes ++ bs)).live? y.item.req y.item.reqOrder).isSome = true ∨ y.item.isShared = true)
    (hnone : (u.joinField t (x.bytes ++ bs)).dequeue t y.item = none ∨ (u.joinField t (x.bytes ++ bs)).dequeue t y.item = some []) :
    s.doNormalise t = u.joinField t (x.bytes ++ bs) := by
  obtain ⟨k, hk⟩ := doNormalise_takes hrun
  rw [hk, takeField_reads hrun hh hpoison hfault hroom hbytes hread, hmore, haccepts]
  cases k with
  | zero => rfl
  | succ k => exact takeField_waits hrun' hnext hlive hnone k

end

variable {t : Nat} {s u v : State} {x : Running} {bs : List (Nat × Bytes)}

-- TRIE_WALK and LATTICE_STEP (R228 to R232)

/-- The edge groups of a walk member's character starts, each with the trie nodes entered (R230). -/
def walkGroups (k : TokCfg) (text : Bytes) (x : Running) (s : State) : List (List Nat × List Nat) :=
  let starts := charStarts text.length 0 text
  (starts.filter fun a => a / 4096 % max 1 (fld (wImm x.item.wi 2) 15 0) == wImm x.item.wi 3).map
    (edgeGroup (fun n => leNat (s.tableRd x 1 (64 * n) 64)) k starts text)

/-- Trie nodes are looked up through a tile's trie cache, whose misses are counted (R229). -/
def cacheNodes (t : Nat) (k : TokCfg) (nodes : List Nat) (s : State) : State :=
  let c := nodes.foldl touchNode (if (s.tile t).trieTok = some k.id then (s.tile t).trieNodes else [], 0)
  (s.setTile t fun y => { y with trieTok := some k.id, trieNodes := c.1 }).count (tileCtr t 0x38) c.2

/-- R228 to R230: a walk member over a field that NORMALISE left writes the edge groups of its character starts. -/
theorem doTrieWalk_walks (h : s.Runs t 0x61 true x bs u) {k : TokCfg} {received : Nat} {text : Bytes} (htok : u.itemTok x.item = some k)
    (hfield : u.fieldOf x.item = some (received, text)) (htext : (readBytes bs 0).take text.length = text)
    (htouch : (u.cacheNodes t k ((u.walkGroups k text x).flatMap (·.2))).touchSlot t x 1
      ((0, 64) :: ((u.walkGroups k text x).flatMap (·.2)).map fun n => (64 * n, 64)) = (none, v)) :
    s.doTrieWalk t = v.finishText t x ((u.walkGroups k text x).flatMap fun p => p.1.flatMap (leBytes 8)) 0 0 := by
  rw [doTrieWalk, runSlots_ready h]
  simp only [htok, hfield, htext, Option.isSome_some, if_true]
  exact withTable_touched htouch _

/-- The edge groups that the members of a walk recorded, by their character starts; each member has one area of the stream (R231). -/
def latticeGroups (text edges : Bytes) (x : Running) (s : State) : List (Nat × List Nat) :=
  let g := s.walkMembers x.item
  let part := edges.length / g
  sortBy (fun (a b : Nat × List Nat) => decide (a.1 ≤ b.1)) ((List.range g).flatMap fun m =>
    readGroups ((charStarts text.length 0 text).filter fun a => a / 4096 % g == m) (words64 (slice edges (m * part) part)))

/-- R231, R232: a path through the recorded edges is written as a token list. -/
theorem doLatticeStep_segments (h : s.Runs t 0x62 true x bs u) {k : TokCfg} {received : Nat} {text : Bytes} {ts : List Nat}
    (htok : u.itemTok x.item = some k) (hfield : u.fieldOf x.item = some (received, text))
    (hpath : segment k text (u.latticeGroups text (readBytes bs 0) x) = some ts) :
    let o := tokenList k (wImm x.item.wi 0) (wImm x.item.wi 1) received ts
    s.doLatticeStep t = u.finishText t x o.1 (if o.2 = 0 then 0 else cbTrunc) o.2 := by
  unfold latticeGroups at hpath
  rw [doLatticeStep, runSlots_ready h]
  simp only [htok, hfield, Option.getD_some, hpath]

-- DETOK and STOP_MATCH (R235 to R240)

/-- The random reads of the detokeniser's table for some tokens, as (offset, length). -/
def detokReads (k : TokCfg) (rd : Nat → Nat → Bytes) (ts : List Nat) : List (Nat × Nat) :=
  ts.flatMap fun n =>
    let e := leNat (rd (8 * n) 8)
    (8 * n, 8) :: if bitAt e 40 || fld e 39 32 = 0 then [] else [(8 * k.vocab + fld e 31 0, fld e 39 32)]

/-- The bytes that the detokeniser's table gives some tokens. -/
def detokBytes (k : TokCfg) (rd : Nat → Nat → Bytes) (ts : List Nat) : Bytes :=
  ts.flatMap fun n =>
    let e := leNat (rd (8 * n) 8)
    if bitAt e 40 then [] else rd (8 * k.vocab + fld e 31 0) (fld e 39 32)

/-- The text state that a DETOK goes on from: its request's in a stage with REPEAT, else an empty one. -/
def detokState (i : Item) (s : State) : TextState :=
  match s.req? i.req with
  | some q => if s.itemRepeats i then s.textState q else {}
  | none => {}

theorem detokState_eq (i : Item) (s : State) :
    s.detokState i = if s.itemRepeats i then ((s.req? i.req).map s.textState).getD {} else {} := by
  cases hq : s.req? i.req with
  | none => simp only [detokState, hq, Option.map_none, Option.getD_none, ite_self]
  | some q => simp only [detokState, hq, Option.map_some, Option.getD_some]

/-- DETOK passes on what is whole of some bytes, and in a stage with REPEAT holds the rest back (R236). -/
def emitText (t : Nat) (x : Running) (bytes : Bytes) (s : State) : State :=
  let st := s.detokState x.item
  let all := st.held ++ bytes
  let y := utf8Scan (!(s.itemRepeats x.item)) all.length all
  let out := y.1.flatMap fun c => utf8Enc c.1
  (if s.itemRepeats x.item then
      (s.putTextState x.item { st with held := y.2 }).setOwner x.item fun q => { q with emitted := some out.length } else s).finishText t x out
    (if replacedIn y.1 = 0 then 0 else cbText) (replacedIn y.1)

theorem doDetok_emits (h : s.Runs t 0x63 true x bs u) {k : TokCfg} (htok : u.itemTok x.item = some k)
    (hvocab : ∀ n ∈ words32 (readBytes bs 0), n < k.vocab)
    (htouch : u.touchSlot t x 1 (detokReads k (u.tableRd x 1) (words32 (readBytes bs 0))) = (none, v)) :
    s.doDetok t = v.emitText t x (detokBytes k (u.tableRd x 1) (words32 (readBytes bs 0))) := by
  have hknown : (words32 (readBytes bs 0)).any (fun n => decide (k.vocab ≤ n)) = false := by simpa using hvocab
  rw [doDetok, runSlots_ready h]
  simp only [htok, hknown, Bool.false_eq_true, if_false]
  exact withTable_touched htouch _

/-- What STOP_MATCH has to go through: what DETOK passed on of its bytes, else all of them (R236, R238). -/
def emittedOf (q : Request) (bs : Bytes) : Bytes :=
  match q.emitted with
  | some n => bs.take n
  | none => bs

/-- R238, R239: the request's text state goes on through its stop strings, and what no string can hold any more is written. -/
theorem doStopMatch_matches (h : s.Runs t 0x64 true x bs u) {q : Request} (hq : u.req? x.item.req = some q) :
    let st := u.textState q
    let r := matchStops q.stops (emittedOf q (readBytes bs 0)) st.q st.tail []
    s.doStopMatch t = ((u.putTextState x.item (if r.1 then { matched := true, q := r.2.1 } else { st with q := r.2.1, tail := r.2.2.1 })).setOwner
      x.item fun q => { q with emitted := none }).finishText t x r.2.2.2 0 0 := by
  intro st r
  rw [doStopMatch, runSlots_ready h]
  simp only [hq, Option.map_some, Option.getD_some, Option.bind_some]
  rfl

-- MASK_APPLY (R244)

/-- The logits of a slice. -/
def logitsOf (bs : Bytes) : List W32 := (words32 bs).map (BitVec.ofNat 32)

/-- The tokens that a grammar's state `n` allows (R241). -/
def grammarMask (g : Grammar) (n : Nat) (s : State) : Nat :=
  let at' := fun (o n : Nat) => s.readMem (g.obj.base + o) n
  (stateMask g.vocab g.offMasks at' (leNat (at' (g.offStates + 16 * n) 16))).getD 0

/-- Logits are written as they are held. -/
def finishLogits (t : Nat) (x : Running) (logits : List W32) (s : State) : State :=
  s.finishItem t x { writes := [(8, logits.flatMap fun v => leBytes 4 v.toNat)] }

theorem doMaskApply_plain (h : s.Runs t 0x65 true x bs u) {q : Request} (hq : u.req? x.item.req = some q) (hnone : q.grammar = none) :
    s.doMaskApply t = u.finishLogits t x (logitsOf (readBytes bs 0)) := by
  rw [doMaskApply, runSlots_ready h]
  simp only [hq, hnone, Option.bind_some, Option.bind_none]
  rfl

theorem doMaskApply_masks (h : s.Runs t 0x65 true x bs u) {q : Request} (hq : u.req? x.item.req = some q) {b : Nat × Nat} {g : Grammar}
    (hgrammar : q.grammar = some b) (hg : u.grammarKey? b.2 = some g) :
    s.doMaskApply t = u.finishLogits t x ((logitsOf (readBytes bs 0)).zipIdx.map fun (v, j) =>
      maskLogit (bitAt (u.grammarMask g (wImm x.item.wi 1)) (wImm x.item.wi 2 + j)) v) := by
  rw [doMaskApply, runSlots_ready h]
  simp only [hq, hgrammar, hg, Option.bind_some]
  rfl

-- PACK (R259 to R262)

/-- The header of the passage list, the tokens of the whole query, and the entries of the list, as a PACK reads them (R251, R260). -/
def packList (bs : List (Nat × Bytes)) : Nat := uAt (readBytes bs 1) 0 32
def packQuery (bs : List (Nat × Bytes)) : List Nat := words32 (slice (readBytes bs 2) 32 (4 * uAt (readBytes bs 2) 8 4))
def packEntries (bs : List (Nat × Bytes)) : List PassageEntry :=
  (chunks 32 (slice (readBytes bs 1) 32 (32 * fld (packList bs) 127 96))).map readPassage

/-- The tokens of a prompt before any passage, and by how many they exceed the budget (R260). -/
def packFixed (p : PackTemplate) (bs : List (Nat × Bytes)) : Nat :=
  ((p.slots.filter (tsKind · == 0)).map fun y => (tsRun1 y).2).sum + (packQuery bs).length
def packExcess (p : PackTemplate) (x : Running) (bs : List (Nat × Bytes)) : Nat := packFixed p bs - wImm x.item.wi 0

/-- The side that a template's QUERY slot is cut at: 0, or no such slot, for none (R260). -/
def packSide (p : PackTemplate) : Nat := ((p.kind? 1).map tsQtrunc).getD 0

/-- The query that a prompt holds (R260). -/
def packedQuery (p : PackTemplate) (x : Running) (bs : List (Nat × Bytes)) : List Nat :=
  if packSide p = 2 then (packQuery bs).drop (packExcess p x bs) else (packQuery bs).take ((packQuery bs).length - packExcess p x bs)

/-- The passages that a PACK chooses (R261). -/
def packChoice (p : PackTemplate) (x : Running) (bs : List (Nat × Bytes)) : PackChoice :=
  match p.kind? 2 with
  | some y => choose (wImm x.item.wi 1 == 1) (tsRun1 y).2 (tsRun2 y).2 (tsMinTrim y) (packEntries bs) { room := wImm x.item.wi 0 - packFixed p bs }
  | none => { room := wImm x.item.wi 0 - packFixed p bs }

/-- A PACK ends with its prompt written; what it cut, skipped or left out as a duplicate is in its completion (R262). -/
def finishPrompt (t : Nat) (x : Running) (p : PackTemplate) (bs : List (Nat × Bytes)) (ps : List (PassageEntry × List Nat)) (s : State) : State :=
  let excess := packExcess p x bs
  let c := packChoice p x bs
  let y := layPrompt p (packedQuery p x bs) ps p.slots ([], [])
  let cut := c.skipped + b01 (c.cut != 0)
  s.finishItem t x {
    writes := [(8, promptBytes (wImm x.item.wi 0) (packList bs) excess c y.1 y.2)], aux := satTo 16 cut
    flags := (if excess != 0 || cut != 0 then cbTrunc else 0) + (if c.duplicates = 0 then 0 else cbDup) }

/-- A PACK goes on with the tokens of its passages, or ends with the fault of reading them. -/
def finishPlaced (t : Nat) (x : Running) (p : PackTemplate) (bs : List (Nat × Bytes)) :
    Except Nat (List (PassageEntry × List Nat)) × State → State
  | (.error f, s) => s.faultItem t x f
  | (.ok ps, s) => s.finishPrompt t x p bs ps

section
variable (h : s.Runs t 0x66 false x bs u) {p : PackTemplate} (htemplate : readTemplate (readBytes bs 0) = some p)
include h htemplate

theorem doPack_template : s.doPack t =
    if packExcess p x bs != 0 && (packSide p == 0 || decide ((packQuery bs).length ≤ packExcess p x bs)) then u.faultItem t x 1
    else finishPlaced t x p bs (readPlaced (u.ioFor t x.item) (packChoice p x bs).placed u) := by
  rw [doPack, opPack, runOp_ready h]
  simp only [htemplate]
  rfl

/-- R260: a prompt whose fixed tokens exceed the budget by what its query cannot give up is a fault. -/
theorem doPack_tooLong (hexcess : packExcess p x bs ≠ 0) (hquery : packSide p = 0 ∨ (packQuery bs).length ≤ packExcess p x bs) :
    s.doPack t = u.faultItem t x 1 :=
  (doPack_template h htemplate).trans (if_pos (by simpa using And.intro hexcess hquery))

theorem doPack_packs (hfits : packExcess p x bs = 0 ∨ (packSide p ≠ 0 ∧ packExcess p x bs < (packQuery bs).length))
    {ps : List (PassageEntry × List Nat)} (hread : readPlaced (u.ioFor t x.item) (packChoice p x bs).placed u = (.ok ps, v)) :
    s.doPack t = v.finishPrompt t x p bs ps := by
  rw [doPack_template h htemplate, if_neg (by simpa [or_iff_not_imp_left] using hfits), hread]
  rfl

end
end State

/-- Settles O46: NORMALISE by what its handle ends, the other rows by what their ready work item writes. -/
theorem textItemsWriteText : Obligations.TextItemsWriteText := by
  refine ⟨?normalise, ?ready⟩
  case normalise =>
    intro t s u x h bs hrun hh hpoison hfault hroom hbytes hread all reject chars n w
    refine ⟨fun hlast hreject hill => ?_, fun hlast hkept v htouch => ?_, fun y hmore haccepts hrun' hnext hlive hnone => ?_⟩
    · have hrejects : s.rejectsText x = true := hreject
      rw [exec_normalise, State.doNormalise_last hrun hh hpoison hfault hroom hbytes hread hlast, hrejects, State.endField_rejects hill]
    · rw [exec_normalise, State.doNormalise_last hrun hh hpoison hfault hroom hbytes hread hlast,
        State.endField_maps (bs := x.bytes ++ bs) (reject := s.rejectsText x) hkept htouch]
      rfl
    · rw [exec_normalise, State.doNormalise_awaits hrun hh hpoison hfault hroom hbytes hread hmore haccepts hrun' hnext hlive hnone]
      rfl
  case ready =>
    intro t s u x bs w i rd touch
    refine ⟨?trieWalk, ?latticeStep, ?detok, ?stopMatch, ?maskPlain, ?maskGrammar, ?pack⟩
    case trieWalk =>
      intro k received text h htok hfield htext starts gs c y v htouch
      rw [exec_trieWalk, State.doTrieWalk_walks h htok hfield htext htouch]
      rfl
    case latticeStep =>
      intro k received text ts h htok hfield g part groups hpath o
      rw [exec_latticeStep, State.doLatticeStep_segments h htok hfield hpath]
    case detok =>
      intro k v h htok hvocab htouch bytes st all y out
      rw [exec_detok, State.doDetok_emits h htok hvocab htouch, State.emitText, State.detokState_eq]
      rfl
    case stopMatch =>
      intro q h hq st text r
      rw [exec_stopMatch, State.doStopMatch_matches h hq]
      rfl
    case maskPlain =>
      intro q h hq hnone
      rw [exec_maskApply, State.doMaskApply_plain h hq hnone]
      rfl
    case maskGrammar =>
      intro q b g h hq hgrammar hg at' mask
      rw [exec_maskApply, State.doMaskApply_masks h hq hgrammar hg]
      rfl
    case pack =>
      intro p h htemplate list whole fixed excess side query c
      refine ⟨fun hexcess hquery => ?_, fun ps v hfits hread => ?_⟩
      · rw [exec_pack, State.doPack_tooLong h htemplate hexcess hquery]
      · rw [exec_pack, State.doPack_packs h htemplate hfits hread]
        rfl

end Sys2Proof.Machine
end

section
/-! PROOFS. SUBMIT, HANDLE_RETAIN, CANCEL and HANDLE_RELEASE (R268, R271, R287, R289, R362): what each answers, by the check that fails first
or the object that it names. -/

namespace Sys2Proof.Machine

theorem exec_submit (m : Msg) (s : State) : exec (.submit m) s = .next (s.after (s.doSubmit m)) := rfl
theorem exec_handleRetain (m : Msg) (s : State) : exec (.handleRetain m) s = .next (s.after (s.doHandleRetain m)) := rfl
theorem exec_cancel (m : Msg) (s : State) : exec (.cancel m) s = .next (s.after (s.doCancel m)) := rfl
theorem exec_handleRelease (m : Msg) (s : State) : exec (.handleRelease m) s = .next (s.after (s.doHandleRelease m)) := rfl

/-- A SUBMIT, or a HANDLE_RETAIN, that the gate passes is checked on the state that it was taken from. -/
theorem exec_submit_passes {retain : Bool} {m : Msg} {s : State} {d : Delivered} {q : Session}
    (ho : s.Admits (if retain then 0x38 else 0x10) m false d q) :
    exec (if retain then .handleRetain m else .submit m) s = .next (s.after ((s.untake d).submit q d retain)) := by
  cases retain
  case false => rw [if_neg Bool.false_ne_true, exec_submit, State.doSubmit, State.onMessage_passes (type := 0x10) ho rfl]
  case true => rw [if_pos rfl, exec_handleRetain, State.doHandleRetain, State.onMessage_passes (type := 0x38) ho rfl]

/-- The stages that a SUBMIT runs: those on the paths from its entry to its final stage (R110). -/
def submitStages (x : SubmitMsg) (pl : Plan) : List Stage := (pathOf pl x.entry x.final).filterMap (pl.stages[·]?)

/-- The final stage is a PREFILL stage, and the message asks that it retain (R287). -/
def retainsPrefix (x : SubmitMsg) (pl : Plan) : Bool :=
  (pl.stages[x.final]?).any (·.kind == 4) && (x.handle.map fun h => bitAt h.2.2 1).getD false

namespace State

-- Taking a message off what was delivered

@[simp] theorem untake_runs (d : Delivered) (s : State) (f : Nat) : (s.untake d).runs f = s.runs f := rfl
@[simp] theorem untake_req? (d : Delivered) (s : State) (r : Nat) : (s.untake d).req? r = s.req? r := rfl
@[simp] theorem untake_reqs (d : Delivered) (s : State) : (s.untake d).reqs = s.reqs := rfl
@[simp] theorem untake_prefixes (d : Delivered) (s : State) : (s.untake d).prefixes = s.prefixes := rfl

-- The checks of a SUBMIT (R268)

/-- The work items' payloads that a SUBMIT of the Leat's intake takes out with it (log 88). -/
def takeIntake (d : Delivered) (s : State) : State := if d.leat then { s with intakePlain := [] } else s

theorem takeIntake_fold (d : Delivered) (s : State) : (if d.leat then { s with intakePlain := [] } else s) = s.takeIntake d := rfl

/-- Taking the intake's payloads changes nothing else. -/
theorem takeIntake_eq (d : Delivered) (s : State) : ∃ l, s.takeIntake d = { s with intakePlain := l } := by
  unfold takeIntake
  split
  · exact ⟨[], rfl⟩
  · exact ⟨s.intakePlain, rfl⟩

@[simp] theorem takeIntake_runs (d : Delivered) (s : State) (f : Nat) : (s.takeIntake d).runs f = s.runs f := by
  obtain ⟨l, h⟩ := s.takeIntake_eq d
  rw [h]; rfl
@[simp] theorem takeIntake_plan? (d : Delivered) (s : State) (i : Nat) : (s.takeIntake d).plan? i = s.plan? i := by
  obtain ⟨l, h⟩ := s.takeIntake_eq d
  rw [h]; rfl
@[simp] theorem takeIntake_cfg (d : Delivered) (s : State) : (s.takeIntake d).cfg = s.cfg := by
  obtain ⟨l, h⟩ := s.takeIntake_eq d
  rw [h]
@[simp] theorem takeIntake_twin (d : Delivered) (s : State) : (s.takeIntake d).twin = s.twin := by
  obtain ⟨l, h⟩ := s.takeIntake_eq d
  rw [h]
@[simp] theorem takeIntake_power (d : Delivered) (s : State) : (s.takeIntake d).power = s.power := by
  obtain ⟨l, h⟩ := s.takeIntake_eq d
  rw [h]

/-- A twin that is still SYNCING takes no request (R268). -/
def twinRefuses (s : State) : Bool := s.cfg.twin.role != 0 && s.twin.state == 1

theorem twinRefuses_iff {s : State} : s.twinRefuses = true ↔ s.cfg.twin.role ≠ 0 ∧ s.twin.state = 1 := by
  simp [twinRefuses]

/-- A function that some stages need is stopped, or a pool of theirs is gated. -/
def stagesStopped (s : State) (xs : List Stage) : Bool :=
  !(s.runs (stagesNeed xs)) || xs.any fun y => ((bindStage s.cfg.pools y).map (bitAt s.power.gate)).getD false

theorem stagesStopped_iff {s : State} {xs : List Stage} : s.stagesStopped xs = true ↔
    s.runs (stagesNeed xs) = false ∨ (xs.any fun y => ((bindStage s.cfg.pools y).map (bitAt s.power.gate)).getD false) = true := by
  rw [stagesStopped, Bool.or_eq_true, Bool.not_eq_true']

/-- The payload is read, and the plan that it names is held. -/
structure SubmitReads (s : State) (d : Delivered) (x : SubmitMsg) (pl : Plan) : Prop where
  running : s.runs (fnHopper + fnPools) = true
  twin : s.twinRefuses = false
  read : readSubmit d.frags.flatten = some x
  plan : s.plan? x.plan = some pl

/-- A HANDLE_RETAIN retains, and nothing that the stages need is stopped or gated. -/
structure SubmitRuns (s : State) (d : Delivered) (retain : Bool) (x : SubmitMsg) (pl : Plan) : Prop extends s.SubmitReads d x pl where
  row : retain = true → retainsPrefix x pl = true
  working : s.stagesStopped (submitStages x pl) = false

/-- The objects that the message names are held and fit it. -/
structure SubmitFits (s : State) (d : Delivered) (retain : Bool) (x : SubmitMsg) (pl : Plan) : Prop extends s.SubmitRuns d retain x pl where
  objects : (s.takeIntake d).checkObjects x pl (submitStages x pl) = none

/-- What a message whose objects fit meets last: the limits of its share, of riders and of handles, and then its admission. -/
def admitIfRoom (q : Session) (d : Delivered) (x : SubmitMsg) (pl : Plan) (s : State) : State :=
  if s.shareRefused x (submitStages x pl) then s.reply q.id d.msgId (refuse stShare 0) 0
  else if s.entryRefused (submitStages x pl) then s.reply q.id d.msgId (refuse stCapacity 0) 0
  else if s.handlesFull x then s.reply q.id d.msgId refLimit 0
  else match s.admitNow d x pl (pathOf pl x.entry x.final) with
    | .error e => e.2.reply q.id d.msgId e.1 0
    | .ok (r, v) => (v.reply q.id d.msgId { detail := r } 0).afterAdmission r x ((submitStages x pl).any (·.repeats))

variable {s : State} {q : Session} {d : Delivered} {retain : Bool} {x : SubmitMsg} {pl : Plan}

theorem submit_stopped (hrun : s.runs (fnHopper + fnPools) = false) :
    s.submit q d retain = (s.takeIntake d).reply q.id d.msgId refStopped 0 := by
  simp only [submit, takeIntake_fold, takeIntake_runs, hrun, Bool.not_false, if_true]

theorem submit_twinState (hrun : s.runs (fnHopper + fnPools) = true) (htwin : s.twinRefuses = true) :
    s.submit q d retain = (s.takeIntake d).reply q.id d.msgId refTwinState 0 := by
  unfold twinRefuses at htwin
  simp only [submit, takeIntake_fold, takeIntake_runs, takeIntake_cfg, takeIntake_twin, hrun, htwin, Bool.not_true, Bool.false_eq_true,
    if_true, if_false]

theorem submit_malformed (hrun : s.runs (fnHopper + fnPools) = true) (htwin : s.twinRefuses = false)
    (hread : readSubmit d.frags.flatten = none) :
    s.submit q d retain = (s.takeIntake d).reply q.id d.msgId refMalformed 0 := by
  unfold twinRefuses at htwin
  simp only [submit, takeIntake_fold, takeIntake_runs, takeIntake_cfg, takeIntake_twin, hrun, htwin, hread, Bool.not_true,
    Bool.false_eq_true, if_false]

theorem submit_noPlan (hrun : s.runs (fnHopper + fnPools) = true) (htwin : s.twinRefuses = false)
    (hread : readSubmit d.frags.flatten = some x) (hplan : s.plan? x.plan = none) :
    s.submit q d retain = (s.takeIntake d).reply q.id d.msgId refNotHeld 0 := by
  unfold twinRefuses at htwin
  simp only [submit, takeIntake_fold, takeIntake_runs, takeIntake_cfg, takeIntake_twin, takeIntake_plan?, hrun, htwin, hread, hplan,
    Bool.not_true, Bool.false_eq_true, if_false]

/-- With its plan held, a message is refused in turn for its row, its stages and its objects. -/
theorem submit_reads (hreads : s.SubmitReads d x pl) :
    s.submit q d retain =
      if retain && !(retainsPrefix x pl) then (s.takeIntake d).reply q.id d.msgId refMalformed 0
      else if s.stagesStopped (submitStages x pl) then (s.takeIntake d).reply q.id d.msgId refStopped 0
      else match (s.takeIntake d).checkObjects x pl (submitStages x pl) with
        | some o => (s.takeIntake d).reply q.id d.msgId o 0
        | none => (s.takeIntake d).admitIfRoom q d x pl := by
  obtain ⟨hrun, htwin, hread, hplan⟩ := hreads
  unfold twinRefuses at htwin
  simp only [submit, takeIntake_fold, takeIntake_runs, takeIntake_cfg, takeIntake_twin, takeIntake_plan?, takeIntake_power, hrun, htwin,
    hread, hplan, Bool.not_true, Bool.false_eq_true, if_false]
  rfl

theorem submit_retainsNothing (hreads : s.SubmitReads d x pl) (hretain : retain = true) (hrow : retainsPrefix x pl = false) :
    s.submit q d retain = (s.takeIntake d).reply q.id d.msgId refMalformed 0 := by
  rw [submit_reads hreads, if_pos (by rw [hretain, hrow]; rfl)]

theorem submit_stagesStopped (hreads : s.SubmitReads d x pl) (hrow : retain = true → retainsPrefix x pl = true)
    (hstopped : s.stagesStopped (submitStages x pl) = true) :
    s.submit q d retain = (s.takeIntake d).reply q.id d.msgId refStopped 0 := by
  rw [submit_reads hreads, if_neg (by simpa using hrow), if_pos hstopped]

theorem submit_objects {o : Outcome} (hruns : s.SubmitRuns d retain x pl)
    (ho : (s.takeIntake d).checkObjects x pl (submitStages x pl) = some o) :
    s.submit q d retain = (s.takeIntake d).reply q.id d.msgId o 0 := by
  rw [submit_reads hruns.toSubmitReads, if_neg (by simpa using hruns.row), if_neg (Bool.eq_false_iff.1 hruns.working), ho]

theorem submit_fits (hfits : s.SubmitFits d retain x pl) : s.submit q d retain = (s.takeIntake d).admitIfRoom q d x pl := by
  rw [submit_reads hfits.toSubmitReads, if_neg (by simpa using hfits.row), if_neg (Bool.eq_false_iff.1 hfits.working), hfits.objects]

theorem admitIfRoom_share (hshare : s.shareRefused x (submitStages x pl) = true) :
    s.admitIfRoom q d x pl = s.reply q.id d.msgId (refuse stShare 0) 0 := by
  rw [admitIfRoom, if_pos hshare]

section
variable (hshare : s.shareRefused x (submitStages x pl) = false)
include hshare

theorem admitIfRoom_capacity (hentry : s.entryRefused (submitStages x pl) = true) :
    s.admitIfRoom q d x pl = s.reply q.id d.msgId (refuse stCapacity 0) 0 := by
  rw [admitIfRoom, if_neg (Bool.eq_false_iff.1 hshare), if_pos hentry]

variable (hentry : s.entryRefused (submitStages x pl) = false)
include hentry

theorem admitIfRoom_limit (hfull : s.handlesFull x = true) : s.admitIfRoom q d x pl = s.reply q.id d.msgId refLimit 0 := by
  rw [admitIfRoom, if_neg (Bool.eq_false_iff.1 hshare), if_neg (Bool.eq_false_iff.1 hentry), if_pos hfull]

variable (hroom : s.handlesFull x = false)
include hroom

theorem admitIfRoom_noMemory {e : Outcome × State} (hadmit : s.admitNow d x pl (pathOf pl x.entry x.final) = .error e) :
    s.admitIfRoom q d x pl = e.2.reply q.id d.msgId e.1 0 := by
  rw [admitIfRoom, if_neg (Bool.eq_false_iff.1 hshare), if_neg (Bool.eq_false_iff.1 hentry), if_neg (Bool.eq_false_iff.1 hroom), hadmit]

theorem admitIfRoom_admits {r : Nat} {v : State} (hadmit : s.admitNow d x pl (pathOf pl x.entry x.final) = .ok (r, v)) :
    s.admitIfRoom q d x pl = (v.reply q.id d.msgId { detail := r } 0).afterAdmission r x ((submitStages x pl).any (·.repeats)) := by
  rw [admitIfRoom, if_neg (Bool.eq_false_iff.1 hshare), if_neg (Bool.eq_false_iff.1 hentry), if_neg (Bool.eq_false_iff.1 hroom), hadmit]

end

-- CANCEL (R271, R362)

/-- A CANCEL's payload has the layout of R362: its length, an entry of the table, and its reserved bytes 0. -/
structure CancelWhole (p : Bytes) : Prop where
  length : p.length = 16
  entry : uAt p 0 2 < 4096
  reserved : allZero (p.drop 2) = true

theorem CancelWhole.check {p : Bytes} (hwhole : CancelWhole p) :
    (p.length != 16 || decide (4096 ≤ uAt p 0 2) || !(allZero (p.drop 2))) = false := by
  simp [hwhole.length, hwhole.entry, hwhole.reserved]

section
variable {m : Msg} (ho : s.Admits 0x12 m false d q) (hwhole : CancelWhole d.frags.flatten)
include ho hwhole

theorem doCancel_undecided {r : Request} (hr : s.req? (uAt d.frags.flatten 0 2) = some r) (hown : r.session = q.id)
    (hst : r.status = none) : s.doCancel m =
      ((s.untake d).endRequest (uAt d.frags.flatten 0 2) stCancelled).reply q.id d.msgId { status := stCancelled } 0 := by
  rw [doCancel, onMessage_passes ho rfl]
  simp only [hwhole.check, untake_req?, hr, hown, hst, bne_self_eq_false, Bool.false_eq_true, if_false]

theorem doCancel_ended {r : Request} {st : Nat} (hr : s.req? (uAt d.frags.flatten 0 2) = some r) (hown : r.session = q.id)
    (hst : r.status = some st) : s.doCancel m = (s.untake d).reply q.id d.msgId { status := st } 0 := by
  rw [doCancel, onMessage_passes ho rfl]
  simp only [hwhole.check, untake_req?, hr, hown, hst, bne_self_eq_false, Bool.false_eq_true, if_false]

theorem doCancel_notHeld (hother : ∀ r, s.req? (uAt d.frags.flatten 0 2) = some r → r.session ≠ q.id) :
    s.doCancel m = (s.untake d).reply q.id d.msgId refNotHeld 0 := by
  rw [doCancel, onMessage_passes ho rfl]
  rcases hr : s.req? (uAt d.frags.flatten 0 2) with _ | r
  case none => simp only [hwhole.check, untake_req?, hr, Bool.false_eq_true, if_false]
  case some =>
    simp only [hwhole.check, untake_req?, hr, bne_iff_ne.2 (hother r hr), Bool.false_eq_true, if_false, if_true]

end

-- HANDLE_RELEASE (R289)

/-- A HANDLE_RELEASE has its length, and SERVE runs. -/
structure ReleaseTaken (s : State) (m : Msg) (d : Delivered) (q : Session) : Prop extends s.Admits 0x39 m false d q where
  length : d.frags.flatten.length = 8
  running : s.runs fnServe = true

/-- The open request that is still to retain under a handle (R289). -/
def pendingRetention (h : Nat) (s : State) : Option (Nat × Request) :=
  s.reqs.find? fun r => r.2.retain && !r.2.retained && !r.2.retainCancelled && r.2.status.isNone && r.2.prefixHandle == h

section
variable {m : Msg} (htaken : s.ReleaseTaken m d q)
include htaken

theorem doHandleRelease_held {x : Prefix} (hx : s.prefixes.find? (·.handle == uAt d.frags.flatten 0 8) = some x) :
    s.doHandleRelease m = ((s.untake d).dropPrefix x false).reply q.id d.msgId {} 0 := by
  obtain ⟨ho, hlength, hrunning⟩ := htaken
  rw [doHandleRelease, onMessage_passes ho rfl]
  simp only [hlength, untake_runs, hrunning, untake_prefixes, hx, bne_self_eq_false, Bool.not_true, Bool.false_eq_true, if_false]

variable (hnone : s.prefixes.find? (·.handle == uAt d.frags.flatten 0 8) = none)
include hnone

theorem doHandleRelease_pending {r : Nat × Request} (hr : s.pendingRetention (uAt d.frags.flatten 0 8) = some r) :
    s.doHandleRelease m = ((s.untake d).setReq r.1 fun x => { x with retainCancelled := true }).reply q.id d.msgId {} 0 := by
  obtain ⟨ho, hlength, hrunning⟩ := htaken
  unfold pendingRetention at hr
  rw [doHandleRelease, onMessage_passes ho rfl]
  simp only [hlength, untake_runs, hrunning, untake_prefixes, hnone, untake_reqs, hr, bne_self_eq_false, Bool.not_true, Bool.false_eq_true,
    if_false]

theorem doHandleRelease_notHeld (hr : s.pendingRetention (uAt d.frags.flatten 0 8) = none) :
    s.doHandleRelease m = (s.untake d).reply q.id d.msgId refNotHeld 0 := by
  obtain ⟨ho, hlength, hrunning⟩ := htaken
  unfold pendingRetention at hr
  rw [doHandleRelease, onMessage_passes ho rfl]
  simp only [hlength, untake_runs, hrunning, untake_prefixes, hnone, untake_reqs, hr, bne_self_eq_false, Bool.not_true, Bool.false_eq_true,
    if_false]

end
end State

/-- Settles O15: the checks in the order of R268, one lemma for each, and the admission past them. -/
theorem submitChecksThenAdmits : Obligations.SubmitChecksThenAdmits := by
  intro retain m s d q ho c v u answer
  have hexec : exec c s = .next (s.after (v.submit q d retain)) := exec_submit_passes ho
  have hanswer : ∀ o, v.submit q d retain = (v.takeIntake d).reply q.id d.msgId o 0 → answer o := fun o h => hexec.trans (h ▸ rfl)
  refine ⟨fun hrun => hanswer _ (State.submit_stopped hrun), fun hrun hrole hstate => ?twinState, fun hrun htwin => ?serves⟩
  case twinState => exact hanswer _ (State.submit_twinState hrun (State.twinRefuses_iff.2 ⟨hrole, hstate⟩))
  have hserves : v.twinRefuses = false := Bool.eq_false_iff.2 fun h => htwin (State.twinRefuses_iff.1 h)
  refine ⟨fun hread => hanswer _ (State.submit_malformed hrun hserves hread), fun x hread =>
    ⟨fun hplan => hanswer _ (State.submit_noPlan hrun hserves hread hplan), fun pl hplan => ?reads⟩⟩
  intro xs retains stopped
  have hreads : v.SubmitReads d x pl := ⟨hrun, hserves, hread, hplan⟩
  refine ⟨fun hretain hrow => hanswer _ (State.submit_retainsNothing hreads hretain hrow), fun hrow =>
    ⟨fun hstopped => hanswer _ (State.submit_stagesStopped hreads hrow (State.stagesStopped_iff.2 hstopped)), ?works⟩⟩
  have hruns (hworks : ¬stopped) : v.SubmitRuns d retain x pl :=
    ⟨hreads, hrow, Bool.eq_false_iff.2 fun h => hworks (State.stagesStopped_iff.1 h)⟩
  refine ⟨fun hworks o hobjects => hanswer o (State.submit_objects (hruns hworks) hobjects), fun hworks hobjects => ?fits⟩
  have hfits : v.submit q d retain = u.admitIfRoom q d x pl := State.submit_fits ⟨hruns hworks, hobjects⟩
  refine ⟨fun hshare => hanswer _ (hfits.trans (State.admitIfRoom_share hshare)),
    fun hshare hentry => hanswer _ (hfits.trans (State.admitIfRoom_capacity hshare hentry)),
    fun hshare hentry hfull => hanswer _ (hfits.trans (State.admitIfRoom_limit hshare hentry hfull)),
    fun hshare hentry hroom => ?admits⟩
  rcases hadmit : u.admitNow d x pl (pathOf pl x.entry x.final) with e | ⟨r, w⟩
  case error => rw [hexec, hfits, State.admitIfRoom_noMemory hshare hentry hroom hadmit]
  case ok => rw [hexec, hfits, State.admitIfRoom_admits hshare hentry hroom hadmit]; rfl

/-- Settles O17: CANCEL by what its entry holds, HANDLE_RELEASE by what its handle names. -/
theorem cancelAndReleaseEndTheirObject : Obligations.CancelAndReleaseEndTheirObject := by
  refine ⟨?cancel, ?release⟩
  case cancel =>
    intro m s d q r ho hlength hr hbound hreserved u
    subst hr
    have hwhole : State.CancelWhole d.frags.flatten := ⟨hlength, hbound, hreserved⟩
    refine ⟨fun x hx hown hst => ?_, fun x st hx hown hst => ?_, fun hother => ?_⟩
    · rw [exec_cancel, State.doCancel_undecided ho hwhole hx hown hst]
    · rw [exec_cancel, State.doCancel_ended ho hwhole hx hown hst]
    · rw [exec_cancel, State.doCancel_notHeld ho hwhole hother]
  case release =>
    intro m s d q ho hlength hrunning u h pendingOf
    have htaken : s.ReleaseTaken m d q := ⟨ho, hlength, hrunning⟩
    refine ⟨fun x hx => ?_, fun hnone r hr => ?_, fun hnone hr => ?_⟩
    · rw [exec_handleRelease, State.doHandleRelease_held htaken hx]
    · rw [exec_handleRelease, State.doHandleRelease_pending htaken hnone hr]
    · rw [exec_handleRelease, State.doHandleRelease_notHeld htaken hnone hr]

end Sys2Proof.Machine
end

section
/-! PROOFS. Writes to HBM and the bad-line table (R294, R447): which bytes a write stores, and which lines leave the table. -/

namespace Sys2Proof.Machine
namespace State

/-- A write of `n` bytes at `a` covers the 64-byte line `l` whole (R447). -/
def coversLine (a n l : Nat) : Bool := decide (a ≤ l * 64) && decide (l * 64 + 64 ≤ a + n)

theorem coversLine_iff {a n l : Nat} : coversLine a n l = true ↔ a ≤ l * 64 ∧ l * 64 + 64 ≤ a + n := by simp [coversLine]

theorem meets_line_iff {a n l : Nat} : meets a n (l * 64) 64 = true ↔ a < l * 64 + 64 ∧ l * 64 < a + n := by simp [meets]

/-- A write meets the line of each of its bytes. -/
theorem meets_line_of_lt {a n i : Nat} (h : i < n) : meets a n ((a + i) / 64 * 64) 64 = true := meets_line_iff.2 (by omega)

theorem meets_line_of_coversLine {a n l : Nat} (h : coversLine a n l = true) : meets a n (l * 64) 64 = true := by
  have hcovers := coversLine_iff.1 h
  exact meets_line_iff.2 (by omega)

/-- The listed lines that a write of `n` bytes at `a` meets. -/
def hitLines (a n : Nat) (s : State) : List Nat := s.errors.badLines.filter fun l => meets a n (l * 64) 64

theorem mem_hitLines {a n l : Nat} {s : State} : l ∈ s.hitLines a n ↔ l ∈ s.errors.badLines ∧ meets a n (l * 64) 64 = true := List.mem_filter

/-- Of these, the lines that it covers in part. -/
def partLines (a n : Nat) (s : State) : List Nat :=
  (s.hitLines a n).filter fun l => decide (l * 64 < a) || decide (a + n < l * 64 + 64)

theorem mem_partLines {a n l : Nat} {s : State} :
    l ∈ s.partLines a n ↔ l ∈ s.errors.badLines ∧ meets a n (l * 64) 64 = true ∧ ¬coversLine a n l = true := by
  have hpart : (l * 64 < a ∨ a + n < l * 64 + 64) ↔ ¬coversLine a n l = true := by rw [coversLine_iff]; omega
  simp only [partLines, List.mem_filter, mem_hitLines, Bool.or_eq_true, decide_eq_true_eq, hpart, and_assoc]

/-- A listed line leaves the table exactly where a write covers it whole: one that it misses and one that it covers in part stay. -/
theorem staysListed_eq {a n l : Nat} {s : State} (h : l ∈ s.errors.badLines) :
    (!(s.hitLines a n).contains l || (s.partLines a n).contains l) = !coversLine a n l := by
  rw [Bool.eq_iff_iff]
  simp only [Bool.or_eq_true, Bool.not_eq_true', ← Bool.not_eq_true, List.contains_iff_mem, mem_hitLines, mem_partLines, h, true_and]
  refine ⟨?stays, fun hnot => ?whole⟩
  case stays =>
    rintro (hmiss | ⟨-, hnot⟩)
    · exact mt meets_line_of_coversLine hmiss
    · exact hnot
  case whole =>
    by_cases hmeets : meets a n (l * 64) 64 = true
    · exact .inr ⟨hmeets, hnot⟩
    · exact .inl hmeets

/-- Bytes for a write at `a`, in some lines those that stand there and elsewhere the given ones. -/
def bytesSparing (spared : List Nat) (a : Nat) (bs : Bytes) (s : State) : Bytes :=
  bs.zipIdx.map fun (b, i) => if spared.contains ((a + i) / 64) then Memory.read s.mem (a + i) else b

@[simp] theorem bytesSparing_length (spared : List Nat) (a : Nat) (bs : Bytes) (s : State) :
    (s.bytesSparing spared a bs).length = bs.length := by simp [bytesSparing]

@[simp] theorem bytesSparing_nil (a : Nat) (bs : Bytes) (s : State) : s.bytesSparing [] a bs = bs := List.zipIdx_map_fst 0 bs

theorem bytesSparing_getD {spared : List Nat} {a i : Nat} {bs : Bytes} {s : State} (h : i < bs.length) :
    (s.bytesSparing spared a bs).getD i 0 = if (a + i) / 64 ∈ spared then Memory.read s.mem (a + i) else bs.getD i 0 := by
  simp [bytesSparing, List.getD_eq_getElem?_getD, h]

/-- A write, whether it meets a listed line or none: it stores its bytes but in lines covered in part, and the lines that it covers whole
leave the bad-line table. -/
theorem portWrite_eq (a : Nat) (bs : Bytes) (s : State) :
    s.portWrite a bs = { s.writeMem a (s.bytesSparing (s.partLines a bs.length) a bs) with
      errors := { s.errors with badLines := s.errors.badLines.filter fun l => !coversLine a bs.length l } } := by
  rw [← List.filter_congr fun l hl => staysListed_eq hl]
  by_cases hhit : s.hitLines a bs.length = []
  case pos =>
    have hpart : s.partLines a bs.length = [] := by rw [partLines, hhit, List.filter_nil]
    rw [hpart, hhit, bytesSparing_nil]
    simp only [List.contains_nil, Bool.not_false, Bool.true_or, List.filter_true]
    exact if_pos (List.isEmpty_iff.2 hhit)
  case neg => exact if_neg (mt List.isEmpty_iff.1 hhit)

theorem portWrite_memOk {s : State} (h : s.memOk) (a : Nat) (bs : Bytes) : (s.portWrite a bs).memOk := by
  rw [portWrite_eq]
  exact writeMem_memOk s a _ h

theorem mem_portWrite_badLines {a l : Nat} {bs : Bytes} {s : State} :
    l ∈ (s.portWrite a bs).errors.badLines ↔ l ∈ s.errors.badLines ∧ ¬(a ≤ l * 64 ∧ l * 64 + 64 ≤ a + bs.length) := by
  rw [portWrite_eq, ← coversLine_iff]
  simp

section
variable {s : State} (hmem : s.memOk) {a : Nat} {bs : Bytes}
include hmem

theorem read_portWrite_outside {x : Nat} (h : x < a ∨ a + bs.length ≤ x) :
    Memory.read (s.portWrite a bs).mem x = Memory.read s.mem x := by
  rw [portWrite_eq, writeMem, Memory.read_writeN _ _ _ _ hmem, bytesSparing_length, if_neg (by omega)]

theorem read_portWrite_inside {i : Nat} (h : i < bs.length) : Memory.read (s.portWrite a bs).mem (a + i) =
    if (a + i) / 64 ∈ s.partLines a bs.length then Memory.read s.mem (a + i) else bs.getD i 0 := by
  rw [portWrite_eq, writeMem, Memory.read_writeN _ _ _ _ hmem, bytesSparing_length, if_pos (by omega), Nat.add_sub_cancel_left,
    bytesSparing_getD h]

end
end State

/-- Settles O51: the bytes outside the write, those inside by whether their line is listed and covered in part, and the table. -/
theorem hbmWritesSpareListedLines : Obligations.HbmWritesSpareListedLines := by
  intro s a bs hmem t covered
  have hpart : ∀ i < bs.length, (a + i) / 64 ∈ s.partLines a bs.length ↔ (a + i) / 64 ∈ s.errors.badLines ∧ ¬covered ((a + i) / 64) :=
    fun i hi => by simp only [State.mem_partLines, State.meets_line_of_lt hi, true_and, State.coversLine_iff, covered]
  refine ⟨State.portWrite_memOk hmem a bs, fun x => State.read_portWrite_outside hmem, fun i hi hstored => ?stored,
    fun i hi hlisted hspared => ?spared, fun l => State.mem_portWrite_badLines⟩
  case stored =>
    have hnot : (a + i) / 64 ∉ s.partLines a bs.length := fun h =>
      have ⟨hlisted, hspared⟩ := (hpart i hi).1 h
      hspared (hstored hlisted)
    rw [State.read_portWrite_inside hmem hi, if_neg hnot]
  case spared => rw [State.read_portWrite_inside hmem hi, if_pos ((hpart i hi).2 ⟨hlisted, hspared⟩)]

end Sys2Proof.Machine
end

section
/-! PROOFS. The step with no command waiting: one tick of the port's clock, and nothing that goes on by itself on a quiet device; and a command
by its direct effect. -/

namespace Sys2Proof.Machine

/-- A command whose direct effect is `u` leaves what `u` is equal to. -/
theorem exec_of_effect {c : Instr} {s u v : State} (hexec : exec c s = .next (s.after u)) (heffect : u = v) :
    exec c s = .next (s.after v) := heffect ▸ hexec
namespace State

section
variable {t : State} (hquiet : t.Quiet)
include hquiet

theorem Quiet.setUp : t.setUp = t := by
  simp only [State.setUp, hquiet.wheels, hquiet.hot, hquiet.merges, hquiet.successors, hquiet.old, hquiet.texts, reapText, List.foldl_nil,
    ite_self, Bool.false_and, Bool.false_eq_true, if_false, List.isEmpty_nil, Bool.true_or, if_true]

theorem Quiet.lostOwners : t.lostOwners = t := by simp only [State.lostOwners, hquiet.exchanges, List.filter_nil, List.foldl_nil]

theorem Quiet.stepColls : t.stepColls = t := by simp only [State.stepColls, hquiet.collectives, List.foldl_nil]

theorem Quiet.drainWaiting : t.drainWaiting = t := by simp only [State.drainWaiting, hquiet.writes, List.filter_nil, List.foldl_nil]

theorem Quiet.drainRepeats : t.drainRepeats = t := by simp only [State.drainRepeats, hquiet.repeats, List.filter_nil, List.foldl_nil]

theorem Quiet.giveTokens : t.giveTokens = t := by simp only [State.giveTokens, hquiet.tokens, List.filter_nil, List.foldl_nil]

theorem Quiet.goOnSteps : t.goOnSteps = t := by simp only [State.goOnSteps, hquiet.steps, List.foldl_nil]

theorem Quiet.retryBlocked : t.retryBlocked = t := by simp only [State.retryBlocked, hquiet.blocked, List.foldl_nil]

theorem Quiet.formSteps : t.formSteps = t := by simp only [State.formSteps, hquiet.reqs, List.filter_nil, List.foldl_nil]

theorem Quiet.settle : t.settle = t := by
  simp only [State.settle, hquiet.control, hquiet.controls, Option.isNone_none, List.isEmpty_nil, Bool.and_self, if_true]

/-- Nothing goes on by itself in a quiet state. -/
theorem Quiet.advance : t.advance = t := by
  simp only [State.advance, hquiet.debug, Bool.false_and, Bool.false_eq_true, if_false, hquiet.setUp, hquiet.lostOwners, hquiet.stepColls,
    hquiet.drainWaiting, hquiet.drainRepeats, hquiet.giveTokens, hquiet.reqs, List.foldl_nil, hquiet.goOnSteps, hquiet.retryBlocked,
    hquiet.formSteps, hquiet.settle]

end
end State

theorem step_idle {s : State} (h : s.pending = []) : step s = .next s.tick := by simp only [step, h]

/-- Settles O2: the idle step is a tick, and each thing that can go on has nothing to do in a quiet state. -/
theorem idleTicksAndQuietStays : Obligations.IdleTicksAndQuietStays := by
  refine ⟨fun s hempty => ?idle, fun s t hquiet => ?quiet⟩
  case idle => rw [step_idle hempty]; rfl
  case quiet => rw [State.after, hquiet.advance]

end Sys2Proof.Machine
end

section
/-! PROOFS. What a sub-port says of itself (R329, R332, R333, R398, R446): hellos and LLDP frames, as its link comes up and by their timers. -/

namespace Sys2Proof.Machine

namespace State

-- A sub-port's own state

theorem sub?_setSub (s : State) (sub : Nat) (f : SubPort → SubPort) : (s.setSub sub f).sub? sub = (s.sub? sub).map f := by
  simp only [sub?, setSub]
  induction s.subs with
  | nil => rfl
  | cons x r ih =>
    by_cases h : x.1 = sub
    · simp [h]
    · have hne : (x.1 == sub) = false := beq_false_of_ne h
      simpa only [List.map_cons, hne, Bool.false_eq_true, if_false, List.find?_cons] using ih

theorem setSub_setSub (s : State) (sub : Nat) (f g : SubPort → SubPort) : (s.setSub sub f).setSub sub g = s.setSub sub fun p => g (f p) := by
  simp only [setSub, List.map_map]
  refine congrArg (fun l => { s with subs := l }) (List.map_congr_left fun p _ => ?_)
  by_cases h : p.1 = sub <;> simp [h]

/-- The sub-port that `lookupD` finds is the one that `sub?` finds. -/
theorem lookupD_subs {s : State} {sub : Nat} {p : SubPort} (hp : s.sub? sub = some p) : lookupD sub s.subs {} = p := by
  show (s.sub? sub).getD {} = p
  rw [hp, Option.getD_some]

/-- `setSub` where the model writes the key as it stands. -/
theorem setSub_eq (s : State) (sub : Nat) (f : SubPort → SubPort) :
    ({ s with subs := s.subs.map fun p => if p.1 == sub then (p.1, f p.2) else p } : State) = s.setSub sub f := by
  refine congrArg (fun l => { s with subs := l }) (List.map_congr_left fun p _ => ?_)
  by_cases h : p.1 = sub <;> simp [h]

-- Hellos and LLDP frames (R332, R333)

/-- A hello of a sub-port goes to the IPv6 group, and with an IPv4 address a copy to the IPv4 group; its bytes and the address are those of
any state `s` with the same identity. -/
theorem sendHello_eq {sub : Nat} {s v : State} (hpayload : v.helloPayload sub = s.helloPayload sub) (haddr : v.addrOf sub = s.addrOf sub) :
    v.sendHello sub = if allZero (s.addrOf sub).v4 then v.emitOn sub (.hello sub true (s.helloPayload sub))
      else (v.emitOn sub (.hello sub true (s.helloPayload sub))).emitOn sub (.hello sub false (s.helloPayload sub)) := by
  have hsent (o : Out) : (v.emitOn sub o).addrOf sub = s.addrOf sub := by rw [← haddr, addrOf, (emitOn_sends sub o v).cfg, addrOf]
  simp only [sendHello, hsent, hpayload]

section
variable {s : State} {sub : Nat} {p : SubPort}

theorem inService_iff (hlive : s.portLive = true) : s.inService = true ↔ s.boot.service = 1 := by
  simp only [inService, hlive, Bool.and_true, beq_iff_eq]

theorem helloOn_sends (hp : s.sub? sub = some p) (hlive : s.portLive = true) (hservice : s.boot.service = 1) (hworks : s.works fnPort = true)
    (hup : p.up = true) : s.helloOn sub = (s.setSub sub fun p => { p with helloAt := s.portTicks }).sendHello sub := by
  simp only [helloOn, hp, (inService_iff hlive).2 hservice, hworks, hup, Bool.and_self, if_true]

theorem helloOn_silent (hstopped : ¬(s.boot.service = 1 ∧ s.works fnPort = true)) : s.helloOn sub = s := by
  have hsilent : (s.inService && s.works fnPort) = false := by
    rcases not_and_or.1 hstopped with hservice | hworks
    · simp [inService, hservice]
    · simp [hworks]
  unfold helloOn
  split
  · rfl
  · simp only [hsilent, Bool.false_and, Bool.false_eq_true, if_false]

section
variable (hp : s.sub? sub = some p)
include hp

theorem doLinkUp_serves (hlive : s.portLive = true) (hservice : s.boot.service = 1) (hworks : s.works fnPort = true) :
    s.doLinkUp sub = (s.setSub sub fun p => { p with up := true, helloAt := s.portTicks }).sendHello sub := by
  have hup : (s.setSub sub fun p => { p with up := true }).sub? sub = some { p with up := true } := by rw [sub?_setSub, hp, Option.map_some]
  have hhello := helloOn_sends hup hlive hservice hworks rfl
  rw [setSub_setSub] at hhello
  simp only [doLinkUp, hlive, hp, Option.isSome_some, Bool.and_self, if_true]
  exact hhello

theorem doLinkUp_silent (hlive : s.portLive = true) (hstopped : ¬(s.boot.service = 1 ∧ s.works fnPort = true)) :
    s.doLinkUp sub = s.setSub sub fun p => { p with up := true } := by
  have hsilent : (s.setSub sub fun p => { p with up := true }).helloOn sub = s.setSub sub fun p => { p with up := true } :=
    helloOn_silent hstopped
  simp only [doLinkUp, hlive, hp, hsilent, Option.isSome_some, Bool.and_self, if_true]

theorem doPortLinkDown_up (hup : p.up = true) : s.doPortLinkDown sub =
    (s.setSub sub fun p => { p with up := false }).correctedEvent { cause := 0x14, unit := 4, unitIndex := sub } fnPort := by
  simp only [doPortLinkDown, hp, hup, if_true]

theorem doHelloTimer_up (hlive : s.portLive = true) (hservice : s.boot.service = 1) (hworks : s.works fnPort = true) (hup : p.up = true) :
    let u := s.atLeast (p.helloAt + ticksOfMs s.cfg.peers.helloMs)
    s.doHelloTimer sub = (u.setSub sub fun p => { p with helloAt := u.portTicks }).sendHello sub := by
  intro u
  have hhello : u.helloOn sub = _ := helloOn_sends hp hlive hservice hworks hup
  simp only [doHelloTimer, hp, (inService_iff hlive).2 hservice, hworks, hup, Bool.and_self, if_true]
  exact hhello

theorem doLldpTimer_up (hlive : s.portLive = true) (hup : p.up = true) : s.doLldpTimer sub =
    let u := s.atLeast (p.lldpAt + ticksOfMs (1000 * s.cfg.port.lldpS))
    (u.setSub sub fun p => { p with lldpAt := u.portTicks }).emit (.lldp sub Config.lldpChassis (macBytes (macOf sub)) s.cfg.peers.selfIndex) := by
  simp only [doLldpTimer, hp, hlive, hup, Bool.and_self, if_true]
  rfl

end

theorem doLldpFrameRx_live (hlive : s.portLive = true) (chassis portId : Bytes) : s.doLldpFrameRx sub chassis portId =
    s.setSub sub fun p => { p with lldpChassis := fit 32 chassis, lldpPort := fit 32 portId } := by
  simp only [doLldpFrameRx, hlive, if_true]

end
end State

/-- Settles O5: each row by its `do` lemma; a hello that leaves is `sendHello` of the updated sub-port. -/
theorem linkAndTimersSendIdentity : Obligations.LinkAndTimersSendIdentity := by
  intro sub s p hp hlive hello
  have hsent (u : State) (hpayload : u.helloPayload sub = s.helloPayload sub) (haddr : u.addrOf sub = s.addrOf sub) :
      u.sendHello sub = hello u := State.sendHello_eq hpayload haddr
  refine ⟨fun hservice hworks => exec_of_effect rfl ?linkUp, fun hstopped => exec_of_effect rfl (State.doLinkUp_silent hp hlive hstopped),
    fun hlink => exec_of_effect rfl (State.doPortLinkDown_up hp hlink), fun hlink hservice hworks => exec_of_effect rfl ?helloTimer,
    fun hlink => exec_of_effect rfl (State.doLldpTimer_up hp hlive hlink),
    fun chassis portId => exec_of_effect rfl (State.doLldpFrameRx_live hlive chassis portId)⟩
  case linkUp => exact (State.doLinkUp_serves hp hlive hservice hworks).trans (hsent _ rfl rfl)
  case helloTimer => exact (State.doHelloTimer_up hp hlive hservice hworks hlink).trans (hsent _ rfl rfl)

end Sys2Proof.Machine
end

section
/-! PROOFS. Frames as a sub-port receives and sends them (R324 to R328): the receive buffer, PFC, neighbours, echo requests, and the way to the
next hop. -/

namespace Sys2Proof.Machine
namespace State

/-- FEC counts rise by what FEC found in a frame (R324). -/
def countFec (f : Frame) (s : State) : State := (s.count (subCtr f.sub 0x00) f.fecCorrected).count (subCtr f.sub 0x08) f.fecUncorrectable

-- The receive buffer (R324, R326)

section
variable {s : State} {f : Frame} {p : SubPort} (hp : s.sub? f.sub = some p) (hlive : s.portLive = true) (hup : p.up = true)
include hp hlive hup

theorem doEthFrameRx_drops {c : Nat} (hverdict : frameVerdict s.cfg.port f = .drop c) :
    s.doEthFrameRx f = (s.countFec f).count (subCtr f.sub c) 1 := by
  simp only [doEthFrameRx, hp, hlive, hup, count_cfg, hverdict, countFec, Bool.not_true, Bool.or_self, Bool.false_eq_true, if_false]

theorem doEthFrameRx_leaves (hverdict : frameVerdict s.cfg.port f = .ignore ∨ frameVerdict s.cfg.port f = .pass) :
    s.doEthFrameRx f = s.countFec f := by
  rcases hverdict with hverdict | hverdict
  all_goals
    simp only [doEthFrameRx, hp, hlive, hup, count_cfg, hverdict, countFec, Bool.not_true, Bool.or_self, Bool.false_eq_true, if_false]

section
variable {n : Nat} (hverdict : frameVerdict s.cfg.port f = .mwp n)
include hverdict

theorem doEthFrameRx_overflows (hfull : 4194304 < p.rxBytes + n) : s.doEthFrameRx f = (s.countFec f).count (subCtr f.sub 0x28) 1 := by
  simp only [doEthFrameRx, hp, hlive, hup, count_cfg, hverdict, countFec, gt_iff_lt, hfull, Bool.not_true, Bool.or_self, Bool.false_eq_true,
    if_false, if_true]

theorem doEthFrameRx_takes (hfits : p.rxBytes + n ≤ 4194304) (hxoff : s.cfg.port.pfc ≠ 1 ∨ p.xoffSent = true ∨ p.rxBytes + n ≤ 3145728) :
    s.doEthFrameRx f = (s.countFec f).setSub f.sub fun p => { p with rxBytes := p.rxBytes + n } := by
  have hkeeps : (s.cfg.port.pfc == 1 && !p.xoffSent && decide (3145728 < p.rxBytes + n)) = false := by
    rcases hxoff with h | h | h
    · simp [h]
    · simp [h]
    · simp [Nat.not_lt.2 h]
  simp only [doEthFrameRx, hp, hlive, hup, count_cfg, hverdict, countFec, gt_iff_lt, Nat.not_lt.2 hfits, hkeeps, Bool.not_true, Bool.or_self,
    Bool.or_false, Bool.false_eq_true, if_false]

theorem doEthFrameRx_xoff (hfits : p.rxBytes + n ≤ 4194304) (hpfc : s.cfg.port.pfc = 1) (hfirst : p.xoffSent = false)
    (hmark : 3145728 < p.rxBytes + n) : s.doEthFrameRx f =
      (((s.countFec f).setSub f.sub fun p => { p with rxBytes := p.rxBytes + n, xoffSent := true }).emit (.pfc f.sub true)).count
        (subCtr f.sub 0x30) 1 := by
  simp only [doEthFrameRx, hp, hlive, hup, count_cfg, hverdict, countFec, gt_iff_lt, Nat.not_lt.2 hfits, hpfc, hfirst, hmark, beq_self_eq_true,
    decide_true, Bool.not_false, Bool.and_self, Bool.not_true, Bool.or_self, Bool.or_true, Bool.false_eq_true, if_false, if_true]

end
end

-- Pauses, neighbours and the way out (R325 to R328)

section
variable {s : State} {sub : Nat}

theorem doPfcFrameRx_ours {enable : Nat} (hlive : s.portLive = true) (hpfc : s.cfg.port.pfc = 1)
    (hclass : bitAt enable s.cfg.port.pcp = true) (quanta : Nat) : s.doPfcFrameRx sub enable quanta =
      if quanta = 0 then s.resume sub else s.setSub sub fun p => { p with pauseQuanta := quanta } := by
  simp only [doPfcFrameRx, hlive, hpfc, hclass, beq_self_eq_true, Bool.and_self, if_true]

theorem neighborIs_nobody {a : Bytes} (ha : allZero a = true) (mac : Nat) : s.neighborIs sub a mac = s := by
  simp only [neighborIs, ha, if_true]

theorem emitOn_group {o : Out} (hgroup : isGroup (s.destOf o) = true) :
    s.emitOn sub o = s.transmit sub (s.cfg.port.wrap sub (groupMac (s.destOf o)) (s.destOf o) o) := by
  simp only [emitOn, hgroup, if_true]

variable {p : SubPort} (hp : s.sub? sub = some p)
include hp

theorem resume_eq : s.resume sub = { s.setSub sub (fun p => { p with pauseQuanta := 0, held := [] }) with out := s.out ++ p.held } := by
  simp only [resume, hp]
  rfl

theorem doPfcPauseExpiry_paused (hpaused : 0 < p.pauseQuanta) : s.doPfcPauseExpiry sub = s.resume sub := by
  simp only [doPfcPauseExpiry, hp, hpaused, if_true]

/-- What waited for a neighbour leaves in order once it is resolved. -/
theorem neighborIs_resolves {a : Bytes} (ha : allZero a = false) (mac : Nat) : s.neighborIs sub a mac =
    (p.awaiting.filter (·.1 == a)).foldl (fun (u : State) w => u.transmit sub (s.cfg.port.wrap sub mac w.2.1 w.2.2))
      (s.setSub sub fun p => { p with neighbors := (p.neighbors.filter (·.1 != a)) ++ [(a, mac)], awaiting := p.awaiting.filter (·.1 != a) }) := by
  rw [← setSub_eq]
  simp only [neighborIs, ha, lookupD_subs hp, Bool.false_eq_true, if_false]

theorem emitOn_resolved {o : Out} {mac : Nat} (hgroup : isGroup (s.destOf o) = false)
    (hmac : p.neighbors.find? (·.1 == s.cfg.port.nextHop sub (s.destOf o)) = some (s.cfg.port.nextHop sub (s.destOf o), mac)) :
    s.emitOn sub o = s.transmit sub (s.cfg.port.wrap sub mac (s.destOf o) o) := by
  simp only [emitOn, hgroup, lookupD_subs hp, hmac, Option.map_some, Bool.false_eq_true, if_false]

theorem emitOn_asks {o : Out} (hgroup : isGroup (s.destOf o) = false)
    (hnone : p.neighbors.find? (·.1 == s.cfg.port.nextHop sub (s.destOf o)) = none) :
    let hop := s.cfg.port.nextHop sub (s.destOf o)
    s.emitOn sub o = (s.setSub sub fun p => { p with awaiting := p.awaiting ++ [(hop, s.destOf o, o)] }).transmit sub
      (s.cfg.port.wrap sub (askMac hop) (askGroup hop) (.neighbor sub (isV6 hop) false hop (macOf sub))) := by
  intro hop
  rw [← setSub_eq]
  simp only [emitOn, hgroup, lookupD_subs hp, hnone, hop, Option.map_none, Bool.false_eq_true, if_false]

theorem doEchoRequestRx_known (hlive : s.portLive = true) (src : Endpoint) (v6 : Bool) (data : Bytes) :
    s.doEchoRequestRx sub src v6 data =
      if data.length ≤ 1024 then s.emitOn sub (.echo sub src v6 data) else s.count (subCtr sub 0x20) 1 := by
  simp only [doEchoRequestRx, hlive, hp, Option.isSome_some, Bool.and_self, if_true]

end

section
variable {s : State} {n : Neighbor} {p : SubPort} (hp : s.sub? n.sub = some p) (hlive : s.portLive = true)
include hp hlive

/-- The answer to a solicitation for an own address. -/
theorem doNeighborResolutionRx_answers (hrequest : n.request = true) (hown : s.ownsAddr n.sub n.v6 n.target = true) :
    s.doNeighborResolutionRx n = (s.neighborIs n.sub n.sender n.senderMac).transmit n.sub
      (s.cfg.port.wrap n.sub n.senderMac n.sender (.neighbor n.sub n.v6 true n.target (macOf n.sub))) := by
  simp only [doNeighborResolutionRx, hlive, hp, hrequest, hown, Option.isSome_some, Bool.and_self, if_true]

theorem doNeighborResolutionRx_notOurs (hrequest : n.request = true) (hown : s.ownsAddr n.sub n.v6 n.target = false) :
    s.doNeighborResolutionRx n = s := by
  simp only [doNeighborResolutionRx, hlive, hp, hrequest, hown, Option.isSome_some, Bool.and_self, Bool.false_eq_true, if_true, if_false]

theorem doNeighborResolutionRx_learns (hanswer : n.request = false) :
    s.doNeighborResolutionRx n = s.neighborIs n.sub n.target n.senderMac := by
  simp only [doNeighborResolutionRx, hlive, hp, hanswer, Option.isSome_some, Bool.and_self, Bool.false_eq_true, if_true, if_false]

end
end State

/-- Settles O6: a frame by its verdict, a pause by its quanta, a neighbour by what it asks or tells, a packet by its destination. -/
theorem framesFillPauseAndAnswer : Obligations.FramesFillPauseAndAnswer := by
  refine ⟨fun f s p hp hlive hup => ?frame, fun sub s p hp => ?rest, fun sub s p o hp => ?wayOut⟩
  case frame =>
    exact ⟨fun c hverdict => exec_of_effect rfl (State.doEthFrameRx_drops hp hlive hup hverdict),
      fun hverdict => exec_of_effect rfl (State.doEthFrameRx_leaves hp hlive hup hverdict), fun n hverdict =>
      ⟨fun hfull => exec_of_effect rfl (State.doEthFrameRx_overflows hp hlive hup hverdict hfull),
        fun hfits hxoff => exec_of_effect rfl (State.doEthFrameRx_takes hp hlive hup hverdict hfits hxoff),
        fun hfits hpfc hfirst hmark => exec_of_effect rfl (State.doEthFrameRx_xoff hp hlive hup hverdict hfits hpfc hfirst hmark)⟩⟩
  case rest =>
    intro resumed
    refine ⟨fun hlive hpfc enable hclass => ⟨exec_of_effect rfl ?resumes, fun quanta hquanta => exec_of_effect rfl ?pauses⟩,
      fun hpaused => exec_of_effect rfl ((State.doPfcPauseExpiry_paused hp hpaused).trans (State.resume_eq hp)), fun hlive n hsub => ?neighbor,
      fun hlive src v6 data => ⟨fun hshort => exec_of_effect rfl ?echo, fun hlong => exec_of_effect rfl ?tooLong⟩⟩
    case resumes => rw [State.doPfcFrameRx_ours hlive hpfc hclass, if_pos rfl, State.resume_eq hp]
    case pauses => rw [State.doPfcFrameRx_ours hlive hpfc hclass, if_neg (Nat.ne_of_gt hquanta)]
    case echo => rw [State.doEchoRequestRx_known hp hlive, if_pos hshort]
    case tooLong => rw [State.doEchoRequestRx_known hp hlive, if_neg (Nat.not_le.2 hlong)]
    case neighbor =>
      subst hsub
      intro resolved reply
      refine ⟨fun hrequest hown hsender => exec_of_effect rfl ?answers, fun hrequest hown hnobody => exec_of_effect rfl ?answersNobody,
        fun hrequest hother => exec_of_effect rfl (State.doNeighborResolutionRx_notOurs hp hlive hrequest hother),
        fun hanswer htarget => exec_of_effect rfl ?learns⟩
      case answers => rw [State.doNeighborResolutionRx_answers hp hlive hrequest hown, State.neighborIs_resolves hp hsender]
      case answersNobody => rw [State.doNeighborResolutionRx_answers hp hlive hrequest hown, State.neighborIs_nobody hnobody]
      case learns => rw [State.doNeighborResolutionRx_learns hp hlive hanswer, State.neighborIs_resolves hp htarget]
  case wayOut =>
    exact ⟨State.emitOn_group, fun hgroup mac hmac => State.emitOn_resolved hp hgroup hmac, fun hgroup hnone => State.emitOn_asks hp hgroup hnone⟩

end Sys2Proof.Machine
end

section
/-! PROOFS. Durable writes as they are taken (R342 to R345, R356 to R358, R410): refused, kept, answered from memory, forwarded, held until
their token comes, or applied. -/

namespace Sys2Proof.Machine

/-- Every command of a durable write takes its message as `durableWrite` does, with the payloads that are its own. -/
theorem exec_durableRow {c : Instr} {type : Nat} {m : Msg} (hrow : hostRow c = some (type, m, false)) (hdurable : durableType type = true)
    (s : State) : exec c s = .next (s.after (s.durableWrite type m (rowTakes c))) := by
  cases c
  all_goals cases hrow
  case submit | cancel | handleRetain | handleRelease | inspectRead | power | stopDrain | stopAbort | configSection | configLive | restart
      | imageWrite => exact absurd hdurable (by decide)
  all_goals exact rfl

/-- A durable write that is next in its session is taken, whichever command brought it. -/
theorem exec_durableRow_takes {c : Instr} {type : Nat} {m : Msg} {s : State} {d : Delivered} {q : Session}
    (hrow : hostRow c = some (type, m, false)) (hdurable : durableType type = true) (ho : s.Admits type m false d q)
    (htakes : rowTakes c d.frags.flatten = true) (hnext : s.earlierWrite q d = false) :
    exec c s = .next (s.after ((s.untake d).takeWrite (writeOf type d q))) := by
  rw [exec_durableRow hrow hdurable, State.durableWrite_passes ho htakes hnext]

namespace State

@[simp] theorem untake_cfg (d : Delivered) (s : State) : (s.untake d).cfg = s.cfg := rfl
@[simp] theorem untake_twin (d : Delivered) (s : State) : (s.untake d).twin = s.twin := rfl
@[simp] theorem untake_writePending (d : Delivered) (s : State) (wid : Nat) : (s.untake d).writePending wid = s.writePending wid := rfl
@[simp] theorem untake_remembered (d : Delivered) (s : State) (wid : Nat) : (s.untake d).remembered wid = s.remembered wid := rfl
@[simp] theorem untake_holdsToken (d : Delivered) (s : State) (kind obj : Nat) : (s.untake d).holdsToken kind obj = s.holdsToken kind obj := rfl

/-- Only a PAIRED twin lacks a token (R343). -/
theorem holdsToken_notPaired {s : State} (h : s.twin.state ≠ 2) (kind obj : Nat) : s.holdsToken kind obj = true := by
  simp only [holdsToken, bne_iff_ne.2 h, Bool.true_or]

/-- This device takes a durable write (R342, R410): the write has a WRITE_ID, its function runs, and no SOLO twin and no twin whose TWIN
function is stopped takes it. -/
structure ServesWrite (s : State) (w : Write) : Prop where
  long : 8 ≤ w.payload.length
  running : s.runs (writeFn w.type w.payload) = true
  serves : ¬(s.cfg.twin.role ≠ 0 ∧ (s.twin.state = 0 ∨ s.runs fnTwin = false))

/-- A write that is taken and whose WRITE_ID is neither remembered nor under way (R345, R358). -/
structure FreshWrite (s : State) (w : Write) : Prop extends s.ServesWrite w where
  fresh : s.remembered w.writeId = none
  free : s.writePending w.writeId = false

section
variable {s : State} {w : Write}

theorem twinCheck_iff : (s.cfg.twin.role != 0 && (s.twin.state == 0 || !(s.runs fnTwin))) = true ↔
    s.cfg.twin.role ≠ 0 ∧ (s.twin.state = 0 ∨ s.runs fnTwin = false) := by simp

theorem ServesWrite.check (hw : s.ServesWrite w) : (s.cfg.twin.role != 0 && (s.twin.state == 0 || !(s.runs fnTwin))) = false :=
  Bool.eq_false_iff.2 (mt twinCheck_iff.1 hw.serves)

theorem takeWrite_stopped (hlong : 8 ≤ w.payload.length) (hrun : s.runs (writeFn w.type w.payload) = false) :
    s.takeWrite w = s.reply w.session w.msgId refStopped w.writeId := by
  simp only [takeWrite, if_neg (Nat.not_lt.2 hlong), hrun, Bool.not_false, if_true]

theorem takeWrite_twinState (hlong : 8 ≤ w.payload.length) (hrun : s.runs (writeFn w.type w.payload) = true) (hrole : s.cfg.twin.role ≠ 0)
    (hstate : s.twin.state = 0 ∨ s.runs fnTwin = false) : s.takeWrite w = s.reply w.session w.msgId refTwinState w.writeId := by
  simp only [takeWrite, if_neg (Nat.not_lt.2 hlong), hrun, twinCheck_iff.2 ⟨hrole, hstate⟩, Bool.not_true, Bool.false_eq_true, if_false, if_true]

theorem takeWrite_pending (hw : s.ServesWrite w) (hpending : s.writePending w.writeId = true) :
    s.takeWrite w = { s with twin := { s.twin with repeats := s.twin.repeats ++ [w] } } := by
  simp only [takeWrite, if_neg (Nat.not_lt.2 hw.long), hw.running, hw.check, hpending, Bool.not_true, Bool.false_eq_true, if_false, if_true]

theorem takeWrite_remembered {o : Outcome} (hw : s.ServesWrite w) (hfree : s.writePending w.writeId = false)
    (hknown : s.remembered w.writeId = some o) : s.takeWrite w = s.reply w.session w.msgId o w.writeId := by
  simp only [takeWrite, if_neg (Nat.not_lt.2 hw.long), hw.running, hw.check, hfree, hknown, Bool.not_true, Bool.false_eq_true, if_false]

/-- What a twin does with a write that is new to it: it forwards the write while it catches up, lets it wait for its object's token, or
applies it (R342, R343). -/
def orderWrite (w : Write) (s : State) : State :=
  if s.cfg.twin.role != 0 && s.twin.state == 1 then
    ({ s with twin := { s.twin with forwarded := s.twin.forwarded ++ [w] } } : State).sendTwin 3 w.kind w.obj 0 w.writeId w.payload
  else if s.cfg.twin.role != 0 && !(s.holdsToken w.kind w.obj) then
    let v : State := { s with twin := { s.twin with waiting := s.twin.waiting ++ [w] } }
    if s.twin.waiting.any fun x => x.kind == w.kind && x.obj == w.obj then v else v.sendTwin 1 w.kind w.obj 0 w.writeId []
  else s.performWrite w

theorem takeWrite_fresh (hw : s.FreshWrite w) : s.takeWrite w = s.orderWrite w := by
  simp only [takeWrite, orderWrite, if_neg (Nat.not_lt.2 hw.long), hw.running, hw.check, hw.free, hw.fresh, Bool.not_true, Bool.false_eq_true,
    if_false]

theorem orderWrite_forwards (hrole : s.cfg.twin.role ≠ 0) (hstate : s.twin.state = 1) :
    s.orderWrite w = ({ s with twin := { s.twin with forwarded := s.twin.forwarded ++ [w] } } : State).sendTwin 3 w.kind w.obj 0 w.writeId
      w.payload := by
  simp only [orderWrite, bne_iff_ne.2 hrole, hstate, beq_self_eq_true, Bool.and_self, if_true]

theorem orderWrite_asks (hrole : s.cfg.twin.role ≠ 0) (hstate : s.twin.state = 2) (htoken : s.holdsToken w.kind w.obj = false)
    (hfirst : ∀ x ∈ s.twin.waiting, ¬(x.kind = w.kind ∧ x.obj = w.obj)) :
    s.orderWrite w = ({ s with twin := { s.twin with waiting := s.twin.waiting ++ [w] } } : State).sendTwin 1 w.kind w.obj 0 w.writeId [] := by
  have hasked : (s.twin.waiting.any fun x => x.kind == w.kind && x.obj == w.obj) = false :=
    List.any_eq_false.2 fun x hx => by simpa using hfirst x hx
  simp [orderWrite, hrole, hstate, htoken, hasked]

theorem orderWrite_performs (hown : s.cfg.twin.role = 0 ∨ (s.twin.state ≠ 1 ∧ s.holdsToken w.kind w.obj = true)) :
    s.orderWrite w = s.performWrite w := by
  rcases hown with hrole | ⟨hstate, htoken⟩
  · simp [orderWrite, hrole]
  · simp [orderWrite, hstate, htoken]

end

section
variable {s : State} {type : Nat} {d : Delivered} {q : Session} (happlies : s.Applies type d q)
include happlies

theorem Applies.serves : ¬(s.cfg.twin.role ≠ 0 ∧ (s.twin.state = 0 ∨ s.runs fnTwin = false)) := by
  obtain hrole | ⟨hrun, hstate⟩ := happlies.alone
  · simp [hrole]
  · simp only [hrun, Bool.true_eq_false, or_false, not_and]
    omega

theorem Applies.freshWrite : (s.untake d).FreshWrite (writeOf type d q) :=
  ⟨⟨happlies.long, happlies.running, happlies.serves⟩, happlies.fresh, happlies.free⟩

theorem Applies.ownsObject : s.cfg.twin.role = 0 ∨
    (s.twin.state ≠ 1 ∧ s.holdsToken (writeObject type d.frags.flatten).1 (writeObject type d.frags.flatten).2 = true) := by
  obtain hrole | ⟨-, hstate⟩ := happlies.alone
  · exact .inl hrole
  · refine .inr ⟨by omega, ?_⟩
    obtain halone | hsplit | ⟨-, htoken⟩ := hstate
    · exact holdsToken_notPaired (by omega) _ _
    · exact holdsToken_notPaired (by omega) _ _
    · exact htoken

end
end State

/-- Settles O25: a write that this device may apply passes every check of `takeWrite`; a known WRITE_ID stops it at one of two. -/
theorem durableWriteAppliedOnce : Obligations.DurableWriteAppliedOnce := by
  intro c type m s d q hrow hdurable ho htakes
  have htaken (hnext : s.earlierWrite q d = false) {v : State} (h : (s.untake d).takeWrite (writeOf type d q) = v) :
      exec c s = .next (s.after v) := exec_of_effect (exec_durableRow_takes hrow hdurable ho htakes hnext) h
  refine ⟨fun happlies => ?applied, fun hnext hlong hrun htwin => ?known⟩
  case applied =>
    exact htaken happlies.next ((State.takeWrite_fresh happlies.freshWrite).trans (State.orderWrite_performs happlies.ownsObject))
  case known =>
    have hserves : (s.untake d).ServesWrite (writeOf type d q) := ⟨hlong, hrun, htwin⟩
    exact ⟨fun hpending => htaken hnext (State.takeWrite_pending hserves hpending),
      fun o hfree hknown => htaken hnext (State.takeWrite_remembered hserves hfree hknown)⟩

/-- Settles O26: the checks of `takeWrite` in their order, and what a twin does with a write that is new to it. -/
theorem durableWriteWaitsForToken : Obligations.DurableWriteWaitsForToken := by
  intro c type m s d q hrow hdurable ho htakes hnext hlong u w twin runs fresh
  have htaken {v : State} (h : u.takeWrite w = v) : exec c s = .next (s.after v) :=
    exec_of_effect (exec_durableRow_takes hrow hdurable ho htakes hnext) h
  have hfresh (hrun : runs = true) (hstate : s.twin.state ≠ 0) (htwin : s.runs fnTwin = true) (hnew : fresh) : u.FreshWrite w := by
    have hserves : ¬(u.cfg.twin.role ≠ 0 ∧ (u.twin.state = 0 ∨ u.runs fnTwin = false)) := fun ⟨_, h⟩ =>
      h.elim hstate fun hstopped => Bool.false_ne_true (hstopped.symm.trans htwin)
    exact ⟨⟨hlong, hrun, hserves⟩, hnew.1, hnew.2⟩
  refine ⟨fun hrun => ?stopped, fun hrun hrole hstate => ?twinState, fun hrun hrole hstate htwin hnew => ?forwards,
    fun hrun hrole hstate htwin hnew htoken hfirst => ?asks⟩
  case stopped => exact htaken (State.takeWrite_stopped hlong hrun)
  case twinState => exact htaken (State.takeWrite_twinState hlong hrun hrole hstate)
  case forwards =>
    exact htaken ((State.takeWrite_fresh (hfresh hrun (by omega) htwin hnew)).trans (State.orderWrite_forwards hrole hstate))
  case asks =>
    exact htaken ((State.takeWrite_fresh (hfresh hrun (by omega) htwin hnew)).trans (State.orderWrite_asks hrole hstate htoken hfirst))

end Sys2Proof.Machine
end

section
/-! PROOFS. Hellos as they reach the peer table (R10, R332, R333, R335): spoiled, a host's, a listed device's. -/

namespace Sys2Proof.Machine
namespace State

/-- A hello stands delivered on a device in service whose PORT works. -/
structure HearsHello (s : State) (sub : Nat) (src : Endpoint) (mac : Nat) (p : Bytes) (d : Delivered) : Prop where
  delivered : (s.delivered.find? fun d =>
    d.session == 0 && d.type == 0x60 && d.sub == sub && d.src == src && d.mac == mac && d.frags.flatten == p) = some d
  service : s.boot.service = 1
  live : s.portLive = true
  works : s.works fnPort = true

/-- The payload is a host's hello: role and index 0, no digest and no signature (R332, R333). -/
structure HostHello (p : Bytes) : Prop where
  role : uAt p 1 1 = 0
  length : p.length = 88
  index : uAt p 0 1 = 0
  unsigned : allZero (p.drop 40) = true

theorem hostHello_iff {p : Bytes} (hrole : uAt p 1 1 = 0) :
    HostHello p ↔ (p.length == 88 && uAt p 0 1 == 0 && allZero (p.drop 40)) = true := by
  simp only [Bool.and_eq_true, beq_iff_eq]
  exact ⟨fun h => ⟨⟨h.length, h.index⟩, h.unsigned⟩,
    fun ⟨⟨hlength, hindex⟩, hunsigned⟩ => ⟨hrole, hlength, hindex, hunsigned⟩⟩

section
variable {s : State} {sub : Nat} {src : Endpoint} {mac : Nat} {p : Bytes} {d : Delivered} (hheard : s.HearsHello sub src mac p d)
include hheard

theorem HearsHello.serves : ((s.untake d).inService && (s.untake d).works fnPort) = true :=
  Bool.and_eq_true_iff.2 ⟨(inService_iff hheard.live).2 hheard.service, hheard.works⟩

theorem doPeerHello_spoiled (hwhole : helloWhole p = false) : s.doPeerHello sub src mac p = (s.untake d).count (mwpCtr 0x420) 1 := by
  simp only [doPeerHello, hheard.delivered, hheard.serves, hwhole, Bool.not_true, Bool.not_false, Bool.false_eq_true, if_false, if_true]

section
variable (hwhole : helloWhole p = true)
include hwhole

theorem doPeerHello_host (hhost : HostHello p) : s.doPeerHello sub src mac p = (s.untake d).hostHello src mac := by
  simp only [doPeerHello, hheard.delivered, hheard.serves, hwhole, hhost.role, (hostHello_iff hhost.role).1 hhost, Bool.not_true,
    Bool.false_eq_true, if_false, if_true]

theorem doPeerHello_noHost (hrole : uAt p 1 1 = 0) (hhost : ¬HostHello p) :
    s.doPeerHello sub src mac p = (s.untake d).count (mwpCtr 0x420) 1 := by
  have hcheck := Bool.eq_false_iff.2 (mt (hostHello_iff hrole).2 hhost)
  simp only [doPeerHello, hheard.delivered, hheard.serves, hwhole, hrole, hcheck, Bool.not_true, Bool.false_eq_true, if_false, if_true]

theorem doPeerHello_device {c : PeerCfg} (hrole : uAt p 1 1 ≠ 0) (hdevice : s.helloDevice p = some c) :
    s.doPeerHello sub src mac p = (s.untake d).deviceHello c sub src p := by
  have hdevice' : (s.untake d).helloDevice p = some c := hdevice
  simp only [doPeerHello, hheard.delivered, hheard.serves, hwhole, hrole, hdevice', Bool.not_true, Bool.false_eq_true, if_false]

theorem doPeerHello_unproved (hrole : uAt p 1 1 ≠ 0) (hdevice : s.helloDevice p = none) :
    s.doPeerHello sub src mac p = (s.untake d).count (mwpCtr 0x420) 1 := by
  have hdevice' : (s.untake d).helloDevice p = none := hdevice
  simp only [doPeerHello, hheard.delivered, hheard.serves, hwhole, hrole, hdevice', Bool.not_true, Bool.false_eq_true, if_false]

end
end

section
variable {s : State} {src : Endpoint} {mac : Nat}

section
variable (hnone : (s.peers.find? fun x => x.2.role == 0 && x.2.host == some src) = none)
include hnone

theorem hostHello_full (hfull : s.freeHostEntry = none) : s.hostHello src mac = s.count (mwpCtr 0x428) 1 := by
  simp only [hostHello, hnone, hfull]

theorem hostHello_enters {i : Nat} (hfree : s.freeHostEntry = some i) : s.hostHello src mac =
    { s with peers := sortBy (fun a b => decide (a.1 ≤ b.1)) ((i, { state := 3, since := s.portTicks, mac, host := some src }) :: s.peers) } := by
  simp only [hostHello, hnone, hfree]

end

section
variable {i : Nat} {e : PeerEntry} (hown : (s.peers.find? fun x => x.2.role == 0 && x.2.host == some src) = some (i, e))
include hown

theorem hostHello_rejoins (hlost : e.state = 4 ∨ e.state = 5) :
    s.hostHello src mac = s.setEntry i fun e => { e with state := 2, since := s.portTicks, mac } := by
  have hcheck : (e.state == 4 || e.state == 5) = true := by simpa using hlost
  simp only [hostHello, hown, hcheck, if_true]

theorem hostHello_stays (hnotLost : e.state ≠ 4) (hnotGone : e.state ≠ 5) : s.hostHello src mac = s := by
  simp only [hostHello, hown, beq_false_of_ne hnotLost, beq_false_of_ne hnotGone, Bool.or_self, Bool.false_eq_true, if_false]

end
end
end State

/-- Settles O31: a hello by its reserved bytes, then a host's by its entry and a device's by its signature. -/
theorem helloReachesPeerTable : Obligations.HelloReachesPeerTable := by
  intro sub src mac p s d hdelivered hservice hlive hworks
  have hheard : s.HearsHello sub src mac p d := ⟨hdelivered, hservice, hlive, hworks⟩
  refine ⟨fun hwhole => exec_of_effect rfl (State.doPeerHello_spoiled hheard hwhole), fun hwhole => ?whole⟩
  intro u own host
  have hhosted (h : host) {v : State} (heffect : u.hostHello src mac = v) : exec (.peerHello sub src mac p) s = .next (s.after v) :=
    have ⟨hrole, hlength, hindex, hunsigned⟩ := h
    exec_of_effect rfl ((State.doPeerHello_host hheard hwhole ⟨hrole, hlength, hindex, hunsigned⟩).trans heffect)
  refine ⟨fun h hnone hfull => hhosted h (State.hostHello_full hnone hfull),
    fun h hnone i hfree => hhosted h (State.hostHello_enters (s := u) hnone hfree),
    fun h i e hown hlost => hhosted h (State.hostHello_rejoins hown hlost),
    fun h i e hown hnotLost hnotGone => hhosted h (State.hostHello_stays hown hnotLost hnotGone),
    fun hrole hnot => exec_of_effect rfl (State.doPeerHello_noHost hheard hwhole hrole fun ⟨h1, h2, h3, h4⟩ => hnot ⟨h1, h2, h3, h4⟩),
    fun hrole => exec_of_effect rfl ?device⟩
  case device =>
    rcases hdevice : s.helloDevice p with _ | c
    case none => exact State.doPeerHello_unproved hheard hwhole hrole hdevice
    case some => exact State.doPeerHello_device hheard hwhole hrole hdevice

end Sys2Proof.Machine
end

section
/-! PROOFS. What partners say in their sessions, and their silence (R335 to R337, R346, R347, R351, R368): farewells, announcements, heartbeats,
and the timers of the peer table. -/

namespace Sys2Proof.Machine
namespace State

@[simp] theorem untake_entry? (d : Delivered) (s : State) (i : Nat) : (s.untake d).entry? i = s.entry? i := rfl
@[simp] theorem untake_entryOfSession (d : Delivered) (s : State) (sid : Nat) : (s.untake d).entryOfSession sid = s.entryOfSession sid := rfl
@[simp] theorem untake_portTicks (d : Delivered) (s : State) : (s.untake d).portTicks = s.portTicks := rfl
@[simp] theorem withSession_portTicks (s : State) (sid : Nat) (f : Session → Session) : (s.withSession sid f).portTicks = s.portTicks := rfl
@[simp] theorem withSession_entryOfSession (s : State) (sid n : Nat) (f : Session → Session) :
    (s.withSession sid f).entryOfSession n = s.entryOfSession n := rfl

-- Farewells and announcements

section
variable {s : State} {m : Msg} {d : Delivered} {q : Session} {i : Nat} {e : PeerEntry} (hentry : s.entryOfSession q.id = some (i, e))
include hentry

theorem onPartner_known {type n : Nat} (ho : s.Admits type m false d q) (hlength : d.frags.flatten.length = n)
    (f : Nat → Bytes → State → State) : s.onPartner type m n f = f i d.frags.flatten (s.untake d) := by
  rw [onPartner, onMessage_passes ho rfl]
  simp only [untake_entryOfSession, hentry, hlength, beq_self_eq_true, if_true]

theorem onAnnounce_known {kind : Nat} (ho : s.Admits 0x63 m false d q) (hsession : m.session ≠ 0) (hlength : d.frags.flatten.length = 6)
    (hkind : uAt d.frags.flatten 0 4 = kind) (f : Nat → Bytes → State → State) :
    s.onAnnounce kind m f = f i d.frags.flatten (s.untake d) := by
  rw [onAnnounce, if_neg hsession, onMessage_passes (test := fun p => uAt p 0 4 == kind) ho (beq_iff_eq.2 hkind)]
  simp only [untake_entryOfSession, hentry, hlength, beq_self_eq_true, if_true]

end

theorem partnerLeaves_known {s : State} {i : Nat} {e : PeerEntry} (hentry : s.entry? i = some e) : s.partnerLeaves i =
    if e.state = 3 then s.partnerGone i 5 else if e.session = 0 then s else s.dropSession e.session := by
  simp only [partnerLeaves, hentry, beq_iff_eq]

-- Heartbeats

section
variable {s : State} {m : Msg} {d : Delivered} {q : Session} {p : Bytes} (ho : s.Admits 0x62 m false d q) (hp : d.frags.flatten = p)
  (hlength : p.length = 16)
include ho hp hlength

theorem doHeartbeat_keeps (hnone : s.entryOfSession q.id = none ∨ uAt p 8 8 = 0 ∨ s.portTicks < uAt p 8 8) :
    s.doHeartbeat m = (s.untake d).withSession q.id fun q => { q with heardTicks := uAt p 0 8, heardAt := s.portTicks } := by
  rw [doHeartbeat, onMessage_passes ho rfl, hp]
  simp only [hlength, bne_self_eq_false, withSession_entryOfSession, untake_entryOfSession, withSession_portTicks, untake_portTicks,
    Bool.false_eq_true, if_false]
  rcases hentry : s.entryOfSession q.id with _ | ⟨i, e⟩
  case none => rfl
  case some =>
    have hstale : (decide (uAt p 8 8 = 0) || decide (s.portTicks < uAt p 8 8)) = true := by simpa [hentry] using hnone
    exact if_pos hstale

theorem doHeartbeat_echoes {i : Nat} {e : PeerEntry} (hentry : s.entryOfSession q.id = some (i, e)) (hecho : 0 < uAt p 8 8)
    (hpast : uAt p 8 8 ≤ s.portTicks) :
    let u := (s.untake d).withSession q.id fun q => { q with heardTicks := uAt p 0 8, heardAt := s.portTicks }
    let rtt := rttOf (s.portTicks - uAt p 8 8)
    s.doHeartbeat m = u.setEntry i fun e => { e with rtt := if e.rtt = 0 then rtt else min e.rtt rtt } := by
  have hfresh : ¬(decide (uAt p 8 8 = 0) || decide (s.portTicks < uAt p 8 8)) = true := by
    simp [Nat.ne_of_gt hecho, Nat.not_lt.2 hpast]
  rw [doHeartbeat, onMessage_passes ho rfl, hp]
  simp only [hlength, bne_self_eq_false, withSession_entryOfSession, untake_entryOfSession, hentry, withSession_portTicks, untake_portTicks,
    Bool.false_eq_true, if_false]
  exact if_neg hfresh

end

-- Timers of the peer table (R335, R336, R351)

section
variable {s : State} {i : Nat} {e : PeerEntry} (hentry : s.entry? i = some e)
include hentry

theorem doHeartbeatSendTimer_sends {sub : Nat} {q : Session} (hsession : s.session? e.session = some q) (hlive : e.state = 3)
    (hstands : e.session ≠ 0) (hworks : s.boot.service = 1 → s.works fnPort = true) (hhost : s.boot.service ≠ 1 → e.role = 0)
    (hup : (s.subs.any fun p => p.1 == sub && p.2.up) = true) :
    let u := (s.atLeast (lookupD sub e.sentAt e.since + s.hbTicks e.role e.devIndex)).withSession q.id fun q => { q with sub }
    s.doHeartbeatSendTimer i sub =
      (u.sendMessage q.id 0x62 0 true (u.heartbeatPayload q)).withSession q.id fun x => { x with sub := q.sub } := by
  have hsends : ((s.boot.service == 1 && !(s.works fnPort)) || (s.boot.service != 1 && e.role != 0)) = false := by
    by_cases hservice : s.boot.service = 1
    · simp [hservice, hworks hservice]
    · simp [hservice, hhost hservice]
  simp only [doHeartbeatSendTimer, hentry, hsession, hsends, hlive, hstands, hup, bne_self_eq_false, decide_false, Bool.not_true, Bool.or_self,
    Bool.false_eq_true, if_false]

/-- A LIVE partner that has been silent is told, and is LOST (R336). -/
def silenced (i : Nat) (e : PeerEntry) (s : State) : State :=
  let u := s.atLeast (max e.lastHeard e.since + s.silenceTicks e.role e.devIndex)
  (if e.session = 0 then u else u.closeSession e.session 3).partnerGone i 4

theorem doPeerLivenessExpiry_entry (hlive : e.state = 3) : s.doPeerLivenessExpiry (.entry i) = s.silenced i e := by
  simp only [doPeerLivenessExpiry, hentry, hlive, silenced, bne_self_eq_false, Bool.false_eq_true, if_false]

theorem doJoiningTimeout_stalled (hjoining : e.state = 2)
    (hnone : ∀ h ∈ s.handshakes, ¬((h.initiator = true ∧ e.role ≠ 0 ∧ h.dev = e.devIndex) ∨ e.host = some h.peer)) :
    s.doJoiningTimeout i = (s.atLeast (e.since + ticksOfUs (s.cfg.peers.hbUs * s.cfg.peers.hbMiss))).partnerGone i 4 := by
  have hmine : (s.handshakes.filter fun h => (h.initiator && e.role != 0 && h.dev == e.devIndex) || e.host == some h.peer) = [] :=
    List.filter_eq_nil_iff.2 fun h hmem => by simpa [and_assoc] using hnone h hmem
  have hstill (t : Nat) : ((s.atLeast t).entry? i).map (·.state) = some 2 := by
    show (s.entry? i).map (·.state) = some 2
    rw [hentry, Option.map_some, hjoining]
  simp only [doJoiningTimeout, hentry, hjoining, hmine, hstill, List.map_nil, List.foldl_nil, bne_self_eq_false, beq_self_eq_true,
    Bool.false_eq_true, if_false, if_true]

theorem doHostEntryExpiry_lost (hhost : e.role = 0) (hlost : e.state = 4) : s.doHostEntryExpiry i =
    { s with portTicks := max s.portTicks (e.since + ticksOfMs 60000), peers := s.peers.filter (·.1 != i) } := by
  simp only [doHostEntryExpiry, hentry, hhost, hlost, bne_self_eq_false, Bool.or_self, Bool.false_eq_true, if_false]
  rfl

end

theorem doPeerLivenessExpiry_session {s : State} {sid : Nat} {q : Session} (hsession : s.session? sid = some q)
    (hnoEntry : (s.entryOfSession sid).any (fun e => e.2.state == 3) = false) (hopened : q.opened = true) :
    s.doPeerLivenessExpiry (.session sid) =
      ((s.atLeast (q.lastHeard + s.silenceTicks q.role q.dev)).closeSession sid 3).dropSession sid := by
  simp only [doPeerLivenessExpiry, hsession, hnoEntry, hopened, Bool.not_true, Bool.or_self, Bool.false_eq_true, if_false]

end State

/-- Settles O32: a farewell and the three announcements reach the sender's entry. -/
theorem farewellsAndAnnouncementsTakeEffect : Obligations.FarewellsAndAnnouncementsTakeEffect := by
  intro m s d q i e hsession p u note leaves hentry
  have hleaves : u.partnerLeaves i = leaves := State.partnerLeaves_known hentry
  refine ⟨fun ho hlength => ?bye, fun ho hinside hlength => ⟨fun hkind => ?failed, fun hkind => ?twinLost, fun hkind => ?twinState⟩⟩
  case bye => exact exec_of_effect rfl ((State.onPartner_known hsession ho hlength _).trans hleaves)
  case failed => exact exec_of_effect rfl ((State.onAnnounce_known hsession ho hinside hlength hkind _).trans hleaves)
  case twinLost => exact exec_of_effect rfl (State.onAnnounce_known hsession ho hinside hlength hkind _)
  case twinState => exact exec_of_effect rfl (State.onAnnounce_known hsession ho hinside hlength hkind _)

/-- Settles O33: heartbeats as they come and go, then each timer of the peer table. -/
theorem heartbeatsAndSilenceTellLiveness : Obligations.HeartbeatsAndSilenceTellLiveness := by
  refine ⟨⟨fun m s d q ho hlength => ?heard, fun entry sub s e q hentry hsession hlive hstands hworks hhost hup => exec_of_effect rfl ?sent⟩,
    fun i s e hentry hlive => exec_of_effect rfl (State.doPeerLivenessExpiry_entry hentry hlive),
    fun sid s q hsession hnoEntry hopened => exec_of_effect rfl (State.doPeerLivenessExpiry_session hsession hnoEntry hopened),
    fun i s e hentry hjoining hnone => exec_of_effect rfl (State.doJoiningTimeout_stalled hentry hjoining hnone),
    fun i s e hentry hhost hlost => exec_of_effect rfl (State.doHostEntryExpiry_lost hentry hhost hlost)⟩
  case heard =>
    exact ⟨fun hnone => exec_of_effect rfl (State.doHeartbeat_keeps ho rfl hlength hnone),
      fun i e hentry hecho hpast => exec_of_effect rfl (State.doHeartbeat_echoes ho rfl hlength hentry hecho hpast)⟩
  case sent => exact State.doHeartbeatSendTimer_sends hentry hsession hlive hstands hworks hhost hup

end Sys2Proof.Machine
end

section
/-! PROOFS. The redundant pair at work (R342 to R344, R346, R370): tokens, mirrored writes and their answers, copies, the end of catch-up, and
the partner's silence. -/

namespace Sys2Proof.Machine
namespace State

-- Sending leaves the pair's state alone

@[simp] theorem transmit_twin (sub : Nat) (o : Out) (s : State) : (s.transmit sub o).twin = s.twin := by
  unfold transmit; split <;> rfl
@[simp] theorem emitOn_twin (sub : Nat) (o : Out) (s : State) : (s.emitOn sub o).twin = s.twin := by
  unfold emitOn
  dsimp only
  split
  · rw [transmit_twin]
  · split <;> rw [transmit_twin]
@[simp] theorem launch_twin (sid : Nat) (d : TxDatagram) (s : State) : (s.launch sid d).twin = s.twin := by
  unfold launch
  split
  · rfl
  · exact emitOn_twin _ _ _
@[simp] theorem pump_twin (sid : Nat) (l : List TxDatagram) (s : State) : (s.pump sid l).twin = s.twin := by
  induction l generalizing s with
  | nil => rfl
  | cons d r ih =>
    unfold pump
    split
    · rfl
    · split
      · rw [ih, launch_twin]
      · rfl
theorem launchAll_twin (sid : Nat) (l : List TxDatagram) (s : State) : (l.foldl (fun s d => s.launch sid d) s).twin = s.twin := by
  induction l generalizing s with
  | nil => rfl
  | cons d r ih => rw [List.foldl_cons, ih, launch_twin]
@[simp] theorem sendMessage_twin (sid type ctx : Nat) (noAck : Bool) (payload : Bytes) (s : State) :
    (s.sendMessage sid type ctx noAck payload).twin = s.twin := by
  unfold sendMessage
  split
  · rfl
  · split
    · dsimp only
      split
      · exact launchAll_twin _ _ _
      · exact pump_twin _ _ _
    · rfl
@[simp] theorem sendTwin_twin (op kind obj seq wid : Nat) (body : Bytes) (s : State) :
    (s.sendTwin op kind obj seq wid body).twin = s.twin := by
  unfold sendTwin
  split
  · exact sendMessage_twin _ _ _ _ _ _
  · rfl

-- Messages of the partner

/-- The write that a mirrored message carries, of no session of a host (R343). -/
def mirroredWrite (p : Bytes) : Write :=
  { session := 0, msgId := twinSeq p, type := Config.mirrorType (twinKind p) (p.drop 32), writeId := twinWid p
    kind := twinKind p, obj := twinObj p, payload := p.drop 32 }

section
variable {s : State} {m : Msg} {d : Delivered} {q : Session} {p : Bytes} (ho : s.Admits 0x78 m false d q) (hp : d.frags.flatten = p)
include ho hp

theorem onTwin_passes {op : Nat} {test : Bytes → Bool} (hop : twinIs op p = true) (htest : test p = true)
    (f : Bytes → State → State) : s.onTwin op m test f = f p (s.untake d) := by
  subst hp
  rw [onTwin, onMessage_passes (test := fun p => twinIs op p && test p) ho (Bool.and_eq_true_iff.2 ⟨hop, htest⟩)]

theorem doTokenRequest_grants (hop : twinIs 1 p = true) (hpaired : s.twin.state = 2) (hholds : s.holdsToken (twinKind p) (twinObj p) = true)
    (hnew : (twinKind p, twinObj p) ∉ s.twin.granting) :
    s.doTokenRequest m = { s.untake d with twin := { s.twin with granting := s.twin.granting ++ [(twinKind p, twinObj p)] } } := by
  have hnot : s.twin.granting.contains (twinKind p, twinObj p) = false := by simpa using hnew
  rw [doTokenRequest, onTwin_passes ho hp hop rfl]
  simp only [untake_twin, untake_holdsToken, hpaired, hholds, hnot, beq_self_eq_true, Bool.not_false, Bool.and_self, if_true]

theorem doTokenGrant_takes (hop : twinIs 2 p = true) (hpaired : s.twin.state = 2) (hlacks : s.holdsToken (twinKind p) (twinObj p) = false) :
    s.doTokenGrant m = (s.untake d).moveToken (twinKind p, twinObj p) := by
  rw [doTokenGrant, onTwin_passes ho hp hop rfl]
  simp only [untake_twin, untake_holdsToken, hpaired, hlacks, beq_self_eq_true, Bool.not_false, Bool.and_self, if_true]

-- Answers to mirrored writes (R344)

section
variable (hop : twinIs 4 p = true) (hlength : p.length = 36) (hseq : twinSeq p ≠ 0)
  (hnotDone : ¬(s.twin.doneSeq = some (twinSeq p) ∧ s.twin.syncing = true)) {n : Nat} {w : Write} {o : Outcome}
  (hfound : s.twin.mirrored.find? (·.1 == twinSeq p) = some (n, w, o))
include hop hlength hseq hnotDone hfound

theorem doApplied_splits (hdiffers : o.status ≠ uAt p 32 2 ∨ o.reason ≠ uAt p 34 2) : s.doApplied m = (s.untake d).enterSplit := by
  have hmirrored : (s.twin.doneSeq == some (twinSeq p) && s.twin.syncing) = false := by simpa using hnotDone
  have hsplit : (o.status != uAt p 32 2 || o.reason != uAt p 34 2) = true := by simpa using hdiffers
  rw [doApplied, onTwin_passes (test := fun p => p.length == 36) ho hp hop (beq_iff_eq.2 hlength)]
  simp only [untake_twin, hseq, hmirrored, hfound, refuse, hsplit, Bool.false_eq_true, if_false, if_true]

theorem doApplied_answers (hstatus : o.status = uAt p 32 2) (hreason : o.reason = uAt p 34 2) (hhost : w.session ≠ 0) :
    s.doApplied m = ({ s.untake d with twin := { s.twin with
      mirrored := s.twin.mirrored.filter (·.1 != twinSeq p)
      appliedOf := ((w.kind, w.obj), twinSeq p) :: dropKey (w.kind, w.obj) s.twin.appliedOf } } : State).endWrite w o := by
  have hmirrored : (s.twin.doneSeq == some (twinSeq p) && s.twin.syncing) = false := by simpa using hnotDone
  rw [doApplied, onTwin_passes (test := fun p => p.length == 36) ho hp hop (beq_iff_eq.2 hlength)]
  simp only [untake_twin, hseq, hmirrored, hfound, refuse, hstatus, hreason, hhost, mirrorSession, bne_self_eq_false, Bool.or_self,
    Bool.false_eq_true, if_false]

end

-- Mirrored writes and copies, in the order the partner sent them (R342, R343)

section
variable (hturn : s.inTurn m = true)
include hturn

theorem doMirror_applies (hop : twinIs 3 p = true) (hnext : twinSeq p = s.twin.mirrorIn + 1) (hstate : s.twin.state = 1 ∨ s.twin.state = 2)
    (hcopy : s.twin.copy = none) (hquiet : (s.tables.any fun v => v.waiting.any (·.brought)) = false) :
    s.doMirror m = ({ s.untake d with twin := { s.twin with
      mirrorIn := twinSeq p
      appliedOf := ((twinKind p, twinObj p), twinSeq p) :: dropKey (twinKind p, twinObj p) s.twin.appliedOf } } : State).performWrite
        (mirroredWrite p) := by
  have hready : (twinSeq p == 0 || (s.inTurn m && twinSeq p == s.twin.mirrorIn + 1 && s.twin.copy.isNone
      && !(s.tables.any fun v => v.waiting.any (·.brought)))) = true := by simp only [hturn, hnext, hcopy, hquiet]; simp
  have hseq : twinSeq p ≠ 0 := by omega
  have htakes : (s.twin.state != 1 && s.twin.state != 2) = false := by rcases hstate with h | h <;> simp [h]
  rw [doMirror, onTwin_passes ho hp hop hready]
  simp only [untake_twin, hseq, htakes, Bool.false_eq_true, if_false]
  rfl

section
variable (hop : twinIs 5 p = true) (hlong : 48 ≤ p.length) (hsyncing : s.twin.state = 1) (hnone : s.twin.copy = none)
  (hfirst : uAt p 32 8 = 0)
include hop hlong hsyncing hnone hfirst

theorem doSyncChunk_begins (hmore : p.length - 48 < uAt p 40 8) :
    s.doSyncChunk m = { s.untake d with twin := { s.twin with copy := some {
      kind := twinKind p, obj := twinObj p, total := uAt p 40 8, offset := p.length - 48, bytes := p.drop 48 } } } := by
  rw [doSyncChunk, onTwin_passes ho hp hop (Bool.and_eq_true_iff.2 ⟨decide_eq_true hlong, hturn⟩)]
  simp only [untake_twin, hsyncing, hnone, hfirst, List.length_nil, List.nil_append, List.length_drop, hmore, bne_self_eq_false, Bool.or_self,
    Bool.false_eq_true, if_false, if_true]

theorem doSyncChunk_completes (hlast : uAt p 40 8 ≤ p.length - 48) :
    s.doSyncChunk m = ({ s.untake d with twin := { s.twin with copy := none } } : State).takeCopy (p.drop 48) := by
  rw [doSyncChunk, onTwin_passes ho hp hop (Bool.and_eq_true_iff.2 ⟨decide_eq_true hlong, hturn⟩)]
  simp only [untake_twin, hsyncing, hnone, hfirst, List.length_nil, List.nil_append, List.length_drop, Nat.not_lt.2 hlast, bne_self_eq_false,
    Bool.or_self, Bool.false_eq_true, if_false]

end

/-- The end of catch-up at the twin that was caught up, with no forwarded write still to be answered (R342). -/
theorem doSyncDone_pairs (hop : twinIs 6 p = true) (hsyncing : s.twin.state = 1) (hcopy : s.twin.copy = none)
    (hnext : twinSeq p = s.twin.mirrorIn + 1) (hnone : s.twin.forwarded = [])
    (hquiet : (s.tables.any fun v => v.waiting.any (·.brought)) = false) :
    s.doSyncDone m = ({ s.untake d with twin := { s.twin with state := 2, moved := [], mirrorIn := twinSeq p } } : State).sendTwin 4 (twinKind p)
      (twinObj p) (twinSeq p) (twinWid p) (leBytes 4 0) := by
  have hready : (s.inTurn m && s.twin.copy.isNone && !(s.tables.any fun v => v.waiting.any (·.brought))
      && (s.twin.state != 1 || twinSeq p == s.twin.mirrorIn + 1)) = true := by simp only [hturn, hcopy, hquiet, hnext]; simp
  rw [doSyncDone, onTwin_passes ho hp hop hready]
  simp only [untake_twin, hsyncing, sendTwin_twin, hnone, List.foldl_nil, bne_self_eq_false, Bool.false_eq_true, if_false]

end
end

/-- Giving or taking an object's token changes who holds it (R343). -/
theorem holdsToken_moveToken {s : State} (hpaired : s.twin.state = 2) (k : Nat × Nat) :
    (s.moveToken k).holdsToken k.1 k.2 = !(s.holdsToken k.1 k.2) := by
  have hmoved : (if s.twin.moved.contains k then s.twin.moved.filter (· != k) else s.twin.moved ++ [k]).contains k = !(s.twin.moved.contains k) := by
    by_cases h : k ∈ s.twin.moved <;> simp [h]
  simp only [holdsToken, moveToken, hpaired, hmoved, bne_self_eq_false, Bool.false_or]
  exact Bool.bne_not _ _

theorem doTwinPartnerLost_live {s : State} {i : Nat} {e : PeerEntry} (hrole : s.cfg.twin.role ≠ 0)
    (hentry : s.entryOfDevice s.cfg.twin.partner = some (i, e)) (hlive : e.state = 3) : s.doTwinPartnerLost = s.silenced i e := by
  simp only [doTwinPartnerLost, hrole, hentry, hlive, silenced, bne_self_eq_false, Bool.false_eq_true, if_false]

-- Catch-up at the sender (R342, R454)

section
variable {s : State} (hsyncing : s.twin.syncing = true) (hlive : s.liveDevice s.cfg.twin.partner = true) (hgoes : s.twin.doneSeq = none)
include hsyncing hlive hgoes

theorem doBgTwinSync_copies {c : Copying} (hcopy : s.twin.copy = some c) : s.doBgTwinSync = s.sendChunk c := by
  simp only [doBgTwinSync, hsyncing, hlive, hgoes, hcopy, Option.isSome_none, Bool.not_true, Bool.or_self, Bool.false_eq_true, if_false]

theorem doBgTwinSync_ends (hcopy : s.twin.copy = none) (hall : s.twin.syncTodo = []) : s.doBgTwinSync =
    ({ s with twin := { s.twin with mirrorOut := s.twin.mirrorOut + 1, doneSeq := some s.twin.mirrorOut } } : State).sendTwin 6 0 0
      s.twin.mirrorOut 0 (leBytes 8 s.twin.syncSent) := by
  simp only [doBgTwinSync, hsyncing, hlive, hgoes, hcopy, hall, Option.isSome_none, Bool.not_true, Bool.or_self, Bool.false_eq_true, if_false]

end
end State

/-- Settles O34: what each message of the partner does, the move of a token, and what a background slot sends. -/
theorem twinsExchangeTokensWritesAndCopies : Obligations.TwinsExchangeTokensWritesAndCopies := by
  refine ⟨⟨fun m s d q ho => ?tokens, fun s i e hrole hentry hlive => exec_of_effect rfl (State.doTwinPartnerLost_live hrole hentry hlive),
    fun s k hpaired => State.holdsToken_moveToken hpaired k⟩, fun m s d q ho hturn => ?inTurn, fun s hsyncing hlive hgoes => ?background⟩
  case tokens =>
    exact ⟨fun hop hpaired hholds hnew => exec_of_effect rfl (State.doTokenRequest_grants ho rfl hop hpaired hholds hnew),
      fun hop hpaired hlacks => exec_of_effect rfl (State.doTokenGrant_takes ho rfl hop hpaired hlacks),
      fun hop hlength hseq hnotDone n w o hfound =>
        ⟨fun hdiffers => exec_of_effect rfl (State.doApplied_splits ho rfl hop hlength hseq hnotDone hfound hdiffers),
        fun hstatus hreason hhost =>
          exec_of_effect rfl (State.doApplied_answers ho rfl hop hlength hseq hnotDone hfound hstatus hreason hhost)⟩⟩
  case inTurn =>
    exact ⟨fun hop hnext hstate hcopy hquiet => exec_of_effect rfl (State.doMirror_applies ho rfl hturn hop hnext hstate hcopy hquiet),
      fun hop hlong hsyncing hnone hfirst =>
        ⟨fun hmore => exec_of_effect rfl (State.doSyncChunk_begins ho rfl hturn hop hlong hsyncing hnone hfirst hmore),
        fun hlast => exec_of_effect rfl (State.doSyncChunk_completes ho rfl hturn hop hlong hsyncing hnone hfirst hlast)⟩,
      fun hop hsyncing hcopy hnext hnone hquiet =>
        exec_of_effect rfl (State.doSyncDone_pairs ho rfl hturn hop hsyncing hcopy hnext hnone hquiet)⟩
  case background =>
    exact ⟨fun c hcopy => exec_of_effect rfl (State.doBgTwinSync_copies hsyncing hlive hgoes hcopy),
      fun hcopy hall => exec_of_effect rfl (State.doBgTwinSync_ends hsyncing hlive hgoes hcopy hall)⟩

end Sys2Proof.Machine
end

section
/-! PROOFS. The step with a command waiting, the fuses that no step rolls back (R388, R389), and what a reset and the supply's loss leave
(R427, R461). -/

namespace Sys2Proof.Machine

theorem step_command {c : Instr} {rest : List Instr} {s : State} (h : s.pending = c :: rest) :
    step s = exec c { s with pending := rest } := by simp only [step, h]

/-- Settles O1: the front command is run on the rest of the queue. -/
theorem stepRunsFrontCommand : Obligations.StepRunsFrontCommand := fun _ _ _ => step_command rfl

namespace Fuses

/-- What a step may do to the fuses: it extends them, and owner slots stay within the eight that there are (R388). -/
structure Grows (f g : Fuses) : Prop extends f.Extends g where
  slots : f.owners.length ≤ 8 → g.owners.length ≤ 8

theorem Grows.refl (f : Fuses) : f.Grows f := ⟨⟨rfl, List.prefix_refl _, le_rfl, le_rfl⟩, id⟩

theorem Grows.of_eq {f g : Fuses} (h : g = f) : f.Grows g := h ▸ Grows.refl f

theorem Extends.trans {f g h : Fuses} (hfg : f.Extends g) (hgh : g.Extends h) : f.Extends h :=
  ⟨hgh.part.trans hfg.part, hfg.owners.trans hgh.owners, hfg.fw.trans hgh.fw, hfg.image.trans hgh.image⟩

/-- The owner slots after verification of an image with an owner key's hash and a transfer record (R389, R390): an unowned device enrols the
owner, an owned one stays or is transferred. -/
def nextOwners (f : Fuses) (hash : Bytes) (t : Option Transfer) : Option (List Bytes) :=
  if f.owners.isEmpty then some [hash]
  else if f.owners.getLast? == some hash then some f.owners
  else match t with
    | some t => if transferOk f hash t then some (f.owners ++ [hash]) else none
    | none => none

theorem nextOwners_grow {f : Fuses} {hash : Bytes} {t : Option Transfer} {os : List Bytes} (h : f.nextOwners hash t = some os) :
    f.owners <+: os ∧ (f.owners.length ≤ 8 → os.length ≤ 8) := by
  unfold nextOwners at h
  split at h
  case isTrue hempty =>
    obtain rfl := Option.some.inj h
    rw [List.isEmpty_iff.1 hempty]
    exact ⟨List.nil_prefix, fun _ => by simp⟩
  case isFalse =>
    split at h
    case isTrue => exact Option.some.inj h ▸ ⟨List.prefix_refl _, id⟩
    case isFalse =>
      cases t with
      | none => cases h
      | some t =>
        obtain ⟨htransfer, rfl⟩ : transferOk f hash t = true ∧ f.owners ++ [hash] = os := by simpa using h
        have hfree : f.owners.length < 8 := by
          simp only [transferOk, Bool.and_eq_true, decide_eq_true_eq] at htransfer
          exact htransfer.1.1.1.1.1
        exact ⟨List.prefix_append _ _, fun _ => by simpa using hfree⟩

end Fuses

theorem verifyImage_grows {f : Fuses} {img : Bytes} {v : Verified} (h : verifyImage f img = some v) : f.Grows v.fuses := by
  have hverified : ∃ hash t os fw svn, f.nextOwners hash t = some os ∧
      v.fuses = { f with owners := os, minFwSvn := max f.minFwSvn fw, minImageSvn := max f.minImageSvn svn } := by
    unfold verifyImage at h
    split at h
    · cases h
    · obtain ⟨os, hos, rfl⟩ := Option.map_eq_some_iff.1 h
      exact ⟨_, _, os, _, _, hos, rfl⟩
  obtain ⟨hash, t, os, fw, svn, hos, hfuses⟩ := hverified
  have ⟨howners, hslots⟩ := Fuses.nextOwners_grow hos
  rw [hfuses]
  exact ⟨⟨rfl, howners, le_max_left _ _, le_max_left _ _⟩, hslots⟩

theorem State.bootSlot_grows {s : State} {b : Nat} {v : Verified} (h : s.bootSlot = some (b, v)) : s.fuses.Grows v.fuses := by
  obtain ⟨c, -, hc⟩ := List.exists_of_findSome?_eq_some h
  obtain ⟨w, hw, heq⟩ := Option.map_eq_some_iff.1 hc
  cases heq
  exact verifyImage_grows hw

theorem State.startFuses_grows (r : StartReport) (s : State) : s.fuses.Grows (s.startFuses r) := by
  unfold State.startFuses
  split
  · split
    case h_1 hboot => exact State.bootSlot_grows (s := { s with flash := State.boardFlash r s.flash }) hboot
    case h_2 => exact Fuses.Grows.refl _
  · exact Fuses.Grows.refl _

theorem exec_grows {c : Instr} {s t : State} (h : exec c s = .next t) : s.fuses.Grows t.fuses := by
  obtain hsame | ⟨r, -, hstart⟩ := exec_fuses c s t h
  · exact .of_eq hsame
  · exact hstart ▸ State.startFuses_grows r s

theorem State.tick_fuses (s : State) : s.tick.fuses = s.fuses := State.after_fuses s _

/-- A step extends the fuses: idle it leaves them alone, and of the commands start-up alone burns any. -/
theorem step_grows {s t : State} (h : step s = .next t) : s.fuses.Grows t.fuses := by
  cases hpending : s.pending with
  | nil =>
    have htick : s.tick = t := Host.Outcome.next.inj ((step_idle hpending).symm.trans h)
    exact .of_eq (htick ▸ State.tick_fuses s)
  | cons c rest => exact exec_grows (s := { s with pending := rest }) ((step_command hpending).symm.trans h)

/-- Settles O60: every step extends the fuses, and extending is transitive. -/
theorem fusesNeverRollBack : Obligations.FusesNeverRollBack := by
  intro f s t hf hslots hstep
  have hgrows := step_grows hstep
  exact ⟨hf.trans hgrows.toExtends, hgrows.slots hslots⟩

namespace State

theorem quiet_afterReset (s : State) : s.afterReset.Quiet :=
  ⟨rfl, rfl, rfl, rfl, rfl, rfl, rfl, rfl, rfl, rfl, rfl, rfl, rfl, rfl, rfl, rfl, rfl⟩

theorem quiet_doSupplyRemoval (s : State) : s.doSupplyRemoval.Quiet :=
  ⟨rfl, rfl, rfl, rfl, rfl, rfl, rfl, rfl, rfl, rfl, rfl, rfl, rfl, rfl, rfl, rfl, rfl⟩

end State

/-- Settles O3: the device is quiet after a reset, so nothing goes on by itself; a new device's fuses are the least there are. -/
theorem resetKeepsFusesAndFlash : Obligations.ResetKeepsFusesAndFlash := by
  refine ⟨fun s => ?volatile, fun f hpart howners hfw himage => ?newDevice, by decide, rfl, State.reset_memOk⟩
  case volatile =>
    have hquiet := idleTicksAndQuietStays.2 s
    exact ⟨congrArg Host.Outcome.next (hquiet _ (State.quiet_afterReset s)), congrArg Host.Outcome.next (hquiet _ (State.quiet_doSupplyRemoval s))⟩
  case newDevice => exact ⟨hpart.symm, howners ▸ List.nil_prefix, hfw.le, himage.le⟩

end Sys2Proof.Machine
end

section
/-! PROOFS. MWP transport (R348 to R354): the checks of a datagram, what outside a session delivers it, retransmission, acknowledgement, and the
window. -/

namespace Sys2Proof.Machine
namespace State

-- MWP_DATAGRAM_RX (R348, R349, R356)

/-- Bytes that leave a receive buffer change their sub-port alone, and may let an XON leave. -/
theorem rxDrain_eq (sub n : Nat) (s : State) : ∃ subs out, s.rxDrain sub n = { s with subs, out } := by
  unfold rxDrain
  split
  · exact ⟨_, _, rfl⟩
  · dsimp only
    split
    · exact ⟨_, _, rfl⟩
    · exact ⟨_, _, rfl⟩

theorem rxDrain_sessions (sub n : Nat) (s : State) : (s.rxDrain sub n).sessions = s.sessions := by
  obtain ⟨subs, out, h⟩ := s.rxDrain_eq sub n
  rw [h]

theorem rxDrain_plainParts (sub n : Nat) (s : State) : (s.rxDrain sub n).plainParts = s.plainParts := by
  obtain ⟨subs, out, h⟩ := s.rxDrain_eq sub n
  rw [h]

theorem rxDrain_cfg (sub n : Nat) (s : State) : (s.rxDrain sub n).cfg = s.cfg := by
  obtain ⟨subs, out, h⟩ := s.rxDrain_eq sub n
  rw [h]

theorem rxDrain_rxHeld (sub n : Nat) (s : State) : (s.rxDrain sub n).rxHeld = s.rxHeld := by
  obtain ⟨subs, out, h⟩ := s.rxDrain_eq sub n
  rw [h]; rfl

/-- A datagram that opens reaches its session, any other is counted (R350). -/
def rxSealed (d : Datagram) (q : Session) (s : State) : State :=
  match opened q d.bytes with
  | none => s.count (mwpCtr 0x400) 1
  | some (phase, p) => s.rxSession d q phase p

section
variable {s : State} {d : Datagram} (hlive : s.portLive = true)
include hlive

theorem doMwpDatagramRx_spoiled (hbad : datagramOk d.bytes = false) :
    s.doMwpDatagramRx d = (s.rxDrain d.sub d.bytes.length).count (mwpCtr 0x400) 1 := by
  simp only [doMwpDatagramRx, hlive, hbad, Bool.not_true, Bool.not_false, Bool.false_eq_true, if_false, if_true]

variable (hok : datagramOk d.bytes = true)
include hok

theorem doMwpDatagramRx_plain (hsid : fld (hdr d.bytes) 79 48 = 0) :
    s.doMwpDatagramRx d = (s.rxDrain d.sub d.bytes.length).rxPlain d := by
  simp only [doMwpDatagramRx, hlive, hok, hsid, beq_self_eq_true, Bool.not_true, Bool.false_eq_true, if_false, if_true]

variable (hsid : fld (hdr d.bytes) 79 48 ≠ 0)
include hsid

theorem doMwpDatagramRx_stranger (hnone : s.sessions.find? (fun q => q.wire == fld (hdr d.bytes) 79 48 && q.peer == d.src) = none) :
    s.doMwpDatagramRx d = (s.rxDrain d.sub d.bytes.length).count (mwpCtr 0x400) 1 := by
  simp only [doMwpDatagramRx, hlive, hok, beq_false_of_ne hsid, rxDrain_sessions, hnone, Bool.not_true, Bool.false_eq_true, if_false]

variable {q : Session} (hq : s.sessions.find? (fun q => q.wire == fld (hdr d.bytes) 79 48 && q.peer == d.src) = some q)
include hq

/-- The initiator's bit of a datagram names its sender, so a datagram under this device's own is nobody's (R348). -/
theorem doMwpDatagramRx_reflected (hown : bitAt (hdr d.bytes) 21 = q.weInitiated) :
    s.doMwpDatagramRx d = (s.rxDrain d.sub d.bytes.length).count (mwpCtr 0x400) 1 := by
  simp only [doMwpDatagramRx, hlive, hok, beq_false_of_ne hsid, rxDrain_sessions, hq, hown, beq_self_eq_true, Bool.not_true, Bool.false_eq_true,
    if_false, if_true]

theorem doMwpDatagramRx_session (hother : bitAt (hdr d.bytes) 21 ≠ q.weInitiated) :
    s.doMwpDatagramRx d = (s.rxDrain d.sub d.bytes.length).rxSealed d q := by
  simp only [doMwpDatagramRx, hlive, hok, beq_false_of_ne hsid, rxDrain_sessions, hq, beq_false_of_ne hother, Bool.not_true, Bool.false_eq_true,
    if_false]
  rfl

end

-- Outside a session (R349)

/-- The message that one datagram outside a session makes up. -/
def plainMessage (d : Datagram) : Delivered :=
  let h := hdr d.bytes
  { session := 0, src := d.src, sub := d.sub, mac := d.mac, msgId := fld h 175 144, type := fld h 31 24, ctx := fld h 255 208
    frags := [slice d.bytes 32 (fld h 45 32)], leat := false }

/-- A whole message outside a session in one datagram: it needs no acknowledgement, and its SEQ, ACK and tag are 0. -/
structure PlainWhole (d : Datagram) : Prop where
  ok : datagramOk d.bytes = true
  type : plainType (fld (hdr d.bytes) 31 24) = true
  noAck : bitAt (hdr d.bytes) 23 = true
  seq : fld (hdr d.bytes) 111 80 = 0
  ack : fld (hdr d.bytes) 143 112 = 0
  one : fld (hdr d.bytes) 207 192 = 1
  tag : allZero (d.bytes.drop (32 + fld (hdr d.bytes) 45 32)) = true

theorem rxPlain_badType {s : State} {d : Datagram} (htype : plainType (fld (hdr d.bytes) 31 24) = false) :
    s.rxPlain d = s.count (mwpCtr 0x400) 1 := by
  simp only [rxPlain, htype, Bool.false_and, Bool.false_eq_true, if_false]

theorem datagramOk_payload_length {bs : Bytes} (h : datagramOk bs = true) :
    (slice bs 32 (fld (hdr bs) 45 32)).length = fld (hdr bs) 45 32 := by
  have hlen : bs.length = 48 + fld (hdr bs) 45 32 := by
    simp only [datagramOk, Bool.and_eq_true, beq_iff_eq] at h
    exact h.1.1.1.1.1.2
  simp only [slice, List.length_take, List.length_drop]
  omega

theorem datagramOk_index {bs : Bytes} (h : datagramOk bs = true) : fld (hdr bs) 191 176 < fld (hdr bs) 207 192 := by
  simp only [datagramOk, Bool.and_eq_true, decide_eq_true_eq] at h
  exact h.2

/-- The only part of a message of one datagram agrees with itself (R355). -/
theorem disagrees_single (msgId type ctx : Nat) (p : Bytes) : disagrees { msgId, count := 1, type, ctx, frags := [] } 1 type ctx 0 p = false := by
  simp [disagrees]

section
variable {s : State} {d : Datagram} (hwhole : PlainWhole d)
include hwhole

theorem rxPlain_noRoom (hfull : s.cfg.limits.rxBytes < s.rxHeld + fld (hdr d.bytes) 45 32) : s.rxPlain d = s.count (mwpCtr 0x408) 1 := by
  simp only [rxPlain, hwhole.type, hwhole.noAck, hwhole.seq, hwhole.ack, hwhole.tag, beq_self_eq_true, Bool.and_self, if_true,
    datagramOk_payload_length hwhole.ok, gt_iff_lt, hfull]

theorem rxPlain_delivers (hroom : s.rxHeld + fld (hdr d.bytes) 45 32 ≤ s.cfg.limits.rxBytes)
    (hnew : ∀ x ∈ s.plainParts, ¬(x.1 = d.src ∧ x.2.msgId = fld (hdr d.bytes) 175 144 ∧ x.2.type = fld (hdr d.bytes) 31 24)) :
    s.rxPlain d = { s with delivered := s.delivered ++ [plainMessage d] } := by
  have hother : ∀ x ∈ s.plainParts,
      (x.1 == d.src && x.2.msgId == fld (hdr d.bytes) 175 144 && x.2.type == fld (hdr d.bytes) 31 24) = false := fun x hx => by
    simpa [and_assoc] using hnew x hx
  have hindex : fld (hdr d.bytes) 191 176 = 0 := by
    have hlt := datagramOk_index hwhole.ok
    rw [hwhole.one] at hlt
    omega
  have hnone : s.plainParts.find? (fun x => x.1 == d.src && x.2.msgId == fld (hdr d.bytes) 175 144 && x.2.type == fld (hdr d.bytes) 31 24)
      = none := List.find?_eq_none.2 fun x hx => by simp [hother x hx]
  have hkept : s.plainParts.filter (fun x => !(x.1 == d.src && x.2.msgId == fld (hdr d.bytes) 175 144 && x.2.type == fld (hdr d.bytes) 31 24))
      = s.plainParts := List.filter_eq_self.2 fun x hx => by simp [hother x hx]
  simp only [rxPlain, hwhole.type, hwhole.noAck, hwhole.seq, hwhole.ack, hwhole.tag, beq_self_eq_true, Bool.and_self, if_true,
    datagramOk_payload_length hwhole.ok, gt_iff_lt, Nat.not_lt.2 hroom, if_false, hnone, hkept, hwhole.one, hindex, Option.map_none,
    Option.getD_none, disagrees_single, Bool.false_eq_true, insertKey, List.length_singleton]
  rfl

end

-- RETRANSMIT_TIMEOUT and ACK (R352, R353)

theorem doRetransmitTimeout_resends {sid seq : Nat} {s : State} {q : Session} {d : TxDatagram} (hq : s.session? sid = some q)
    (hd : q.unacked.find? (·.seq == seq) = some d) : s.doRetransmitTimeout sid seq =
      ((((s.atLeast (d.sentAt + timeoutOf q)).withSession sid fun q => { q with
        unacked := q.unacked.filter (·.seq != seq), lostAny := true }).launch sid d).count (mwpCtr 0x410) 1).withSession sid
          fun q => { q with backoff := q.backoff + 1 } := by
  have hlater : (s.atLeast (d.sentAt + timeoutOf q)).session? sid = some q := hq
  simp only [doRetransmitTimeout, hq, resend, hlater, Option.bind_some, hd]

theorem doAck_open {m : Msg} {s : State} {d : Delivered} {q : Session} (ho : s.Offers 0x05 m d q) : s.doAck m = (s.untake d).ackEffect m := by
  simp only [doAck, ho.delivered, ho.session, ho.live, ho.isOpen, Bool.not_true, Bool.false_eq_true, if_false, if_true]

theorem ackEffect_ranges {m : Msg} {n : Nat} (s : State) (hn : uAt m.frags.flatten 0 1 = n) (hlen : m.frags.flatten.length = 8 + 8 * n)
    (hmost : n ≤ 64) : s.ackEffect m =
      (s.withSession m.session fun q => { q with ceAcked := q.ceAcked + uAt m.frags.flatten 4 4 }).acknowledge m.session
        fun x => inRanges x ((List.range n).map fun i => (uAt m.frags.flatten (8 + 8 * i) 4, uAt m.frags.flatten (12 + 8 * i) 4)) := by
  simp only [ackEffect, hn, hlen, hmost, beq_self_eq_true, decide_true, Bool.and_self, if_true]

-- WINDOW_UPDATE (R354)

section
variable (q : Session)

/-- The smoothed share of CE bytes after an interval; an interval in which nothing was acknowledged has a share of 0 (log entry 156). -/
def smoothedShare (q : Session) : Rat :=
  (15 * q.alpha + if q.ackedBytes = 0 then 0 else min 1 ((q.ceAcked : Rat) / (q.ackedBytes : Rat))) / 16

theorem nextWindow_share : (nextWindow q).2 = smoothedShare q := rfl

variable {q}

theorem nextWindow_congested (hce : 0 < q.ceAcked) :
    nextWindow q = (max 4194304 ((q.window : Rat) * (1 - smoothedShare q / 2)).floor.toNat, smoothedShare q) :=
  Prod.ext (if_pos hce) (nextWindow_share q)

theorem nextWindow_lost (hce : q.ceAcked = 0) (hlost : q.lostAny = true) :
    nextWindow q = (max 4194304 (q.window / 2), smoothedShare q) :=
  Prod.ext ((if_neg (Nat.not_lt.2 hce.le)).trans (if_pos hlost)) (nextWindow_share q)

theorem nextWindow_clear (hce : q.ceAcked = 0) (hlost : q.lostAny = false) :
    nextWindow q = (min 67108864 (q.window + 65536), smoothedShare q) :=
  Prod.ext ((if_neg (Nat.not_lt.2 hce.le)).trans (if_neg (Bool.eq_false_iff.1 hlost))) (nextWindow_share q)

end

theorem doWindowUpdate_sets {sid w : Nat} {a : Rat} {s : State} {q : Session} (hq : s.session? sid = some q) (hnext : nextWindow q = (w, a)) :
    let u := s.atLeast (q.windowAt + q.tMin.getD (ticksOfUs 45))
    s.doWindowUpdate sid = (u.withSession sid fun q => { q with
      window := w, alpha := a, ackedBytes := 0, ceAcked := 0, lostAny := false, windowAt := u.portTicks }).pump sid q.queue := by
  simp only [doWindowUpdate, hq, hnext]

end State

/-- Settles O7: each check of a datagram in its order, and outside a session what becomes of a message of one datagram. -/
theorem datagramChecksBeforeUse : Obligations.DatagramChecksBeforeUse := by
  intro d s hlive u h
  refine ⟨fun hbad => exec_of_effect rfl (State.doMwpDatagramRx_spoiled hlive hbad), fun hok hsid => ?plain, fun hok hsid => ?sealed⟩
  case plain =>
    have hplain := State.doMwpDatagramRx_plain hlive hok hsid
    refine ⟨fun htype => exec_of_effect rfl (hplain.trans (State.rxPlain_badType htype)),
      fun htype hnoAck hseq hack hone htag hnew => ?whole⟩
    have hwhole : State.PlainWhole d := ⟨hok, htype, hnoAck, hseq, hack, hone, htag⟩
    have hheld : u.rxHeld = s.rxHeld := State.rxDrain_rxHeld _ _ s
    have hcfg : u.cfg = s.cfg := State.rxDrain_cfg _ _ s
    refine ⟨fun hfull => exec_of_effect rfl (hplain.trans (State.rxPlain_noRoom hwhole ?noRoom)),
      fun hroom => exec_of_effect rfl (hplain.trans (State.rxPlain_delivers hwhole ?room ?new))⟩
    case noRoom => rwa [hheld, hcfg]
    case room => rwa [hheld, hcfg]
    case new => rwa [State.rxDrain_plainParts]
  case sealed =>
    exact ⟨fun hnone => exec_of_effect rfl (State.doMwpDatagramRx_stranger hlive hok hsid hnone),
      fun q hq => ⟨fun hown => exec_of_effect rfl (State.doMwpDatagramRx_reflected hlive hok hsid hq hown),
        fun hother => exec_of_effect rfl (State.doMwpDatagramRx_session hlive hok hsid hq hother)⟩⟩

/-- Settles O8: the timed-out datagram is resent; an ACK of an open session has its effect alone. -/
theorem timeoutResendsAckAcknowledges : Obligations.TimeoutResendsAckAcknowledges := by
  refine ⟨fun sid seq s q d hq hd => exec_of_effect rfl (State.doRetransmitTimeout_resends hq hd),
    fun m s d q n ho hn hlen hmost => exec_of_effect rfl ?ack⟩
  case ack => rw [State.doAck_open ho, State.ackEffect_ranges _ hn.symm hlen hmost]

/-- Settles O9: the three cases of the next window. -/
theorem windowFollowsCongestion : Obligations.WindowFollowsCongestion := by
  intro sid s q hq share a u result
  exact ⟨fun hce => exec_of_effect rfl (State.doWindowUpdate_sets hq (State.nextWindow_congested hce)),
    fun hce hlost => exec_of_effect rfl (State.doWindowUpdate_sets hq (State.nextWindow_lost hce hlost)),
    fun hce hlost => exec_of_effect rfl (State.doWindowUpdate_sets hq (State.nextWindow_clear hce hlost))⟩

end Sys2Proof.Machine
end

section
/-! PROOFS. Sessions as they open and close (R351, R381 to R387): the three handshake messages, CLOSE, and the handshake's timers. -/

namespace Sys2Proof.Machine

theorem leBytes_length (k n : Nat) : (leBytes k n).length = k := by
  induction k generalizing n with
  | zero => rfl
  | succ k ih => simp only [leBytes, List.length_cons, ih]

namespace State

-- SESSION_INIT (R383, R384, R386)

/-- The sender of an INIT is a listed device whose index is not below this device's own (R383). -/
def OpensFromAbove (s : State) (src : Endpoint) : Prop := ∃ i, s.deviceAt src = some i ∧ s.cfg.peers.selfIndex ≤ i

/-- An INIT of a device that may not open the session: the other side opens it, or no device's handshake is taken now. -/
def barsInit (s : State) (src : Endpoint) (p : Bytes) : Bool :=
  bitAt (uAt p 0 4) 1 && ((s.deviceAt src).any (fun i => decide (s.cfg.peers.selfIndex ≤ i)) || !s.takesDevices)

theorem barsInit_iff {s : State} {src : Endpoint} {p : Bytes} : s.barsInit src p = true ↔
    bitAt (uAt p 0 4) 1 = true ∧ (s.OpensFromAbove src ∨ s.takesDevices = false) := by
  simp [barsInit, OpensFromAbove, Option.any_eq_true]

/-- What an INIT within the form and from a sender that may open a session leads to: its handshake's ACCEPT again, a refusal, or a new
handshake's ACCEPT. -/
def answerInit (sub : Nat) (src : Endpoint) (p : Bytes) (s : State) : State :=
  match s.handshakes.find? fun h => !h.initiator && h.peer == src && h.randomI == slice p 4 32 with
  | some h => s.sendPlain sub src 2 h.acceptPayload
  | none =>
    if decide (1024 ≤ s.sessions.length) || decide (64 ≤ (s.handshakes.filter fun h => !h.initiator).length) then
      s.refuseHandshake sub src 0 1
    else if s.boot.service == 2 && s.fuses.owners.isEmpty then (s.count (mwpCtr 0x418) 1).refuseHandshake sub src 0 2
    else
      let h := s.answerHandshake sub src p
      ({ s with free := s.free + 4, handshakes := s.handshakes ++ [h], nextHandshake := s.nextHandshake + 1 } : State).sendPlain
        sub src 2 h.acceptPayload

section
variable {s : State} {sub : Nat} {src : Endpoint} {p : Bytes} {d : Delivered}

section
variable (htaken : s.plainTaken? 1 sub src p = some d) (hlive : s.portLive = true)
include htaken hlive

theorem doSessionInit_taken : s.doSessionInit sub src p =
    if p.length != 1701 || decide (4 ≤ uAt p 0 4) then (s.untake d).count (mwpCtr 0x408) 1
    else if s.barsInit src p then (s.untake d).count (mwpCtr 0x408) 1
    else (s.untake d).answerInit sub src p := by
  simp only [doSessionInit, htaken, hlive, Bool.not_true, Bool.false_eq_true, if_false]
  refine if_congr Iff.rfl rfl (if_congr ?bars rfl rfl)
  case bars =>
    have hat : (s.untake d).deviceAt src = s.deviceAt src := rfl
    rw [barsInit, hat]
    cases s.deviceAt src <;> exact Iff.rfl

theorem doSessionInit_counts (hbad : p.length ≠ 1701 ∨ 4 ≤ uAt p 0 4 ∨
      (bitAt (uAt p 0 4) 1 = true ∧ (s.OpensFromAbove src ∨ s.takesDevices = false))) :
    s.doSessionInit sub src p = (s.untake d).count (mwpCtr 0x408) 1 := by
  rw [doSessionInit_taken htaken hlive]
  obtain hlen | hflags | hbars := hbad
  · simp [hlen]
  · simp [hflags]
  · rw [barsInit_iff.2 hbars, if_pos rfl, ite_self]

theorem doSessionInit_answers (hlen : p.length = 1701) (hflags : uAt p 0 4 < 4)
    (hmay : bitAt (uAt p 0 4) 1 = true → ¬s.OpensFromAbove src ∧ s.takesDevices = true) :
    s.doSessionInit sub src p = (s.untake d).answerInit sub src p := by
  have hbars : ¬s.barsInit src p = true := fun h => by
    obtain ⟨hdevice, hbarred⟩ := barsInit_iff.1 h
    obtain ⟨hbelow, htakes⟩ := hmay hdevice
    exact hbarred.elim hbelow fun hnot => Bool.false_ne_true (hnot.symm.trans htakes)
  rw [doSessionInit_taken htaken hlive, if_neg (by simp [hlen, hflags]), if_neg hbars]

end

theorem answerInit_again {h : Handshake} (hheld : s.handshakes.find? (fun h => !h.initiator && h.peer == src && h.randomI == slice p 4 32) = some h) :
    s.answerInit sub src p = s.sendPlain sub src 2 h.acceptPayload := by simp only [answerInit, hheld]

section
variable (hnew : s.handshakes.find? (fun h => !h.initiator && h.peer == src && h.randomI == slice p 4 32) = none)
include hnew

theorem answerInit_full (hfull : 1024 ≤ s.sessions.length ∨ 64 ≤ (s.handshakes.filter fun h => !h.initiator).length) :
    s.answerInit sub src p = s.refuseHandshake sub src 0 1 := by
  have hlimit : (decide (1024 ≤ s.sessions.length) || decide (64 ≤ (s.handshakes.filter fun h => !h.initiator).length)) = true := by
    simpa using hfull
  simp only [answerInit, hnew, hlimit, if_true]

variable (hroom : ¬(1024 ≤ s.sessions.length ∨ 64 ≤ (s.handshakes.filter fun h => !h.initiator).length))
include hroom

theorem answerInit_room : s.answerInit sub src p =
    if s.boot.service == 2 && s.fuses.owners.isEmpty then (s.count (mwpCtr 0x418) 1).refuseHandshake sub src 0 2
    else ({ s with free := s.free + 4, handshakes := s.handshakes ++ [s.answerHandshake sub src p]
                   nextHandshake := s.nextHandshake + 1 } : State).sendPlain sub src 2 (s.answerHandshake sub src p).acceptPayload := by
  have hlimit : (decide (1024 ≤ s.sessions.length) || decide (64 ≤ (s.handshakes.filter fun h => !h.initiator).length)) = false :=
    Bool.eq_false_iff.2 fun h => hroom (by simpa using h)
  simp only [answerInit, hnew, hlimit, Bool.false_eq_true, if_false]

theorem answerInit_unowned (hrecovery : s.boot.service = 2) (howners : s.fuses.owners = []) :
    s.answerInit sub src p = (s.count (mwpCtr 0x418) 1).refuseHandshake sub src 0 2 := by
  rw [answerInit_room hnew hroom, if_pos (by simp [hrecovery, howners])]

theorem answerInit_opens (howned : ¬(s.boot.service = 2 ∧ s.fuses.owners = [])) : s.answerInit sub src p =
    ({ s with free := s.free + 4, handshakes := s.handshakes ++ [s.answerHandshake sub src p]
              nextHandshake := s.nextHandshake + 1 } : State).sendPlain sub src 2 (s.answerHandshake sub src p).acceptPayload := by
  rw [answerInit_room hnew hroom, if_neg (by simpa using howned)]

end
end

/-- An ACCEPT begins with the session's id (R383). -/
theorem answerHandshake_sessionFirst (s : State) (sub : Nat) (src : Endpoint) (p : Bytes) :
    (s.answerHandshake sub src p).acceptPayload.take 4 = leBytes 4 (s.answerHandshake sub src p).session := by
  have hclear : ∃ rest, (s.answerHandshake sub src p).acceptPayload = leBytes 4 (s.answerHandshake sub src p).session ++ rest := by
    simp only [answerHandshake, List.append_assoc]
    exact ⟨_, rfl⟩
  obtain ⟨rest, hrest⟩ := hclear
  rw [hrest, List.take_left' (leBytes_length 4 _)]

-- SESSION_ACCEPT (R381, R383 to R385)

section
variable {s : State} {sub : Nat} {src : Endpoint} {p : Bytes} {d : Delivered} {h : Handshake} (htaken : s.plainTaken? 2 sub src p = some d)
  (hlive : s.portLive = true) (hh : s.handshakes.find? (fun h => h.initiator && h.peer == src && h.acceptPayload == []) = some h)
include htaken hlive hh

theorem doSessionAccept_unproved (hnone : (s.untake d).acceptedBy h p = none) :
    s.doSessionAccept sub src p = ((s.untake d).count (mwpCtr 0x418) 1).discardHandshake h := by
  have hh' : (s.untake d).handshakes.find? (fun h => h.initiator && h.peer == src && h.acceptPayload == []) = some h := hh
  simp only [doSessionAccept, htaken, hlive, hh', hnone, Bool.not_true, Bool.false_eq_true, if_false]

theorem doSessionAccept_proves {c : PeerCfg} {isA : Bool} (hproved : (s.untake d).acceptedBy h p = some (c, isA)) :
    let u := s.untake d
    s.doSessionAccept sub src p = ({ u with
      handshakes := u.handshakes.map (fun x => if x.id == h.id then acceptedHandshake h p isA s.portTicks else x)
      sessions := u.sessions ++ [openingSession h (u.localId (uAt p 0 4)) sub p c s.portTicks] } : State).sendPlain sub src 3
        (confirmFor h p) := by
  have hh' : (s.untake d).handshakes.find? (fun h => h.initiator && h.peer == src && h.acceptPayload == []) = some h := hh
  simp only [doSessionAccept, htaken, hlive, hh', hproved, Bool.not_true, Bool.false_eq_true, if_false]
  rfl

end

-- SESSION_CONFIRM (R381, R385, R386)

theorem refuseHandshake_peers (sub : Nat) (dst : Endpoint) (sid reason : Nat) (s : State) :
    (s.refuseHandshake sub dst sid reason).peers = s.peers := by
  have htransmit (o : Out) (s : State) : (s.transmit sub o).peers = s.peers := by unfold transmit; split <;> rfl
  have hemit (o : Out) (s : State) : (s.emitOn sub o).peers = s.peers := by
    unfold emitOn
    dsimp only
    split
    · exact htransmit _ s
    · split <;> exact htransmit _ _
  unfold refuseHandshake sendPlain
  split
  · exact hemit _ s
  · rfl

theorem deviceAt_congr {s t : State} (h : t.peers = s.peers) (src : Endpoint) : t.deviceAt src = s.deviceAt src := by
  simp only [deviceAt, h]

/-- A responder's handshake ends with its CONFIRM, whatever the CONFIRM proves. -/
def endHandshake (d : Delivered) (h : Handshake) (s : State) : State :=
  { s.untake d with handshakes := (s.untake d).handshakes.filter (·.id != h.id) }

/-- What follows from a CONFIRM that proves nothing: it is counted and refused, and a listed device that joined is LOST (R335, R386). -/
def refuseUnproved (sub : Nat) (src : Endpoint) (h : Handshake) (s : State) : State :=
  let w := (s.count (mwpCtr 0x418) 1).refuseHandshake sub src h.session 2
  match s.deviceAt src with
  | none => w
  | some dev => w.discardHandshake { h with dev }

section
variable {s : State} {sub : Nat} {src : Endpoint} {p : Bytes} {d : Delivered} {h : Handshake} (htaken : s.plainTaken? 3 sub src p = some d)
  (hlive : s.portLive = true) (hh : s.handshakes.find? (fun h => !h.initiator && h.peer == src && h.session == uAt p 0 4) = some h)
include htaken hlive hh

theorem doSessionConfirm_unproved (hnone : (s.untake d).confirmedBy h p = none) :
    s.doSessionConfirm sub src p = (s.endHandshake d h).refuseUnproved sub src h := by
  have hh' : (s.untake d).handshakes.find? (fun h => !h.initiator && h.peer == src && h.session == uAt p 0 4) = some h := hh
  simp only [doSessionConfirm, htaken, hlive, hh', hnone, Option.isSome_none, Bool.and_false, Bool.not_true, Bool.false_eq_true, if_false,
    refuseUnproved]
  rw [deviceAt_congr (refuseHandshake_peers ..)]
  have hat : (s.endHandshake d h).deviceAt src = s.deviceAt src := rfl
  have hat' : (count (mwpCtr 0x418) 1 { s.untake d with handshakes := (s.untake d).handshakes.filter (·.id != h.id) }).deviceAt src
    = s.deviceAt src := rfl
  rw [hat, hat']
  cases s.deviceAt src <;> rfl

theorem doSessionConfirm_full {x : Proven} (hproved : (s.untake d).confirmedBy h p = some x) (hfull : 1024 ≤ (s.endHandshake d h).sessions.length) :
    s.doSessionConfirm sub src p = (s.endHandshake d h).refuseHandshake sub src h.session 1 := by
  have hh' : (s.untake d).handshakes.find? (fun h => !h.initiator && h.peer == src && h.session == uAt p 0 4) = some h := hh
  have hfull' : 1024 ≤ (s.untake d).sessions.length := hfull
  simp only [doSessionConfirm, htaken, hlive, hh', hproved, hfull', decide_true, Option.isSome_some, Bool.and_self, Bool.not_true,
    Bool.false_eq_true, if_false, if_true]
  rfl

section
variable (hroom : ¬1024 ≤ (s.endHandshake d h).sessions.length)
include hroom

theorem doSessionConfirm_host {perms : Nat} (hproved : (s.untake d).confirmedBy h p = some (.host perms)) :
    let u := s.endHandshake d h
    s.doSessionConfirm sub src p = ({ u with
      sessions := u.sessions ++ [{ confirmedSession h sub p s.portTicks with perms }]
      peers := u.peers.map fun e => if e.2.role == 0 && e.2.host == some src && e.2.state != 0 then
          (e.1, { e.2 with session := h.session, state := if e.2.state == 2 then 3 else e.2.state }) else e } : State).sendAck h.session := by
  have hh' : (s.untake d).handshakes.find? (fun h => !h.initiator && h.peer == src && h.session == uAt p 0 4) = some h := hh
  have hroom' : ¬1024 ≤ (s.untake d).sessions.length := hroom
  simp only [doSessionConfirm, htaken, hlive, hh', hproved, hroom', decide_false, Bool.false_and, Bool.not_true, Bool.false_eq_true, if_false]
  rfl

theorem doSessionConfirm_device {c : PeerCfg} {key : Bytes} (hproved : (s.untake d).confirmedBy h p = some (.device c key)) :
    let u := s.endHandshake d h
    s.doSessionConfirm sub src p = (({ u with
      sessions := u.sessions ++ [{ confirmedSession h sub p s.portTicks with host := false, dev := c.index, role := c.role + 1 }] } : State).sendAck
        h.session).deviceJoins h.session c (Config.keyIsA key) := by
  have hh' : (s.untake d).handshakes.find? (fun h => !h.initiator && h.peer == src && h.session == uAt p 0 4) = some h := hh
  have hroom' : ¬1024 ≤ (s.untake d).sessions.length := hroom
  simp only [doSessionConfirm, htaken, hlive, hh', hproved, hroom', decide_false, Bool.false_and, Bool.not_true, Bool.false_eq_true, if_false]
  rfl

end
end

-- SESSION_CLOSE and the timers of handshakes and of a CLOSE (R351, R386)

section
variable {s : State} {src : Endpoint} {sid : Nat} {p : Bytes} {d : Delivered}
  (htaken : s.delivered.find? (fun d => d.session == sid && d.type == 4 && d.src == src && d.frags.flatten == p) = some d)
  (hlive : s.portLive = true) (hlen : p.length = 8)
include htaken hlive hlen

theorem doSessionClose_session {q : Session} (hsid : sid ≠ 0) (hq : s.session? sid = some q) (hwire : uAt p 0 4 = q.wire) :
    s.doSessionClose src sid p = (s.untake d).dropSession sid := by
  have hlive' : (s.untake d).portLive = true := hlive
  have hq' : (s.untake d).session? sid = some q := hq
  simp only [doSessionClose, htaken, hlive', hlen, beq_false_of_ne hsid, hq', hwire, bne_self_eq_false, beq_self_eq_true, Bool.not_true,
    Bool.or_self, Bool.false_eq_true, if_false, if_true]

theorem doSessionClose_handshake {h : Handshake} (hsid : sid = 0)
    (hh : s.handshakes.find? (fun h => h.peer == src && (h.session == uAt p 0 4 || h.initiator)) = some h) :
    s.doSessionClose src sid p = (s.untake d).discardHandshake h := by
  have hlive' : (s.untake d).portLive = true := hlive
  have hh' : (s.untake d).handshakes.find? (fun h => h.peer == src && (h.session == uAt p 0 4 || h.initiator)) = some h := hh
  subst hsid
  simp only [doSessionClose, htaken, hlive', hlen, hh', bne_self_eq_false, beq_self_eq_true, Bool.not_true, Bool.or_self, Bool.false_eq_true,
    if_false, if_true]

end

/-- A handshake's last message is about to leave again, at the earliest when its interval has passed; the interval doubles up to 1 s. -/
def resending (i : Nat) (h : Handshake) (s : State) : State :=
  let now := max s.portTicks (h.lastSent + h.interval)
  let h' : Handshake := { h with lastSent := now, interval := min (2 * h.interval) 156250000 }
  { s with portTicks := now, handshakes := s.handshakes.map fun x => if x.id == i then h' else x }

section
variable {s : State} {i : Nat} {h : Handshake} (hh : s.handshakes.find? (fun h => h.id == i && h.initiator) = some h)
include hh

theorem doHandshakeResend_init (hfirst : h.confirmPayload = []) :
    s.doHandshakeResend i = (s.resending i h).sendPlain h.sub h.peer 1 h.initPayload := by
  simp only [doHandshakeResend, hh, hfirst, beq_self_eq_true, if_true, resending, atLeast, ticksOfMs, Nat.reduceMul]

theorem doHandshakeResend_confirm (hconfirmed : h.confirmPayload ≠ []) :
    s.doHandshakeResend i = (s.resending i h).sendPlain h.sub h.peer 3 h.confirmPayload := by
  simp only [doHandshakeResend, hh, beq_false_of_ne hconfirmed, Bool.false_eq_true, if_false, resending, atLeast, ticksOfMs, Nat.reduceMul]

end

theorem doHandshakeTimeout_discards {s : State} {i : Nat} {h : Handshake} (hh : s.handshakes.find? (·.id == i) = some h) :
    s.doHandshakeTimeout i = (s.atLeast (h.started + ticksOfMs 2000)).discardHandshake h := by
  simp only [doHandshakeTimeout, hh]

theorem doCloseAckTimeout_drops {s : State} {sid t seq : Nat} {q : Session} (hq : s.session? sid = some q) (hclosing : q.closing = some (t, seq)) :
    s.doCloseAckTimeout sid = (s.atLeast (t + ticksOfMs 2000)).dropSession sid := by
  simp only [doCloseAckTimeout, hq, Option.bind_some, hclosing]

end State

/-- Settles O11: an INIT by its form and sender, then by its handshake, the limits and the owner. -/
theorem initIsAnsweredOrRefused : Obligations.InitIsAnsweredOrRefused := by
  intro sub src p s d htaken hlive u turned
  refine ⟨fun hbad => exec_of_effect rfl (State.doSessionInit_counts htaken hlive hbad), fun hlen hflags hmay => ?taken⟩
  have hanswers := State.doSessionInit_answers htaken hlive hlen hflags hmay
  exact ⟨fun h hheld => exec_of_effect rfl (hanswers.trans (State.answerInit_again hheld)),
    fun hnew hfull => exec_of_effect rfl (hanswers.trans (State.answerInit_full hnew hfull)),
    fun hnew hroom hrecovery howners => exec_of_effect rfl (hanswers.trans (State.answerInit_unowned hnew hroom hrecovery howners)),
    fun hnew hroom howned => ⟨rfl, rfl, rfl, rfl, rfl, rfl, State.answerHandshake_sessionFirst u sub src p,
      exec_of_effect rfl (hanswers.trans (State.answerInit_opens hnew hroom howned))⟩⟩

/-- Settles O12: an ACCEPT by whether it proves its sender; a CONFIRM by what it proves and whether a session is left to open. -/
theorem acceptAndConfirmOpenSessions : Obligations.AcceptAndConfirmOpenSessions := by
  refine ⟨fun sub src p s d h htaken hlive hh => ?accept, fun sub src p s d h htaken hlive hh => ?confirm⟩
  case accept =>
    intro u
    split
    case h_1 hnone => exact exec_of_effect rfl (State.doSessionAccept_unproved htaken hlive hh hnone)
    case h_2 c isA hproved =>
      exact ⟨rfl, rfl, rfl, rfl, rfl, rfl, exec_of_effect rfl (State.doSessionAccept_proves htaken hlive hh hproved)⟩
  case confirm =>
    intro v u
    split
    case h_1 hnone => exact exec_of_effect rfl (State.doSessionConfirm_unproved htaken hlive hh hnone)
    case h_2 x hproved =>
      split
      case isTrue hfull => exact exec_of_effect rfl (State.doSessionConfirm_full htaken hlive hh hproved hfull)
      case isFalse hroom =>
        cases x with
        | host perms => exact ⟨rfl, rfl, rfl, rfl, exec_of_effect rfl (State.doSessionConfirm_host htaken hlive hh hroom hproved)⟩
        | device c key => exact exec_of_effect rfl (State.doSessionConfirm_device htaken hlive hh hroom hproved)

/-- Settles O13: a CLOSE by where it came, a resend by the message that was last, and the two timers. -/
theorem sessionsEndAndHandshakesResend : Obligations.SessionsEndAndHandshakesResend := by
  refine ⟨fun src sid p s d htaken hlive hlen => ⟨?session, ?handshake⟩, fun i s h hh => ⟨?init, ?confirm⟩,
    fun i s h hh => exec_of_effect rfl (State.doHandshakeTimeout_discards hh),
    fun sid t seq s q hq hclosing => exec_of_effect rfl (State.doCloseAckTimeout_drops hq hclosing)⟩
  case session => exact fun q hsid hq hwire => exec_of_effect rfl (State.doSessionClose_session htaken hlive hlen hsid hq hwire)
  case handshake => exact fun h hsid hh => exec_of_effect rfl (State.doSessionClose_handshake htaken hlive hlen hsid hh)
  case init => exact fun hfirst => exec_of_effect rfl (State.doHandshakeResend_init hh hfirst)
  case confirm => exact fun hconfirmed => exec_of_effect rfl (State.doHandshakeResend_confirm hh hconfirmed)

end Sys2Proof.Machine
end

section
/-! PROOFS. The gate for hosts' messages (R357, R382, R401, R402, R414, R452): what it refuses, and that every host's message comes to it. -/

namespace Sys2Proof.Machine

/-- The command of a host's message that is no durable write takes it as `onMessage` does, with the payloads that are its own. -/
theorem exec_messageRow {c : Instr} {type : Nat} {m : Msg} {writes : Bool} (hrow : hostRow c = some (type, m, writes))
    (hplain : durableType type = false) (s : State) : ∃ f, exec c s = .next (s.after (s.onMessage type m writes (rowTakes c) f)) := by
  cases c
  all_goals cases hrow
  case loadRemove kind => cases kind <;> exact absurd hplain (by decide)
  case tableWrite | tableSwitch | tableRelease | hotSet | corpusAppend | corpusSwitchMerge | corpusSwitchChunk | corpusSwitchInstall | loadModel
      | loadPlan | loadAdapter | loadGrammar => exact absurd hplain (by decide)
  all_goals exact ⟨_, rfl⟩

/-- The types of hosts' messages: each is one that only hosts send and that gets a reply; only an INSPECT writes at the gate. -/
theorem hostRow_type {c : Instr} {type : Nat} {m : Msg} {writes : Bool} (hrow : hostRow c = some (type, m, writes)) :
    hostType type = true ∧ silentType type = false ∧ type ∉ [0x61, 0x63, 0x70, 0x78, 0x05, 0x62, 0x04]
      ∧ (durableType type = true → writes = false) := by
  cases c
  all_goals cases hrow
  case loadRemove kind => cases kind <;> decide
  all_goals decide

/-- A host's message that the gate refuses is answered so, and nothing else happens (R357). -/
theorem exec_refusedRow {c : Instr} {type : Nat} {m : Msg} {writes : Bool} {s : State} {d : Delivered} {q : Session} {o : Outcome}
    (hrow : hostRow c = some (type, m, writes)) (ho : s.Offers type m d q) (htakes : rowTakes c d.frags.flatten = true)
    (hnext : durableType type = true → s.earlierWrite q d = false) (hgate : s.gate q type writes = some o) :
    exec c s = .next (s.after ((s.untake d).reply q.id m.msgId o (if durableType type then uAt d.frags.flatten 0 8 else 0))) := by
  obtain ⟨-, hreplies, -, hread⟩ := hostRow_type hrow
  cases hdurable : durableType type with
  | true =>
    obtain rfl := hread hdurable
    refine exec_of_effect (exec_durableRow hrow hdurable s) ?_
    rw [State.durableWrite_refused ho htakes (hnext hdurable) hgate (.inl hreplies), hdurable]
  | false =>
    obtain ⟨f, hexec⟩ := exec_messageRow hrow hdurable s
    refine exec_of_effect hexec ?_
    rw [State.onMessage_refused ho htakes hgate (.inl hreplies), hdurable]

namespace State

section
variable {s : State} {q : Session} {type : Nat} {writes : Bool} (hhost : hostType type = true)
include hhost

theorem gate_notPermitted (hnot : ¬(q.host = true ∧ bitAt q.perms (permBit type writes) = true)) 
    (hother : type ∉ [0x61, 0x63, 0x70, 0x78, 0x05, 0x62, 0x04]) : s.gate q type writes = some refNotPermitted := by
  simp only [List.mem_cons, List.not_mem_nil, or_false, not_or] at hother
  cases hq : q.host with
  | false => simp [gate, hhost, hq]
  | true =>
    have hperms : bitAt q.perms (permBit type writes) = false := by simpa [hq] using hnot
    simp [gate, hhost, hq, hperms, hother]

/-- For a host's session with the permission, the gate asks for the device's state alone. -/
theorem gate_permitted (hmay : q.host = true ∧ bitAt q.perms (permBit type writes) = true)
    (hother : type ∉ [0x61, 0x63, 0x70, 0x78, 0x05, 0x62, 0x04]) (hreplies : silentType type = false) :
    s.gate q type writes =
      if s.boot.service == 2 && !(type == 0x53 || (type == 0x40 && !writes)) then some refStopped
      else if s.boot.service == 3 && !(type == 0x40 && !writes) then some refStopped
      else if s.boot.service == 1 && !(s.runs fnPort) && !([0x40, 0x50, 0x51, 0x52].contains type) then some refStopped
      else none := by
  simp only [List.mem_cons, List.not_mem_nil, or_false, not_or] at hother
  simp [gate, hhost, hmay, hother, hreplies]

end
end State

/-- Settles O14: the permission comes first, and past it each state of the device refuses what it does not take. -/
theorem gateRefusesHostMessages : Obligations.GateRefusesHostMessages := by
  intro c type m writes s d q hrow ho htakes hnext wid answer permitted
  obtain ⟨hhost, hreplies, hother, -⟩ := hostRow_type hrow
  have hanswer {o : Outcome} (hgate : s.gate q type writes = some o) : answer o := exec_refusedRow hrow ho htakes hnext hgate
  have hnoRead (hread : ¬(type = 0x40 ∧ writes = false)) : (type == 0x40 && !writes) = false := Bool.eq_false_iff.2 (by simpa using hread)
  have hstate (hmay : permitted) := State.gate_permitted (s := s) hhost hmay hother hreplies
  refine ⟨fun hnot => hanswer (State.gate_notPermitted hhost hnot hother), fun hmay hservice himage hread => hanswer ?recovery,
    fun hmay hservice hread => hanswer ?failed, fun hmay hservice hport hinspect hstop hconfig hrestart => hanswer ?portStopped⟩
  case recovery =>
    rw [hstate hmay, if_pos]
    simp [hservice, himage, hnoRead hread]
  case failed =>
    rw [hstate hmay, if_neg (by simp [hservice]), if_pos]
    simp [hservice, hnoRead hread]
  case portStopped =>
    rw [hstate hmay, if_neg (by simp [hservice]), if_neg (by simp [hservice]), if_pos]
    simp [hservice, hport, hinspect, hstop, hconfig, hrestart]

end Sys2Proof.Machine
end

section
/-! PROOFS. Control messages (R413, R425): their single order, and what CONFIG, RESTART and POWER do once they are handled. -/

namespace Sys2Proof.Machine

/-- The command of a control message takes it as `control` does, with the payloads that are its own. -/
theorem exec_controlRow {c : Instr} {type : Nat} {m : Msg} (hrow : hostRow c = some (type, m, false)) (htype : type ∈ [0x48, 0x50, 0x51, 0x52])
    (s : State) : exec c s = .next (s.after (s.control type (rowTakes c) m)) := by
  cases c
  all_goals cases hrow
  case loadRemove kind => cases kind <;> exact absurd htype (by decide)
  case power | stopDrain | stopAbort | configSection | configLive | restart => exact rfl
  all_goals exact absurd htype (by decide)

theorem Fail.outcome_refuses (e : Fail) : e.outcome.status ≠ 0 := by cases e <;> decide

namespace State

/-- The control message that a delivered message brings. -/
def ctlOf (s : State) (type : Nat) (m : Msg) (d : Delivered) (q : Session) : CtlOp :=
  { session := q.id, msgId := m.msgId, type, payload := d.frags.flatten, arrived := s.portTicks }

/-- A control message that the gate passes takes its place behind the others. -/
theorem control_waits {type : Nat} {m : Msg} {test : Bytes → Bool} {s : State} {d : Delivered} {q : Session} (ho : s.Admits type m false d q)
    (htest : test d.frags.flatten = true) : s.control type test m =
      State.settle { s.untake d with fns := { (s.untake d).fns with waiting := (s.untake d).fns.waiting ++ [s.ctlOf type m d q] } } := by
  simp only [control]
  rw [onMessage_passes ho htest]
  rfl

end State

/-- Settles O19: with nothing in progress `settle` takes the only message up; otherwise the message is the last that waits. -/
theorem controlMessagesTakeTurns : Obligations.ControlMessagesTakeTurns := by
  intro c type m s d q hrow htype ho htakes u x
  exact ⟨fun hidle hnone => exec_of_effect (exec_controlRow hrow htype s) (State.control_passes ho htakes hidle hnone),
    exec_of_effect (exec_controlRow hrow htype s) (State.control_waits ho htakes)⟩

namespace State

-- One message from its start to its reply

/-- A control message is the one in progress. -/
def inProgress (x : CtlOp) (s : State) : State := { s with fns := { s.fns with current := some x } }

/-- A handled message is answered, or goes on without its reply. -/
def answerCtl (r : State × Option Outcome) : State :=
  match r.2 with
  | some o => r.1.finishCurrent o
  | none => r.1

theorem answerCtl_some (t : State) (o : Outcome) : answerCtl (t, some o) = t.finishCurrent o := rfl
theorem answerCtl_none (t : State) : answerCtl (t, none) = t := rfl

theorem settleCurrent_idle {s : State} (h : s.fns.current = none) : s.settleCurrent = s := by simp only [settleCurrent, h]

/-- A refusal answers its message and leaves the state as it was before it. -/
theorem answerCtl_refuses {s : State} {x : CtlOp} {o : Outcome} (hidle : s.fns.current = none) (ho : o.status ≠ 0) :
    (answerCtl (s.inProgress x, some o)).settleCurrent = s.reply x.session x.msgId o 0 := by
  have hback : ({ s.inProgress x with fns := { (s.inProgress x).fns with current := none } } : State) = s := by
    have hfns : ({ s.fns with current := none } : Functions) = s.fns := by rw [← hidle]
    exact congrArg (fun f => { s with fns := f }) hfns
  have hanswer : answerCtl (s.inProgress x, some o) = s.reply x.session x.msgId o 0 := by
    simp only [answerCtl_some, finishCurrent, hback, show (s.inProgress x).fns.current = some x from rfl, bne_iff_ne, ne_eq, ho, not_false_eq_true, if_true]
  rw [hanswer]
  refine settleCurrent_idle ?_
  rw [(reply_sends _ _ _ _ _).fns, hidle]

theorem startCtl_power {s : State} {x : CtlOp} (hx : x.type = 0x48) : s.startCtl x = answerCtl ((s.inProgress x).applyPower x) := by
  have hother : (x.type == 0x52) = false := hx ▸ rfl
  simp only [startCtl, hother, Bool.false_eq_true, if_false]
  simp only [hx]
  rfl

theorem startCtl_config {s : State} {x : CtlOp} (hx : x.type = 0x51) : s.startCtl x = answerCtl ((s.inProgress x).applyConfig x) := by
  have hother : (x.type == 0x52) = false := hx ▸ rfl
  simp only [startCtl, hother, Bool.false_eq_true, if_false]
  simp only [hx]
  rfl

/-- A RESTART in progress notes whether PORT was stopped when it began (R414). -/
def restartCtl (s : State) (x : CtlOp) : CtlOp := { x with functions := if bitAt s.fns.running 0 then 0 else 1 }

theorem startCtl_restart {s : State} {x : CtlOp} (hx : x.type = 0x52) :
    s.startCtl x = answerCtl ((s.inProgress (s.restartCtl x)).applyRestart (s.restartCtl x)) := by
  have hfunctions : b01 (!(bitAt s.fns.running 0)) = if bitAt s.fns.running 0 then 0 else 1 := by cases bitAt s.fns.running 0 <;> rfl
  obtain ⟨session, msgId, type, payload, functions, arrived⟩ := x
  obtain rfl : type = 0x52 := hx
  simp only [startCtl, beq_self_eq_true, if_true, hfunctions]
  rfl

-- CONFIG (R415, R416)

/-- A CONFIG of a section that it may carry, with no reserved bit set. -/
structure ConfigWhole (x : CtlOp) : Prop where
  long : 16 ≤ x.payload.length
  reserved : fld (uAt x.payload 0 16) 127 5 = 0
  code : fld (uAt x.payload 0 16) 3 0 < 10
  notSecurity : fld (uAt x.payload 0 16) 3 0 ≠ 4

/-- The running copy with a section replaced, M3 extended by the message. -/
def replaceSection (n : RunCfg) (p : Bytes) (s : State) : State := ({ s with cfg := n } : State).extendM3 2 p

section
variable {s : State} {x : CtlOp} (hx : ConfigWhole x)
include hx

theorem ConfigWhole.check : (decide (x.payload.length < 16) || fld (uAt x.payload 0 16) 127 5 != 0
    || inRange 10 14 (fld (uAt x.payload 0 16) 3 0)) = false := by
  have hcode := hx.code
  simp [hx.long, hx.reserved, inRange]
  omega

theorem ConfigWhole.permitted : (fld (uAt x.payload 0 16) 3 0 == 4 || fld (uAt x.payload 0 16) 3 0 == 15) = false := by
  have hcode := hx.code
  have hnot := hx.notSecurity
  simp only [Bool.or_eq_false_iff, beq_eq_false_iff_ne]
  omega

section
variable (hsection : bitAt (uAt x.payload 0 16) 4 = false)
include hsection

theorem applyConfig_busy (hbusy : s.fns.running &&& dependents (fld (uAt x.payload 0 16) 3 0) ≠ 0) : s.applyConfig x = (s, some refBusy) := by
  simp only [applyConfig, hx.check, hsection, bne_iff_ne.2 hbusy, Bool.not_false, Bool.false_eq_true, if_false, if_true]

variable (hstopped : s.fns.running &&& dependents (fld (uAt x.payload 0 16) 3 0) = 0)
include hstopped

theorem applyConfig_fails {e : Fail} (hparse : s.parseSection (fld (uAt x.payload 0 16) 3 0) (x.payload.drop 16) = .error e) :
    s.applyConfig x = (s, some e.outcome) := by
  simp only [applyConfig, hx.check, hx.permitted, hsection, hstopped, hparse, bne_self_eq_false, Bool.not_false, Bool.false_eq_true, if_false,
    if_true]

theorem applyConfig_replaces {n : RunCfg} (hparse : s.parseSection (fld (uAt x.payload 0 16) 3 0) (x.payload.drop 16) = .ok n) :
    let v := s.replaceSection n x.payload
    s.applyConfig x = ((if fld (uAt x.payload 0 16) 3 0 = 5 then v.listPeers else v).refreshCatalogue s.cfg, some {}) := by
  simp only [applyConfig, hx.check, hx.permitted, hsection, hstopped, hparse, bne_self_eq_false, beq_iff_eq, Bool.not_false, Bool.false_eq_true,
    if_false, if_true]
  rfl

end

section
variable (hlive : bitAt (uAt x.payload 0 16) 4 = true)
include hlive

theorem applyConfig_live_fails {e : Fail} (hparse : s.parseSection (fld (uAt x.payload 0 16) 3 0) (x.payload.drop 16) = .error e) :
    s.applyConfig x = (s, some e.outcome) := by
  simp only [applyConfig, hx.check, hx.permitted, hlive, hparse, Bool.not_true, Bool.false_eq_true, if_false]

variable {n : RunCfg} (hparse : s.parseSection (fld (uAt x.payload 0 16) 3 0) (x.payload.drop 16) = .ok n)
include hparse

theorem applyConfig_live_others (hother : withLive s.cfg n ≠ n) : s.applyConfig x = (s, some refWrongState) := by
  simp only [applyConfig, hx.check, hx.permitted, hlive, hparse, beq_false_of_ne hother, Bool.not_true, Bool.false_eq_true, if_false]

theorem applyConfig_live_takes (hsame : withLive s.cfg n = n) :
    let v := s.replaceSection n x.payload
    let v := if fld (uAt x.payload 0 16) 3 0 = 2 then v.newShareWeights s.cfg else v
    s.applyConfig x = (v, if fld (uAt x.payload 0 16) 3 0 = 2 ∧ v.weightsSettled = false then none else some {}) := by
  have hlivecfg : (withLive s.cfg n == n) = true := beq_iff_eq.2 hsame
  simp only [applyConfig, hx.check, hx.permitted, hlive, hparse, hlivecfg, beq_iff_eq, Bool.and_eq_true, Bool.not_eq_true', Bool.not_true,
    Bool.false_eq_true, if_false, if_true]
  rfl

end
end
-- RESTART (R412, R417, R418, R450)

/-- A RESTART may start functions `f`: nothing recovers them, each has what it needs running or named, and for POOLS the arrays are clocked. -/
def MayRestart (s : State) (f : Nat) : Prop :=
  f &&& s.fns.recovering = 0 ∧ restartOk s.fns.running f = true
    ∧ (bitAt (maskWithout f s.fns.running) 2 = true → s.power.state = 0 ∧ s.power.arraysClocked = true)

theorem mayRestart_iff {s : State} {f : Nat} : s.MayRestart f ↔ (f &&& s.fns.recovering != 0 || !(restartOk s.fns.running f)) = false
    ∧ (bitAt (maskWithout f s.fns.running) 2 && !(s.power.state == 0 && s.power.arraysClocked)) = false := by
  simp [MayRestart, and_assoc, Decidable.imp_iff_not_or]

/-- POOLS start at the P-level of the running copy; without them the power state stays. -/
def takeLevel (pools : Bool) (s : State) : State :=
  let r := s.cfg.mode.vals s.fuses.part
  let v := if pools && s.power.pLevel != r.pLevel then s.emit (.avs r.pLevel) else s
  if pools then { v with power := { v.power with
    pLevel := r.pLevel, cap := r.cap, spreadArith := v.cfg.power.arithSpread, spreadMesh := v.cfg.power.meshSpread } } else v

/-- The spreads are those of the configuration as it stood: what leaves for the voltage regulator does not change it. -/
theorem takeLevel_eq (pools : Bool) (s : State) : s.takeLevel pools =
    let r := s.cfg.mode.vals s.fuses.part
    let v := if pools && s.power.pLevel != r.pLevel then s.emit (.avs r.pLevel) else s
    if pools then { v with power := { v.power with
      pLevel := r.pLevel, cap := r.cap, spreadArith := s.cfg.power.arithSpread, spreadMesh := s.cfg.power.meshSpread } } else v := by
  unfold takeLevel
  dsimp only
  by_cases hlevel : (pools && s.power.pLevel != (s.cfg.mode.vals s.fuses.part).pLevel) = true
  · rw [if_pos hlevel]
    rfl
  · rw [if_neg hlevel]

/-- Functions `f` start, POOLS at the P-level of the running copy, TWIN as SOLO, and each with its work set up. -/
def startFunctions (f : Nat) (p : Bytes) (s : State) : State :=
  let new := maskWithout f s.fns.running
  let v := ({ s with fns := { s.fns with running := s.fns.running ||| f } } : State).extendM3 3 p
  let r := s.cfg.mode.vals s.fuses.part
  let v := if bitAt new 2 && s.power.pLevel != r.pLevel then v.emit (.avs r.pLevel) else v
  let v := if bitAt new 2 then { v with power := { v.power with
    pLevel := r.pLevel, cap := r.cap, spreadArith := s.cfg.power.arithSpread, spreadMesh := s.cfg.power.meshSpread } } else v
  let v := if bitAt new 7 then v.enterSolo else v
  v.startWork new

section
variable {s : State} {x : CtlOp} (hlen : x.payload.length = 16) (hreserved : fld (uAt x.payload 0 16) 127 8 = 0)
include hlen hreserved

theorem applyRestart_wrongState (hnot : ¬s.MayRestart (fld (uAt x.payload 0 16) 7 0)) : s.applyRestart x = (s, some refWrongState) := by
  rw [mayRestart_iff, not_and_or, Bool.not_eq_false, Bool.not_eq_false] at hnot
  simp only [applyRestart, hlen, hreserved, bne_self_eq_false, Bool.or_self, Bool.false_eq_true, if_false]
  obtain hbarred | hunclocked := hnot
  · rw [if_pos hbarred]
  · rw [if_pos hunclocked, ite_self]

theorem applyRestart_starts (hmay : s.MayRestart (fld (uAt x.payload 0 16) 7 0)) :
    s.applyRestart x = (s.startFunctions (fld (uAt x.payload 0 16) 7 0) x.payload, some {}) := by
  obtain ⟨hfree, hclocked⟩ := mayRestart_iff.1 hmay
  simp only [applyRestart, hlen, hreserved, bne_self_eq_false, Bool.or_self, hfree, hclocked, Bool.false_eq_true, if_false]
  have hlevel := takeLevel_eq (bitAt (maskWithout (fld (uAt x.payload 0 16) 7 0) s.fns.running) 2)
    (({ s with fns := { s.fns with running := s.fns.running ||| fld (uAt x.payload 0 16) 7 0 } } : State).extendM3 3 x.payload)
  exact congrArg (fun v : State => ((if bitAt (maskWithout (fld (uAt x.payload 0 16) 7 0) s.fns.running) 7 then v.enterSolo else v).startWork
    (maskWithout (fld (uAt x.payload 0 16) 7 0) s.fns.running), some ({} : Outcome))) hlevel

end

-- POWER (R425, R426)

/-- R425 refuses with a status of its own. -/
theorem powerRefusal_refuses {s : State} {w : Nat} {o : Outcome} (h : s.powerRefusal w = some o) : o.status ≠ 0 := by
  simp only [powerRefusal] at h
  split_ifs at h
  all_goals
    obtain rfl := Option.some.inj h
    decide

theorem maskWithout_self (a : Nat) : maskWithout a a = 0 := by simp [maskWithout]

/-- A POWER whose form is right. -/
structure PowerWhole (x : CtlOp) : Prop where
  length : x.payload.length = 16
  low : fld (uAt x.payload 0 16) 7 6 = 0
  high : fld (uAt x.payload 0 16) 127 32 = 0

/-- A POWER to another state, with no other change, is under way. -/
def enterTransition (st : Nat) (s : State) : State :=
  { s with power := { s.power with newLevel := none, target := some st, draining := [], ungating := [] } }

section
variable {s : State} {x : CtlOp} (hx : PowerWhole x)
include hx

theorem PowerWhole.check : (x.payload.length != 16 || fld (uAt x.payload 0 16) 7 6 != 0 || fld (uAt x.payload 0 16) 127 32 != 0) = false := by
  simp only [hx.length, hx.low, hx.high, bne_self_eq_false, Bool.or_self]

theorem applyPower_refuses {o : Outcome} (h : s.powerRefusal (uAt x.payload 0 16) = some o) : s.applyPower x = (s, some o) := by
  simp only [applyPower, hx.check, h, Bool.false_eq_true, if_false]

theorem applyPower_transition (hnone : s.powerRefusal (uAt x.payload 0 16) = none) (hst : fld (uAt x.payload 0 16) 2 0 ∈ [1, 2])
    (hother : fld (uAt x.payload 0 16) 2 0 ≠ s.power.state) (hgate : fld (uAt x.payload 0 16) 15 8 = s.power.gate)
    (hcap : fld (uAt x.payload 0 16) 31 16 = 0) :
    s.applyPower x = ((s.inProgress x).enterTransition (fld (uAt x.payload 0 16) 2 0), none) := by
  have hpools (n : Nat) : (List.range n).filter (bitAt 0) = [] := List.filter_eq_nil_iff.2 fun i _ => by simp [bitAt]
  generalize hstate : fld (uAt x.payload 0 16) 2 0 = st at hst hother
  simp only [List.mem_cons, List.not_mem_nil, or_false] at hst
  have hzero : (st == 0) = false := beq_false_of_ne (by omega)
  have hseven : (st == 7) = false := beq_false_of_ne (by omega)
  have hthree : (st == 3) = false := beq_false_of_ne (by omega)
  simp only [applyPower, hx.check, hnone, hstate, hgate, hcap, hzero, hseven, hthree, beq_false_of_ne hother, maskWithout_self, hpools,
    Nat.or_zero, beq_self_eq_true, Bool.false_and, Bool.or_self, Bool.false_eq_true, if_false, if_true, List.map_nil]
  rfl

end

/-- A transition goes on until its completion event. -/
theorem settleCurrent_transition {s : State} {x : CtlOp} (hx : x.type = 0x48) (st : Nat) :
    ((s.inProgress x).enterTransition st).settleCurrent = (s.inProgress x).enterTransition st := by
  have hcurrent : ((s.inProgress x).enterTransition st).fns.current = some x := rfl
  have hgating : ((s.inProgress x).enterTransition st).settleGating = (s.inProgress x).enterTransition st := rfl
  have htarget : ((s.inProgress x).enterTransition st).power.target = some st := rfl
  simp only [settleCurrent, hcurrent, hx, hgating, htarget, Option.isNone_some, Bool.false_and, Bool.false_eq_true, if_false]

end State

/-- A control message that nothing is before is handled at once, whichever command brought it. -/
theorem exec_control_alone {c : Instr} {type : Nat} {m : Msg} {s : State} {d : Delivered} {q : Session} (hrow : hostRow c = some (type, m, false))
    (htype : type ∈ [0x48, 0x50, 0x51, 0x52]) (ho : s.Admits type m false d q) (htakes : rowTakes c d.frags.flatten = true)
    (hidle : s.fns.current = none) (hnone : s.fns.waiting = []) :
    exec c s = .next (s.after (((s.untake d).startCtl (s.ctlOf type m d q)).settleCurrent)) :=
  exec_of_effect (exec_controlRow hrow htype s) (State.control_passes ho htakes hidle hnone)

/-- Settles O21: a CONFIG by LIVE_ONLY, by what runs, by whether its section parses, and by the fields that it changes. -/
theorem configReplacesSection : Obligations.ConfigReplacesSection := by
  intro m s d q w ho hidle hnone hw hlong hreserved hcode hnotSecurity p u answer
  subst hw
  let x : CtlOp := s.ctlOf 0x51 m d q
  let v : State := u.inProgress x
  have hx : State.ConfigWhole x := ⟨hlong, hreserved, hcode, hnotSecurity⟩
  have hanswers {c : Instr} {r : State × Option Outcome} (hrow : hostRow c = some (0x51, m, false)) (htakes : rowTakes c p = true)
      (happly : v.applyConfig x = r) : exec c s = .next (s.after (State.answerCtl r).settleCurrent) := by
    rw [← happly, ← State.startCtl_config rfl]
    exact exec_control_alone hrow (by decide) ho htakes hidle hnone
  have hrefuses {c : Instr} {o : Outcome} (hrow : hostRow c = some (0x51, m, false)) (htakes : rowTakes c p = true) (ho : o.status ≠ 0)
      (happly : v.applyConfig x = (v, some o)) : answer c o :=
    exec_of_effect (hanswers hrow htakes happly) (State.answerCtl_refuses hidle ho)
  have hdone {c : Instr} {t : State} (hrow : hostRow c = some (0x51, m, false)) (htakes : rowTakes c p = true)
      (happly : v.applyConfig x = (t, some {})) : exec c s = .next (s.after (t.finishCurrent {}).settleCurrent) := by
    rw [← State.answerCtl_some]
    exact hanswers hrow htakes happly
  refine ⟨fun hsection => ?whole, fun hlive => ?live⟩
  case whole =>
    have htakes : rowTakes (.configSection m) p = true := by simp only [rowTakes, p, hsection, Bool.not_false]
    refine ⟨fun hbusy => hrefuses rfl htakes (by decide) (State.applyConfig_busy (s := v) hx hsection hbusy), fun hstopped =>
      ⟨fun e he => hrefuses rfl htakes (Fail.outcome_refuses e) (State.applyConfig_fails (s := v) hx hsection hstopped he),
        fun n hn => hdone rfl htakes (State.applyConfig_replaces (s := v) hx hsection hstopped hn)⟩⟩
  case live =>
    refine ⟨fun e he => hrefuses rfl hlive (Fail.outcome_refuses e) (State.applyConfig_live_fails (s := v) hx hlive he),
      fun n hn => ⟨fun hother => hrefuses rfl hlive (by decide) (State.applyConfig_live_others (s := v) hx hlive hn hother), fun hsame => ?takes⟩⟩
    intro y w w'
    refine exec_of_effect (hanswers rfl hlive (State.applyConfig_live_takes (s := v) hx hlive hn hsame)) (congrArg State.settleCurrent ?_)
    by_cases hwaits : fld (uAt p 0 16) 3 0 = 2 ∧ w'.weightsSettled = false
    · exact (congrArg State.answerCtl (congrArg _ (if_pos hwaits))).trans (if_pos hwaits).symm
    · exact (congrArg State.answerCtl (congrArg _ (if_neg hwaits))).trans (if_neg hwaits).symm

/-- Settles O22: a RESTART by whether its functions may start. -/
theorem restartStartsFunctions : Obligations.RestartStartsFunctions := by
  intro m s d q w ho hidle hnone hw hlen hreserved u f new x may
  subst hw
  have hstart : u.startCtl (s.ctlOf 0x52 m d q) = State.answerCtl ((u.inProgress x).applyRestart x) := State.startCtl_restart rfl
  have hanswers {r : State × Option Outcome} (happly : (u.inProgress x).applyRestart x = r) :
      exec (.restart m) s = .next (s.after (State.answerCtl r).settleCurrent) := by
    rw [← happly, ← hstart]
    exact exec_control_alone rfl (by decide) ho rfl hidle hnone
  have hdone {t : State} (happly : (u.inProgress x).applyRestart x = (t, some {})) :
      exec (.restart m) s = .next (s.after (t.finishCurrent {}).settleCurrent) := by
    rw [← State.answerCtl_some]
    exact hanswers happly
  refine ⟨fun hnot => ?wrongState, fun hmay => ?starts⟩
  case wrongState =>
    have hwrong := State.applyRestart_wrongState (s := u.inProgress x) (x := x) hlen hreserved hnot
    exact exec_of_effect (hanswers hwrong) (State.answerCtl_refuses hidle (by decide))
  case starts =>
    exact hdone (State.applyRestart_starts (s := u.inProgress x) (x := x) hlen hreserved hmay)

end Sys2Proof.Machine
end

section
/-! PROOFS. POWER and what completes it (R411, R423 to R430): transitions, P-levels, gated pools, and the drains that outlast DRAIN_MS. -/

namespace Sys2Proof.Machine
namespace State

section
variable {s : State}

/-- The commanded state is entered, its arrays clocked in ACTIVE alone (R426). -/
def enterState (st : Nat) (s : State) : State := { s with power := { s.power with state := st, target := none, arraysClocked := st == 0 } }

/-- ACTIVE ends the thermal hold (R433). -/
def endHold (st : Nat) (s : State) : State := if st == 0 then { s with power := { s.power with thermalHold := false } } else s

theorem endHold_eq (st : Nat) (s : State) :
    s.endHold st = { s with power := { s.power with thermalHold := if st = 0 then false else s.power.thermalHold } } := by
  unfold endHold
  by_cases hzero : st = 0
  · simp only [hzero, beq_self_eq_true, if_true]
  · simp only [beq_false_of_ne hzero, hzero, Bool.false_eq_true, if_false]

/-- What entering a state does to the tiles: STANDBY powers them down, leaving it finds their memory zero (R421, R426). -/
def prepareTiles (st : Nat) (s : State) : State :=
  if st == 2 then s.powerDownTiles (fun _ => true) else if s.power.state == 2 then s.zeroTiles else s

/-- What the completion of a transition does when no tile fails its self-test. -/
def completeTransition (st : Nat) (s : State) : State :=
  if st == 3 then
    let u := (s.enterState st).zeroHbm.powerDownTiles fun _ => true
    match u.fns.current with
    | some c => (({ u with fns := { u.fns with current := none } } : State).reply c.session c.msgId {} 0).goQuiet
    | none => u.goQuiet
  else (((s.prepareTiles st).enterState st).endHold st).settle

theorem doPowerTransitionDone_completes {st : Nat} (htarget : s.power.target = some st) :
    s.doPowerTransitionDone none = s.completeTransition st := by
  simp only [doPowerTransitionDone, htarget]
  cases hfrom : s.power.state == 2 with
  | true =>
    simp only [completeTransition, prepareTiles, hfrom, if_true]
    rfl
  | false =>
    simp only [completeTransition, prepareTiles, hfrom, Bool.false_eq_true, if_false]
    rfl

theorem doPowerTransitionDone_enters {st : Nat} (htarget : s.power.target = some st) (hst : st ≠ 3) :
    s.doPowerTransitionDone none = (((s.prepareTiles st).enterState st).endHold st).settle := by
  rw [doPowerTransitionDone_completes htarget, completeTransition, if_neg (by simpa using hst)]

theorem doPowerTransitionDone_offPrep {c : CtlOp} (htarget : s.power.target = some 3) (hcurrent : s.fns.current = some c) :
    let e : State := { s with power := { s.power with state := 3, target := none, arraysClocked := false } }
    let u := e.zeroHbm.powerDownTiles fun _ => true
    s.doPowerTransitionDone none = (({ u with fns := { u.fns with current := none } } : State).reply c.session c.msgId {} 0).goQuiet := by
  intro e u
  have hcurrent' : u.fns.current = some c := by
    show (e.zeroHbm.loseTiles fun _ => true).fns.current = some c
    rw [(loseTiles_keeps _ _).fns]
    exact hcurrent
  rw [doPowerTransitionDone_completes htarget, completeTransition, if_pos (beq_self_eq_true 3)]
  simp only [show (s.enterState 3).zeroHbm.powerDownTiles (fun _ => true) = u from rfl, hcurrent']

theorem doPowerTransitionDone_selfTestFails {st t : Nat} (htarget : s.power.target = some st) (hstandby : s.power.state = 2) :
    s.doPowerTransitionDone (some t) = s.zeroTiles.selfTestFails t := by
  simp only [doPowerTransitionDone, htarget, hstandby, beq_self_eq_true]

theorem doPlevelVoltageReached_switches {n : Nat} (hlevel : s.power.newLevel = some n) :
    s.doPlevelVoltageReached = State.settle { s with power := { s.power with pLevel := n, newLevel := none } } := by
  simp only [doPlevelVoltageReached, hlevel]

section
variable {pool : Nat} (hpool : pool ∈ s.power.ungating)
include hpool

theorem doPoolUngateReady_opens : s.doPoolUngateReady pool none = State.settle (({ s with power := { s.power with
    gate := maskWithout s.power.gate (2 ^ pool), ungating := s.power.ungating.filter (· != pool) } } : State).startWork 0) := by
  simp only [doPoolUngateReady, List.contains_iff_mem.2 hpool, if_true]

theorem doPoolUngateReady_selfTestFails (t : Nat) : s.doPoolUngateReady pool (some t) = s.selfTestFails t := by
  simp only [doPoolUngateReady, List.contains_iff_mem.2 hpool, if_true]

end

theorem doPoolGateDrainTimeout_cancels {pool : Nat} {x : Nat × Nat} (hx : s.power.draining.find? (·.1 == pool) = some x) :
    s.doPoolGateDrainTimeout pool =
      State.settle ((s.atLeast (x.2 + ticksOfMs s.cfg.limits.drainMs)).endRequests (boundTo pool) stCancelled) := by
  simp only [doPoolGateDrainTimeout, hx]

theorem doStopDrainTimeout_cancels {c : CtlOp} (hcurrent : s.fns.current = some c) (htype : c.type = 0x50)
    (hdrains : bitAt (uAt c.payload 0 16) 8 = false) : s.doStopDrainTimeout =
      State.settle ((s.atLeast (c.arrived + ticksOfMs s.cfg.limits.drainMs)).endRequests (fun r => r.needs &&& c.functions != 0) stCancelled) := by
  simp only [doStopDrainTimeout, hcurrent, htype, hdrains, beq_self_eq_true, Bool.not_false, Bool.and_self, if_true]

end
end State

/-- Settles O23: a POWER by its refusal or its target, then each completion event. -/
theorem powerAndGatingTransitions : Obligations.PowerAndGatingTransitions := by
  refine ⟨fun m s d q w ho hidle hnone hw hlen hlow hhigh => ?power, fun s st htarget hst => ?enters, fun s c htarget hcurrent => ?offPrep,
    fun s st t htarget hstandby => exec_of_effect rfl (State.doPowerTransitionDone_selfTestFails htarget hstandby),
    fun s n hlevel => exec_of_effect rfl (State.doPlevelVoltageReached_switches hlevel),
    fun s pool hpool => ⟨exec_of_effect rfl (State.doPoolUngateReady_opens hpool),
      fun t => exec_of_effect rfl (State.doPoolUngateReady_selfTestFails hpool t)⟩,
    fun s pool x hx => exec_of_effect rfl (State.doPoolGateDrainTimeout_cancels hx),
    fun s c hcurrent htype hdrains => exec_of_effect rfl (State.doStopDrainTimeout_cancels hcurrent htype hdrains)⟩
  case power =>
    subst hw
    intro u x
    have hx : State.PowerWhole x := ⟨hlen, hlow, hhigh⟩
    have hstart : u.startCtl x = State.answerCtl ((u.inProgress x).applyPower x) := State.startCtl_power rfl
    have hanswers {r : State × Option Outcome} (happly : (u.inProgress x).applyPower x = r) :
        exec (.power m) s = .next (s.after (State.answerCtl r).settleCurrent) := by
      rw [← happly, ← hstart]
      exact exec_control_alone rfl (by decide) ho rfl hidle hnone
    refine ⟨fun o hrefused => ?refused, fun hmay hst hother hgate hcap => ?transition⟩
    case refused =>
      have hrefuses := State.applyPower_refuses (s := u.inProgress x) hx hrefused
      exact exec_of_effect (hanswers hrefuses) (State.answerCtl_refuses hidle (State.powerRefusal_refuses hrefused))
    case transition =>
      have hmoves := State.applyPower_transition (s := u.inProgress x) hx hmay hst hother hgate hcap
      exact exec_of_effect (hanswers hmoves) (State.settleCurrent_transition rfl _)
  case enters =>
    intro u
    refine exec_of_effect rfl ((State.doPowerTransitionDone_enters htarget hst).trans ?_)
    rw [State.endHold_eq, State.prepareTiles]
    simp only [beq_iff_eq]
    rfl
  case offPrep => exact exec_of_effect rfl (State.doPowerTransitionDone_offPrep htarget hcurrent)

end Sys2Proof.Machine
end

section
/-! PROOFS. DEVICE events (R374, R446, R450 to R452): their commands, what the failed device is, and the end of a recovery. -/

namespace Sys2Proof.Machine

theorem bitAt_eq_testBit (a n : Nat) : bitAt a n = a.testBit n := by
  simp only [bitAt, Nat.testBit, Nat.shiftRight_eq_div_pow, Nat.one_and_eq_mod_two]
  obtain h | h := Nat.mod_two_eq_zero_or_one (a / 2 ^ n) <;> simp [h]

theorem bitAt_or (a b n : Nat) : bitAt (a ||| b) n = (bitAt a n || bitAt b n) := by simp only [bitAt_eq_testBit, Nat.testBit_or]

theorem bitAt_two_pow_self (n : Nat) : bitAt (2 ^ n) n = true := by simp only [bitAt_eq_testBit, Nat.testBit_two_pow_self]

theorem Keeps.foldr {α : Type} (f : α → State → State) (hf : ∀ x s, Keeps s (f x s)) (l : List α) (s : State) : Keeps s (l.foldr f s) := by
  induction l with
  | nil => exact Keeps.rfl' s
  | cons x l ih => exact ih.trans (hf x _)

namespace State

-- What telling the partners and dumping the status space leave alone

theorem sendPlain_keeps (sub : Nat) (dst : Endpoint) (type : Nat) (p : Bytes) (s : State) : Keeps s (s.sendPlain sub dst type p) :=
  Keeps.ite (emitOn_sends _ _ s).keeps (Keeps.rfl' s)

theorem announce_keeps (kind : Nat) (s : State) : Keeps s (s.announce kind) := by
  refine (Keeps.foldl _ (fun s (q : Session) => (sendMessage_sends q.id 0x63 0 false _ s).keeps) _ s).trans (Keeps.foldl _ (fun s e => ?_) _ _)
  refine Keeps.ite ?_ (Keeps.rfl' s)
  cases e.2.host with
  | none => exact Keeps.rfl' s
  | some dst => exact sendPlain_keeps _ _ _ _ s

theorem millpondPut_keeps (x w : Nat) (s : State) : Keeps s (s.millpondPut x w) := by
  unfold millpondPut
  split
  · exact ⟨rfl, rfl, rfl, rfl, rfl, rfl⟩
  · exact Keeps.rfl' s

theorem writeDump_keeps (ws : List (Nat × Nat)) (s : State) : Keeps s (s.writeDump ws) :=
  (Keeps.foldl (fun s (t : Nat × Nat) => s.clearMem (tileWindow t.1) t.2) (fun _ _ => ⟨rfl, rfl, rfl, rfl, rfl, rfl⟩) dumpTiles s).trans
    (Keeps.foldr _ (fun _ s => Keeps.ite (millpondPut_keeps _ _ s) (Keeps.rfl' s)) ws _)

-- The failed device

theorem deviceEvent_again {s : State} {e : Event} (hfailed : s.boot.service = 3) :
    s.deviceEvent e = s.logEvent { e with cls := some 3, functions := s.fns.running } := by
  have hservice : (s.logEvent { e with cls := some 3, functions := s.fns.running }).boot.service = 3 := by
    obtain ⟨-, -, -, hboot, -⟩ := logEvent_leaves { e with cls := some 3, functions := s.fns.running } s
    rw [hboot, hfailed]
  simp only [deviceEvent, hservice, beq_self_eq_true, if_true]

/-- The device with its arrays gated and FAULT_N asserted, as a DEVICE event leaves it before its functions stop (R452). -/
def gateArrays (s : State) : State := { s with power := { s.power with arraysClocked := false }, pins := { s.pins with faultN := true } }

/-- No function runs after all were stopped and the control message in progress was dropped. -/
theorem stopAll_running (status : Nat) (s : State) {n : Nat} (hn : n < 8) :
    bitAt ((s.abortFunctions 0xFF status).dropCurrent 0).fns.running n = false := by
  have hall : ∀ n < 8, bitAt (stopClosure 0xFF) n = true := by decide
  obtain ⟨hdropped, -⟩ := dropCurrent_leaves 0 (s.abortFunctions 0xFF status)
  rw [hdropped, Nat.and_zero, Nat.or_zero, (abortFunctions_keeps 0xFF status s).fns, bitAt_maskWithout, bitAt_and, bitAt_or, hall n hn]
  cases bitAt s.fns.running n <;> rfl

theorem stopAll_pins (status : Nat) (s : State) : ((s.abortFunctions 0xFF status).dropCurrent 0).pins = s.pins := by
  obtain ⟨-, hpins, -⟩ := dropCurrent_leaves 0 (s.abortFunctions 0xFF status)
  rw [hpins, (abortFunctions_keeps 0xFF status s).pins]

theorem stopAll_arraysClocked (status : Nat) (s : State) :
    ((s.abortFunctions 0xFF status).dropCurrent 0).power.arraysClocked = s.power.arraysClocked := by
  obtain ⟨-, -, -, harrays, -⟩ := dropCurrent_leaves 0 (s.abortFunctions 0xFF status)
  rw [harrays, (abortFunctions_keeps 0xFF status s).power]

/-- A DEVICE event of a device that has not failed: what it logs first, then the failed state, with the dump of the status space. -/
theorem deviceEvent_fails {s : State} {e : Event} (hworks : s.boot.service ≠ 3) :
    let l := s.logEvent { e with cls := some 3, functions := s.fns.running }
    let v := ((l.gateArrays.abortFunctions 0xFF stContained).dropCurrent 0).announce 1
    s.deviceEvent e = ({ v with boot := { v.boot with service := 3, deviceFailed := true, millpond := true } } : State).writeDump l.statusWords := by
  intro l
  have hservice : (l.boot.service == 3) = false := by
    obtain ⟨-, -, -, hboot, -⟩ := logEvent_leaves { e with cls := some 3, functions := s.fns.running } s
    exact beq_false_of_ne (hboot ▸ hworks)
  exact if_neg (Bool.eq_false_iff.1 hservice)

/-- What the failed state is (R402, R452). -/
theorem deviceEvent_failed {s : State} {e : Event} (hworks : s.boot.service ≠ 3) : let u := s.deviceEvent e
    u.power.arraysClocked = false ∧ u.pins.faultN = true ∧ u.boot.service = 3 ∧ u.boot.deviceFailed = true ∧ u.boot.millpond = true
      ∧ ∀ n, n < 8 → bitAt u.fns.running n = false := by
  intro u
  have hu : u = _ := deviceEvent_fails hworks
  generalize hl : s.logEvent { e with cls := some 3, functions := s.fns.running } = l at hu
  generalize hv : (l.gateArrays.abortFunctions 0xFF stContained).dropCurrent 0 = v at hu
  have htold := announce_keeps 1 v
  have hdump := writeDump_keeps l.statusWords { v.announce 1 with boot := { (v.announce 1).boot with service := 3, deviceFailed := true, millpond := true } }
  rw [hu, hdump.power, hdump.pins, hdump.boot, hdump.fns]
  refine ⟨?arrays, ?faultN, rfl, rfl, rfl, fun n hn => ?stopped⟩
  case arrays => rw [htold.power, ← hv, stopAll_arraysClocked]; rfl
  case faultN => rw [htold.pins, ← hv, stopAll_pins]; rfl
  case stopped => rw [htold.fns, ← hv, stopAll_running _ _ hn]

-- The commands

theorem deviceCause_awake {s : State} (hawake : s.awake = true) (cause unit idx : Nat) :
    s.deviceCause cause unit idx = s.deviceEvent { cause, unit, unitIndex := idx } := by simp only [deviceCause, hawake, if_true]

theorem doHbmStackTrainingLoss_awake {s : State} (hawake : s.awake = true) {k : Nat} (hk : k < 16) :
    s.doHbmStackTrainingLoss k = s.deviceEvent { cause := 0x0C, unit := 1, unitIndex := k } := by
  rw [doHbmStackTrainingLoss, Nat.mod_eq_of_lt hk, deviceCause_awake hawake]

/-- The recovery of a function has ended. -/
def endRecovery (f : Nat) (s : State) : State := { s with fns := { s.fns with
  recovering := maskWithout s.fns.recovering (2 ^ f), recoveries := s.fns.recoveries.erase (stopClosure (2 ^ f)) } }

theorem doFunctionRecoveryDone_ends {s : State} {f : Nat} (hf : f < 8) (hrecovers : bitAt s.fns.recovering f = true) :
    s.doFunctionRecoveryDone f = (s.endRecovery f).settle := by
  simp only [doFunctionRecoveryDone, hrecovers, hf, decide_true, Bool.and_self, if_true]
  rfl

end State

/-- Settles O58: each command is its DEVICE event; the first event fails the device, a later one is logged; a recovery ends without a start. -/
theorem deviceEventsFailTheDevice : Obligations.DeviceEventsFailTheDevice := by
  refine ⟨fun s hawake => ?commands, fun s e hworks => State.deviceEvent_failed hworks, fun s e hfailed => State.deviceEvent_again hfailed,
    fun f s hf hrecovers => ⟨exec_of_effect rfl (State.doFunctionRecoveryDone_ends hf hrecovers), ?ended, rfl⟩⟩
  case commands =>
    have hfails (cause unit idx : Nat) := State.deviceCause_awake hawake cause unit idx
    exact ⟨exec_of_effect rfl (hfails 0x36 8 0), exec_of_effect rfl (hfails 0x36 2 0), fun k => exec_of_effect rfl (hfails 0x36 1 k),
      exec_of_effect rfl (hfails 0x36 4 0), exec_of_effect rfl (hfails 0x36 6 0), exec_of_effect rfl (hfails 0x37 6 0),
      exec_of_effect rfl (hfails 0x35 7 0), fun k hk => exec_of_effect rfl (State.doHbmStackTrainingLoss_awake hawake hk)⟩
  case ended => rw [bitAt_maskWithout, bitAt_two_pow_self, Bool.not_true, Bool.and_false]

end Sys2Proof.Machine
end

section
/-! PROOFS. The TAP, the management bus and debug authorisation (R395, R396, R463, R464, R466, R477). -/

namespace Sys2Proof.Machine
namespace State

-- The TAP (R395, R463, R466)

section
variable {s : State}

section
variable (hlow : s.pins.resetLow = true)
include hlow

theorem doTapBypass_low : s.doTapBypass = (s.tapLoad 1).emit (.tdo 1 0) := by simp only [doTapBypass, hlow, if_true]

theorem doTapSamplePreload_low (pins v : Nat) : s.doTapSamplePreload pins (some v) =
    ({ s.tapLoad 2 with pins := { (s.tapLoad 2).pins with boundary := v } } : State).emit (.boundary pins) := by
  simp only [doTapSamplePreload, hlow, if_true, Option.getD_some]

theorem doTapExtest_low : s.doTapExtest =
    ({ s.tapLoad 3 with pins := { (s.tapLoad 3).pins with extestDrive := some s.pins.boundary } } : State).emit (.extest s.pins.boundary) := by
  simp only [doTapExtest, hlow, if_true]
  rfl

end

section
variable (hlocked : s.pins.resetLow = false)
include hlocked

theorem doTapBypass_locked : s.doTapBypass = s := by simp only [doTapBypass, hlocked, Bool.false_eq_true, if_false]

theorem doTapSamplePreload_locked (pins : Nat) (load : Option Nat) : s.doTapSamplePreload pins load = s := by
  simp only [doTapSamplePreload, hlocked, Bool.false_eq_true, if_false]

theorem doTapExtest_locked : s.doTapExtest = s := by simp only [doTapExtest, hlocked, Bool.false_eq_true, if_false]

end

theorem doTapIdcode_part {p : Part} (hpart : s.fuses.part = p) : s.doTapIdcode = (s.tapLoad 0).emit (.tdo 32 (idcode p)) := by
  rw [doTapIdcode, hpart]

-- The management bus (R464, R477)

theorem mgmtAnswers_own (hawake : s.awake = true) : s.mgmtAnswers s.pins.mgmtAddr = true := by
  simp only [mgmtAnswers, hawake, beq_self_eq_true, Bool.and_self]

theorem mgmtAnswers_other {a : Nat} (ha : a ≠ s.pins.mgmtAddr) : s.mgmtAnswers a = false := by
  simp only [mgmtAnswers, beq_false_of_ne ha, Bool.and_false]

section
variable {a : Nat} (hanswers : s.mgmtAnswers a = true)
include hanswers

theorem doSmbusBlockRead_word {cmd : Nat} (hcmd : cmd < 64) :
    s.doSmbusBlockRead a cmd = s.emit (.mgmt (leBytes 8 (s.tele.block.getD cmd 0))) := by
  simp only [doSmbusBlockRead, hanswers, hcmd, if_true]

theorem doSmbusBlockRead_beyond {cmd : Nat} (hcmd : 64 ≤ cmd) : s.doSmbusBlockRead a cmd = s.emit .mgmtNack := by
  simp only [doSmbusBlockRead, hanswers, Nat.not_lt.2 hcmd, if_true, if_false]

theorem doI3cPrivateRead_block :
    s.doI3cPrivateRead a = s.emit (.mgmt ((List.range 64).flatMap fun i => leBytes 8 (s.tele.block.getD i 0))) := by
  simp only [doI3cPrivateRead, hanswers, if_true]

theorem doMgmtWriteNack_refuses : s.doMgmtWriteNack a = s.emit .mgmtNack := by simp only [doMgmtWriteNack, hanswers, if_true]

end

section
variable {a : Nat} (hsilent : s.mgmtAnswers a = false)
include hsilent

theorem doSmbusBlockRead_silent (cmd : Nat) : s.doSmbusBlockRead a cmd = s := by
  simp only [doSmbusBlockRead, hsilent, Bool.false_eq_true, if_false]

theorem doI3cPrivateRead_silent : s.doI3cPrivateRead a = s := by simp only [doI3cPrivateRead, hsilent, Bool.false_eq_true, if_false]

theorem doMgmtWriteNack_silent : s.doMgmtWriteNack a = s := by simp only [doMgmtWriteNack, hsilent, Bool.false_eq_true, if_false]

end

-- DBG_AUTH (R395, R396)

/-- An attempt draws a fresh challenge, whatever its record grants. -/
def newChallenge (s : State) : State :=
  { s with free := s.free + 1, boot := { s.boot with challenge := fit 32 (Config.entropy s.free 32) } }

/-- What a record that grants a scope does: M3 is extended and the grant is logged (log entry 23); scope 2 waits for the writes under way. -/
def grantScope (scope : Nat) (r : Bytes) (s : State) : State :=
  let v := (s.extendM3 4 r).logEvent { cause := 0, unit := 7, detail := scope, cls := some 0 }
  if scope = 1 then { v with boot := { v.boot with debugStatus := true } } else { v with boot := { v.boot with debugPending := true } }

theorem doDbgAuth_spent (hspent : 8 ≤ s.boot.authFailures) (r : Bytes) : s.doDbgAuth r = s := by
  simp only [doDbgAuth, hspent, decide_true, Bool.or_true, if_true]

section
variable (hawake : s.awake = true) (hleft : s.boot.authFailures < 8) {r : Bytes}
include hawake hleft

theorem doDbgAuth_attempts : (!s.awake || decide (8 ≤ s.boot.authFailures)) = false := by simp [hawake, hleft]

theorem doDbgAuth_fails (hnone : s.grantedScope r = none) : s.doDbgAuth r =
    { s.newChallenge with boot := { s.newChallenge.boot with authFailures := s.boot.authFailures + 1 } } := by
  simp only [doDbgAuth, doDbgAuth_attempts hawake hleft, hnone, Bool.false_eq_true, if_false]
  rfl

theorem doDbgAuth_grants {scope : Nat} (hscope : s.grantedScope r = some scope) : s.doDbgAuth r = s.newChallenge.grantScope scope r := by
  simp only [doDbgAuth, doDbgAuth_attempts hawake hleft, hscope, beq_iff_eq, Bool.false_eq_true, if_false]
  rfl

end
end

/-- HBM and tile memory are all the memory that there is (R294). -/
theorem zeroHbm_zeroTiles_mem (s : State) : s.zeroHbm.zeroTiles.mem = [] := by
  show (s.mem.filter fun c => !(inHbm c.1)).filter (fun c => inHbm c.1) = []
  rw [List.filter_filter, List.filter_eq_nil_iff]
  intro c _
  simp

end State

/-- Settles O59: the TAP by RESET_N, the bus by the address, an authorisation by what its record grants. -/
theorem debugAndManagementAnswer : Obligations.DebugAndManagementAnswer := by
  refine ⟨fun s => ?tap, fun s hawake => ?bus, fun s r hawake => ⟨fun hspent => exec_of_effect rfl (State.doDbgAuth_spent hspent r),
    fun hleft => ?attempt, rfl, rfl, State.zeroHbm_zeroTiles_mem _⟩⟩
  case tap =>
    intro tap
    exact ⟨rfl, fun hpart => exec_of_effect rfl (State.doTapIdcode_part hpart), fun hpart => exec_of_effect rfl (State.doTapIdcode_part hpart),
      fun hlow => ⟨exec_of_effect rfl (State.doTapBypass_low hlow), fun pins v => exec_of_effect rfl (State.doTapSamplePreload_low hlow pins v),
        exec_of_effect rfl (State.doTapExtest_low hlow)⟩,
      fun hlocked => ⟨exec_of_effect rfl (State.doTapBypass_locked hlocked), exec_of_effect rfl (State.doTapExtest_locked hlocked),
        fun pins load => exec_of_effect rfl (State.doTapSamplePreload_locked hlocked pins load)⟩⟩
  case bus =>
    have hown := State.mgmtAnswers_own hawake
    refine ⟨fun cmd hcmd => exec_of_effect rfl (State.doSmbusBlockRead_word hown hcmd), exec_of_effect rfl (State.doI3cPrivateRead_block hown),
      exec_of_effect rfl (State.doMgmtWriteNack_refuses hown), fun cmd hcmd => exec_of_effect rfl (State.doSmbusBlockRead_beyond hown hcmd),
      fun a ha => ?otherAddress⟩
    have hsilent := State.mgmtAnswers_other ha
    exact ⟨exec_of_effect rfl (State.doMgmtWriteNack_silent hsilent), exec_of_effect rfl (State.doI3cPrivateRead_silent hsilent),
      fun cmd => exec_of_effect rfl (State.doSmbusBlockRead_silent hsilent cmd)⟩
  case attempt =>
    intro u
    split
    case h_1 hnone => exact exec_of_effect rfl (State.doDbgAuth_fails hawake hleft hnone)
    case h_2 scope hscope => exact exec_of_effect rfl (State.doDbgAuth_grants hawake hleft hscope)

end Sys2Proof.Machine
end

section
/-! PROOFS. Start-up (R397, R398): what halts it, and which image it boots or why it enters recovery. -/

namespace Sys2Proof.Machine
namespace State

/-- The straps are sampled and the flash is as the board left it (R397, R461). -/
def sampleStraps (r : StartReport) (s : State) : State := { s with
  pins := { s.pins with resetLow := false, faultN := false, xspiReleased := false, mgmtAddr := 0x58 + r.mgmtAddr % 8, extestDrive := none }
  flash := { s.flash with slotA := r.flashA.getD s.flash.slotA, slotB := r.flashB.getD s.flash.slotB } }

/-- The ROM is measured, the owner's key is read from the slots, and the first challenge is drawn (R26, R374, R398). -/
def readOwner (fuses : Fuses) (u : State) : State := { u with
  free := u.free + 1
  boot := { u.boot with m0 := Config.romDigest, ownerKey := slotKey fuses u.flash, challenge := fit 32 (Config.entropy u.free 32) } }

/-- The first slot that verifies boots; with none the device enters recovery (R398, R401). -/
def bootOrRecover (r : StartReport) (v : State) : State :=
  match v.bootSlot with
  | none => v.enterRecovery r
  | some (b, x) => v.bootImage r b x

section
variable {r : StartReport} {s : State} (hlow : s.pins.resetLow = true)
include hlow

theorem doResetNRelease_halts (hfails : r.strapTest = true ∨ r.fusesOk = false ∨ r.romOk = false) :
    let u := s.sampleStraps r
    s.doResetNRelease r = { u with boot := { u.boot with halted := true }, pins := { u.pins with faultN := true } } := by
  have hhalts : (r.strapTest || !r.fusesOk || !r.romOk) = true := by simpa [or_assoc] using hfails
  simp only [doResetNRelease, hlow, hhalts, if_true]
  rfl

theorem doResetNRelease_starts (hstraps : r.strapTest = false) (hfuses : r.fusesOk = true) (hrom : r.romOk = true) :
    let w := ((s.sampleStraps r).readOwner (s.startFuses r)).bootOrRecover r
    s.doResetNRelease r = if r.entropyOk then w else w.deviceEvent { cause := 0x35, unit := 7 } := by
  simp only [doResetNRelease, hlow, hstraps, hfuses, hrom, Bool.not_true, Bool.or_self, Bool.false_eq_true, if_true, if_false]
  rfl

end
end State

/-- Settles O4: the early steps by the straps and the fuse and ROM checks, the rest by `bootOrRecover`. -/
theorem startUpBootsOrRecovers : Obligations.StartUpBootsOrRecovers := by
  intro r s hlow u v w
  have hends {t : State} (h : s.doResetNRelease r = t) : exec (.resetNRelease r) s = .next (s.afterStart r t) := h ▸ rfl
  exact ⟨fun hfails => hends (State.doResetNRelease_halts hlow hfails),
    fun hstraps hfuses hrom => hends (State.doResetNRelease_starts hlow hstraps hfuses hrom)⟩

end Sys2Proof.Machine
end

section
/-! PROOFS. Loads of models, plans, adapters and grammars (R363, R394): a chunk that is stored, a load that is abandoned, and a removal. -/

namespace Sys2Proof.Machine
namespace State

theorem logEvent_portTicks (e : Event) (s : State) : (s.logEvent e).portTicks = s.portTicks := by
  unfold logEvent
  dsimp only
  split
  · rfl
  · split
    · rfl
    · split <;> rfl

/-- A write to HBM for no request takes no time. -/
theorem storeHbm_portTicks (m a : Nat) (bs : Bytes) (s : State) : (s.storeHbm none m a bs).portTicks = s.portTicks := by
  have hport : (s.portWrite a bs).portTicks = s.portTicks := by rw [portWrite_eq]; rfl
  unfold storeHbm
  dsimp only
  split
  · exact hport
  · unfold containedEvent
    dsimp only
    split
    · exact (logEvent_portTicks _ _).trans hport
    · exact (logEvent_portTicks _ _).trans hport

/-- The load that a write's header names (R363). -/
def loadOf (s : State) (w : Write) : Option Load := s.loads.find? fun l => l.type == w.type && l.id == lhId (uAt w.payload 0 32)

theorem loadOf_some {s : State} {w : Write} {l : Load} (h : s.loadOf w = some l) : l.type = w.type ∧ l.id = lhId (uAt w.payload 0 32) := by
  simpa using List.find?_some h

/-- A write carries a chunk, not the last and without overrides, of a load in progress that it fits. -/
structure LoadChunk (s : State) (w : Write) (l : Load) : Prop where
  header : loadHeaderOk w.type w.payload = true
  keeps : lhRemove (uAt w.payload 0 32) = false
  more : lhFinal (uAt w.payload 0 32) = false
  plain : lhOverrides (uAt w.payload 0 32) = 0
  load : s.loadOf w = some l
  session : l.session = w.session
  total : l.total = lhTotal (uAt w.payload 0 32)
  version : l.version = lhVersion (uAt w.payload 0 32)
  forModel : l.forModel = lhForModel (uAt w.payload 0 32)
  wrapped : l.wrapped = lhWrapped (uAt w.payload 0 32)
  waits : l.final = none
  some : lhTotal (uAt w.payload 0 32) ≠ 0
  room : lhOffset (uAt w.payload 0 32) + (w.payload.length - 32) ≤ lhTotal (uAt w.payload 0 32)

theorem applyLoad_stores {s : State} {w : Write} {l : Load} (hw : s.LoadChunk w l) :
    let off := lhOffset (uAt w.payload 0 32)
    let chunk := w.payload.drop 32
    let l' := { l with got := l.got ++ [(off, chunk.length)], lastChunk := s.portTicks }
    let u := s.storeHbm none 0 (l.base + off) chunk
    s.applyLoad w = ({ u with loads := u.loads.map fun x => if x.type == w.type && x.id == lhId (uAt w.payload 0 32) then l' else x }, some {}) := by
  have hcur : s.loads.find? (fun l => l.type == w.type && l.id == lhId (uAt w.payload 0 32)) = some l := hw.load
  obtain ⟨htype, hid⟩ := loadOf_some hw.load
  have hchunk : (w.payload.drop 32).take (w.payload.length - 32 - 8 * lhOverrides (uAt w.payload 0 32)) = w.payload.drop 32 := by
    rw [hw.plain]
    exact List.take_of_length_le (by simp)
  have hfits : (l.session == w.session && l.total == lhTotal (uAt w.payload 0 32) && l.version == lhVersion (uAt w.payload 0 32)
      && l.forModel == lhForModel (uAt w.payload 0 32) && l.wrapped == lhWrapped (uAt w.payload 0 32)) = true := by
    simp [hw.session, hw.total, hw.version, hw.forModel, hw.wrapped]
  have hroom : ¬lhTotal (uAt w.payload 0 32) < lhOffset (uAt w.payload 0 32) + (w.payload.drop 32).length := by
    rw [List.length_drop]
    exact Nat.not_lt.2 hw.room
  simp only [applyLoad, hw.header, hw.keeps, hw.more, hcur, hchunk, hfits, decide_eq_false hroom, beq_false_of_ne hw.some, hw.waits, htype, hid,
    storeHbm_portTicks, Bool.not_true, Bool.or_self, Bool.false_eq_true, if_false]

theorem doLoadAbandonTimeout_abandons {kind : LoadKind} {id : Nat} {s : State} {l : Load}
    (hl : s.loads.find? (fun l => l.type == loadType kind && l.id == id) = some l) :
    s.doLoadAbandonTimeout kind id = (s.atLeast (l.lastChunk + ticksOfMs 60000)).abandonLoad l := by
  simp only [doLoadAbandonTimeout, hl]

/-- An abandoned load is gone and its memory given back. -/
def dropLoad (l : Load) (s : State) : State :=
  ({ s with loads := s.loads.filter fun x => !(x.type == l.type && x.id == l.id) } : State).release l.base l.total

theorem abandonLoad_waiting {l : Load} (hwaits : l.final = none) (s : State) : s.abandonLoad l = s.dropLoad l := by
  simp only [abandonLoad, hwaits]
  rfl

theorem abandonLoad_final {l : Load} {w : Write} {o : Bytes} (hfinal : l.final = some (w, o)) (s : State) :
    s.abandonLoad l = (s.dropLoad l).endWrite w refIncomplete := by
  simp only [abandonLoad, hfinal]
  rfl

section
variable {s : State} {w : Write} (hheader : loadHeaderOk w.type w.payload = true) (hremove : lhRemove (uAt w.payload 0 32) = true)
  (hnone : s.loadOf w = none)
include hheader hremove hnone

theorem applyLoad_removes_nothing (hnothing : (s.removeObject w.type (lhId (uAt w.payload 0 32))).1 = []) :
    s.applyLoad w = (s, some refNotHeld) := by
  have hcur : s.loads.find? (fun l => l.type == w.type && l.id == lhId (uAt w.payload 0 32)) = none := hnone
  simp only [applyLoad, hheader, hremove, hcur, hnothing, List.isEmpty_nil, Bool.and_self, Bool.not_true, Bool.false_eq_true, if_false, if_true]

theorem applyLoad_removes (hsome : (s.removeObject w.type (lhId (uAt w.payload 0 32))).1 ≠ []) :
    let r := s.removeObject w.type (lhId (uAt w.payload 0 32))
    s.applyLoad w = ({ r.2 with removals := r.2.removals ++ [(w, r.1)] }, none) := by
  have hcur : s.loads.find? (fun l => l.type == w.type && l.id == lhId (uAt w.payload 0 32)) = none := hnone
  simp only [applyLoad, hheader, hremove, hcur, List.isEmpty_eq_false_iff.2 hsome, List.append_nil, Bool.false_and, Bool.not_true,
    Bool.false_eq_true, if_false, if_true]

end
end State

/-- Settles O30: a chunk that its load fits, a load by whether its last chunk waits, and a removal by whether an image is held. -/
theorem loadsStoreAndRemoveImages : Obligations.LoadsStoreAndRemoveImages := by
  refine ⟨?chunk, fun kind id s l hl => ?abandons, ?removes⟩
  case chunk =>
    intro s w l h hh hheader hkeeps hmore hplain hload hsession htotal hversion hforModel hwrapped hwaits hsome hroom
    subst hh
    exact State.applyLoad_stores
      ⟨hheader, hkeeps, hmore, hplain, hload, hsession, htotal, hversion, hforModel, hwrapped, hwaits, hsome, hroom⟩
  case abandons =>
    have habandons := State.doLoadAbandonTimeout_abandons hl
    exact ⟨fun hwaits => exec_of_effect rfl (habandons.trans (State.abandonLoad_waiting hwaits _)),
      fun w o hfinal => exec_of_effect rfl (habandons.trans (State.abandonLoad_final hfinal _))⟩
  case removes =>
    intro s w h hh hheader hremove hnone r
    subst hh
    exact ⟨State.applyLoad_removes_nothing hheader hremove hnone, State.applyLoad_removes hheader hremove hnone⟩

end Sys2Proof.Machine
end
